-- ==== Sys2Proof/Word.lean ====
section
/-! DEFINITION. The words of the KV9216: widths, and the plainest arithmetic on them
(saturating counters and field cuts). -/

namespace Sys2Proof

/-- A byte: bit 0 is the least significant bit (Notation). -/
abbrev Byte := BitVec 8
/-- A 32-bit register word. -/
abbrev W32 := BitVec 32
/-- A 64-bit quadword. -/
abbrev W64 := BitVec 64

/-- Master identity of R21: node ID [19:8], local agent [7:0]. -/
abbrev MasterId := BitVec 20

/-- The agent field [7:0] of a master identity (R21). -/
def MasterId.agent (m : MasterId) : BitVec 8 := BitVec.extractLsb' 0 8 m
/-- The node field [19:8] of a master identity (R21). -/
def MasterId.node (m : MasterId) : BitVec 12 := BitVec.extractLsb' 8 12 m
/-- The identity (node, agent) of R21. -/
def mkMaster (node : BitVec 12) (agent : BitVec 8) : MasterId := node ++ agent

/-- Add to a counter of `w` bits that saturates at all ones (R62, R120, ...). -/
def satAdd {w : Nat} (a : BitVec w) (n : Nat) : BitVec w :=
  if a.toNat + n < 2 ^ w then BitVec.ofNat w (a.toNat + n) else BitVec.allOnes w

/-- Bit `i` of a word as a Bool. -/
def bit {w : Nat} (a : BitVec w) (i : Nat) : Bool := a.getLsbD i

/-- Set bit `i` of a word. -/
def setBit {w : Nat} (a : BitVec w) (i : Nat) (b : Bool) : BitVec w :=
  if b then a ||| BitVec.twoPow w i else a &&& ~~~(BitVec.twoPow w i)

/-- Field [hi:lo] as a number. -/
def fieldN {w : Nat} (a : BitVec w) (lo len : Nat) : Nat := (a.toNat >>> lo) % 2 ^ len

/-- A Bool as 0 or 1. -/
def b2n (b : Bool) : Nat := if b then 1 else 0

/-- Place value `v` at bit `lo` of a 32-bit word (fields are OR-ed together). -/
def at32 (lo : Nat) (v : Nat) : W32 := BitVec.ofNat 32 (v <<< lo)
/-- Place value `v` at bit `lo` of a 64-bit word. -/
def at64 (lo : Nat) (v : Nat) : W64 := BitVec.ofNat 64 (v <<< lo)

/-- Byte `i` of a word, little-endian (R5). -/
def byteOf {w : Nat} (a : BitVec w) (i : Nat) : Byte := BitVec.extractLsb' (8 * i) 8 a

/-- A word from its bytes, byte 0 at the lowest address (R5). -/
def ofBytes (w : Nat) : List Byte → BitVec w
  | [] => 0
  | b :: bs => (ofBytes w bs <<< 8) ||| BitVec.setWidth w b

/-- The first `n` bytes of a word, byte 0 first (R5). -/
def toBytes {w : Nat} (a : BitVec w) (n : Nat) : List Byte := (List.range n).map (byteOf a)

end Sys2Proof
end

