-- ==== Sys2Proof/Types.lean ====
section
/-! DEFINITION. The kinds of things that the commands name and the state holds: variants, paths into
the management window, completion and command statuses, requests and completions, connections of a
bundle, fault records. -/

namespace Sys2Proof

/-- The two variants of R1. -/
inductive Variant where
  | kv9216 | kv9208
deriving DecidableEq, Repr

/-- Layers per channel (R1): 16 or 8. -/
def Variant.layers : Variant → Nat
  | .kv9216 => 16
  | .kv9208 => 8
/-- User capacity in pages of 128 KiB (R1, R2). -/
def Variant.pages : Variant → Nat
  | .kv9216 => 2097152
  | .kv9208 => 1048576
/-- User capacity in bytes (R1). -/
def Variant.capacity (v : Variant) : Nat := v.pages * 131072
/-- Power cap ceiling in W (R29). -/
def Variant.maxCap : Variant → Nat
  | .kv9216 => 220
  | .kv9208 => 170

/-- The four paths by which a master reaches the management window; each keeps its own latches (R467, R475). -/
inductive Path where
  | host (h : Fin 8)
  | scezo (port : Fin 64) (sub : Fin 4)
  | core (c : Fin 4)
  | i3c
deriving DecidableEq, Repr

/-- Completion statuses of R237. -/
inductive CStatus where
  | ok | poisoned | integrityFail | uncorrectable | retired | notPermitted | sealed
  | pathDown | domainDown | channelOffline | internal
deriving DecidableEq, Repr

/-- The 4-bit code of a completion status (R237). -/
def CStatus.code : CStatus → Nat
  | .ok => 0 | .poisoned => 1 | .integrityFail => 2 | .uncorrectable => 3 | .retired => 4
  | .notPermitted => 5 | .sealed => 6 | .pathDown => 7 | .domainDown => 8 | .channelOffline => 9
  | .internal => 15

/-- The status a receiver reads from a 4-bit code: a reserved code is INTERNAL (R237). -/
def CStatus.ofCode (n : Nat) : CStatus :=
  match n with
  | 0 => .ok | 1 => .poisoned | 2 => .integrityFail | 3 => .uncorrectable | 4 => .retired
  | 5 => .notPermitted | 6 => .sealed | 7 => .pathDown | 8 => .domainDown | 9 => .channelOffline
  | _ => .internal

/-- The four function states of R360. -/
inductive FnState where
  | off | starting | on | stopping
deriving DecidableEq, Repr

/-- The 2-bit code of a function state: OFF 0, STARTING 1, ON 2, STOPPING 3 (R253). -/
def FnState.code : FnState → Nat
  | .off => 0 | .starting => 1 | .on => 2 | .stopping => 3

/-- A function of R360: its state and, where one is deferred, the opposite transition (true: enable). -/
structure Fn where
  st : FnState := .off
  deferred : Option Bool := none
deriving DecidableEq, Repr

/-- The origin of a request: the master port (Kerb number j of R229, with the sub-link for a link port),
or the stack itself (walker, scrubber, control-core work done inside one step). -/
inductive Origin where
  | port (j : Fin 140) (sub : Fin 4)
  | stack
deriving DecidableEq, Repr

/-- The request types of R235 that reach a channel slice or another node. -/
inductive ReqKind where
  | lineRead
  | lineWrite (data : BitVec 512) (poison : Bool)
  | partialWrite (data : BitVec 512) (mask : BitVec 64)
  | rowRead (stream : Bool)
  | rowWrite (data : List (BitVec 512)) (poison : BitVec 16)
  | opDispatch (queue : BitVec 16) (desc : BitVec 1024)
deriving DecidableEq, Repr

/-- A request (R235): issuing master, tag, class, target node, local address there, kind, and where its
completion goes. -/
structure Req where
  master : MasterId
  tag : BitVec 16
  cls : BitVec 4
  node : BitVec 12
  addr : BitVec 40
  kind : ReqKind
  origin : Origin
deriving DecidableEq, Repr

/-- A completion (R236): the request it answers, status, data lines, line status field of a row read; for an engine's source row, the
outcome of each line and whether the line itself is poisoned (R186); serving channel's recovery epoch, and whether a neighbour
synthesised it (R33). -/
structure Completion where
  req : Req
  status : CStatus
  data : List (BitVec 512) := []
  lineStatus : BitVec 16 := 0
  lines : List (CStatus × Bool) := []
  epoch : BitVec 16 := 0
  synthesised : Bool := false
deriving DecidableEq, Repr

/-- Kinds of bundle connection, in the coding of TSV_DEAD_LAST.KIND (R62). -/
inductive ConnKind where
  | data | dataSpare | ca | caSpare | parity | paritySpare | clock
deriving DecidableEq, Repr

/-- The code of a connection kind (R62). -/
def ConnKind.code : ConnKind → Nat
  | .data => 0 | .dataSpare => 1 | .ca => 2 | .caSpare => 3 | .parity => 4 | .paritySpare => 5 | .clock => 6

/-- A bundle connection (R35): its kind and number, and the lowest layer at which a failure was seen. -/
structure Conn where
  kind : ConnKind
  idx : Nat
  layer : Nat := 0
deriving DecidableEq, Repr

/-- One line of what a walking step found (R51): a connection that mismatched, and in how many of the
three runs of the step. -/
structure WalkMiss where
  conn : Conn
  runs : Nat
deriving DecidableEq, Repr

/-- A row of a channel: layer, bank and DRAM row (R63). -/
structure RowAddr where
  layer : Nat
  bank : Nat
  row : Nat
deriving DecidableEq, Repr

/-- What the fuse array and a monitor read during a drift check: stress-band count and reference count (R56). -/
structure AgeCounts where
  stress : BitVec 16
  ref : BitVec 16
deriving DecidableEq, Repr

/-- The two kinds of retrain of R57. -/
inductive RetrainKind where
  | incremental | full
deriving DecidableEq, Repr

/-- A fault record of R434. -/
structure FaultRec where
  source : BitVec 12
  addr : BitVec 52
  cls : BitVec 2
  access : BitVec 6
  master : MasterId
  rep : BitVec 8
  status : BitVec 4
  forced : Bool
  broken : Bool
  approx : Bool
  time : BitVec 64
deriving DecidableEq, Repr

end Sys2Proof

namespace Sys2Proof

/-- Command statuses of R343. -/
inductive CmdStatus where
  | ok | deferred | busy | badOpcode | badParam | notPermitted | locked | admissionRefused
  | domainDown | integrityFail | poisoned | sealed | fuseVerifyFail | lockCheckFail | pathDown | internal
deriving DecidableEq, Repr

/-- The code of a command status (R343). -/
def CmdStatus.code : CmdStatus → Nat
  | .ok => 0x00 | .deferred => 0x01 | .busy => 0x02 | .badOpcode => 0x10 | .badParam => 0x11
  | .notPermitted => 0x12 | .locked => 0x13 | .admissionRefused => 0x20 | .domainDown => 0x21
  | .integrityFail => 0x30 | .poisoned => 0x31 | .sealed => 0x32 | .fuseVerifyFail => 0x40
  | .lockCheckFail => 0x41 | .pathDown => 0x50 | .internal => 0x7F

/-- The command status that reports a completion status, where the command's rule names no other (R513). -/
def CmdStatus.ofCompletion : CStatus → CmdStatus
  | .ok => .ok | .poisoned => .poisoned | .integrityFail => .integrityFail | .sealed => .sealed
  | .retired => .notPermitted | .notPermitted => .notPermitted | .channelOffline => .notPermitted
  | .domainDown => .domainDown | .pathDown => .pathDown | .uncorrectable => .internal | .internal => .internal

/-- What carried a command packet (R336, R345, R300): a command ring, the direct slot through a path and
under the identity that wrote GO, or a REMOTE_CMD message from a master over a sub-link, with the message's tag. -/
inductive CmdSrc where
  | ring (r : Fin 32)
  | direct (path : Path) (m : MasterId)
  | remote (m : MasterId) (port : Fin 64) (sub : Fin 4) (msgTag : BitVec 16)
deriving DecidableEq, Repr

/-- The part of a packet common to every command (R341): its carrier, TAG and FLAGS.IRQ. -/
structure CmdCtx where
  src : CmdSrc
  tag : W32
  irq : Bool
deriving DecidableEq, Repr

end Sys2Proof

namespace Sys2Proof

/-- A Scezo message (R285, R286): its header slot and its further slots, as they stand on the link. -/
structure Msg where
  hdr : BitVec 128
  slots : List (BitVec 128) := []
deriving DecidableEq, Repr

/-- A sub-link of a port (R254). -/
structure SubLink where
  port : Fin 64
  sub : Fin 4
deriving DecidableEq, Repr

/-- Instructions of the test access port (R59, R60, R272): those that IEEE 1149.1 makes mandatory, those of IEEE 1149.6, and those
of IEEE 1838 for the serial control mechanism, the die wrapper registers and the die identification registers. -/
inductive TapInstr where
  | bypass | sample | preload | extest
  | extestPulse | extestTrain
  | control | wrapper | dieId
deriving DecidableEq, Repr

/-- A boundary-scan instruction, which takes every lane away from its port (R272). -/
def TapInstr.takesLanes : TapInstr → Bool
  | .sample | .preload | .extest | .extestPulse | .extestTrain => true
  | _ => false
/-- An instruction of IEEE 1838, which debug disable takes away (R60). -/
def TapInstr.stacked : TapInstr → Bool
  | .control | .wrapper | .dieId => true
  | _ => false

/-- A scan through the test access port: the instruction loaded, the bits shifted in at TDI (first bit first), what the cells on pins or
connections capture, and the mean period of TCK in ps over its 16 most recent cycles when the scan ends (R504). -/
structure TapScan where
  instr : TapInstr
  shift : List Bool
  pins : List Bool
  tck : Nat
deriving DecidableEq, Repr

/-- The result of an attempt to train or recover a sub-link: lanes that locked (bits 0-7 physical lanes of the port, bits 8-15 those of
the port paired with it in CXL_X16, R254), whether the lane order is reversed, partner's node ID, highest rate that the partner
allows, and for each lane its skew in units of 0.25 ns and its RX_EQ and TX_EQ words (R260, R263, R267, R273). -/
structure TrainRes where
  locked : BitVec 16
  reversed : Bool
  partner : BitVec 12
  rate : Fin 6
  skew : List (BitVec 8)
  rxEq : List W32
  txEq : List W32
deriving DecidableEq, Repr

end Sys2Proof

namespace Sys2Proof

/-- An access to the configuration space of a host port (R312, R314): the registers whose contents the
spec gives or that its rules use. -/
inductive ConfigOp where
  /-- Read of an identification field of R312 or of the Device Serial Number: 0 Vendor ID, 1 Device ID, 2 Revision,
  3 class code, 4 Subsystem Vendor ID, 5 Subsystem ID, 6-7 the serial number, 8 BAR4, 9 BAR5. -/
  | readId (which : Fin 10)
  | readCommand
  | writeCommand (v : BitVec 16)
  | readBar (which : Bool)
  | writeBar (which : Bool) (v : W64)
  | readPower
  | writePower (d3hot : Bool)
  /-- MSI-X enable and function mask (R314, R359). -/
  | writeMsixCtl (enable mask : Bool)
  /-- MSI-X table entry, in BAR0 at 0x1_8000 (R314). -/
  | writeMsixEntry (vec : BitVec 8) (addr : W64) (data : W32) (masked : Bool)
  /-- Address, or data and vector control. -/
  | readMsixEntry (vec : BitVec 8) (hi : Bool)
  | readPba (word : Fin 8)
  /-- Registers of an HDM decoder (R314, R317): 0 base, 1 size, 2 control, 3 DPA skip. -/
  | readHdm (dec : Fin 4) (which : Fin 4)
  /-- Identifier of a DVSEC that the port implements (R313). -/
  | readDvsec (i : Fin 4)
  /-- The CXL Device DVSEC: its capability bits and Range 1 (R313). -/
  | readCxlCap
  | readRange1
  /-- Memory Device Status (R316). -/
  | readMediaStatus
  /-- Function Level Reset (R310). -/
  | flr
deriving DecidableEq, Repr

/-- What sensing one fuse word at the two margins reads (R410): the value at each margin. -/
structure FuseSense where
  word : Nat
  low : W32
  high : W32
deriving DecidableEq, Repr

/-- What a checker self-test finds (R118, R120): the checks that fail and the first failing pattern. -/
structure TestRes where
  codeFail : Bool := false
  tagFail : Bool := false
  aesFail : Bool := false
  pattern : BitVec 8 := 0
deriving DecidableEq, Repr

/-- The self-test of one slice (R117). -/
structure ChanTest where
  ch : Fin 64
  test : TestRes
deriving DecidableEq, Repr

/-- What the start of a District finds for one channel (R61, R117, R401): its self-test, the dead connections of the
connection test, whether every layer locked in full training, and the monitors' counts at its end (R56). -/
structure ChanStart where
  ch : Fin 64
  test : TestRes
  dead : List Conn
  locked : Bool
  age : AgeCounts
deriving DecidableEq, Repr

/-- A reading of one temperature sensor in sixteenths of a degree, with its failure of range (R451). -/
structure SensorRead where
  sensor : Fin 162
  temp : Int
deriving DecidableEq, Repr

end Sys2Proof
end

