-- ==== Sys2Proof/Syntax.lean ====
section
/-! DEFINITION. The commands of the block: one constructor per row of the opcode table, in the
table's order. An operand is what the row's event brings from outside: command parameters, message
contents, register writes with the path and identity that made them, and what a sensor, connection or
lane shows. -/

namespace Sys2Proof

/-- The commands. Constructor names are the mnemonics in lower camel case; LAWS.json maps them back. -/
inductive Instr where
  -- Commands of the command interface (R347)
  | devIdentify (c : CmdCtx)
  | devStatus (c : CmdCtx) (select : BitVec 8)
  | ringSet (c : CmdCtx) (ring : BitVec 8) (log2 : BitVec 8) (hostPort : BitVec 8) (vector : BitVec 8)
      (owner : BitVec 32) (groups : BitVec 16)
  | mbxBind (c : CmdCtx) (channel : BitVec 8) (a : W32) (b : W32)
  | mbxLock (c : CmdCtx)
  | fwBegin (c : CmdCtx) (size : W32)
  | fwChunk (c : CmdCtx) (offset : W32) (len : BitVec 8) (data : BitVec 384)
  | fwCommit (c : CmdCtx)
  | fwVerifyEnd
  | keyLoadWrapped (c : CmdCtx) (slot : BitVec 16) (addr : W64)
  | keyErase (c : CmdCtx) (slot : BitVec 16)
  | keyQuery (c : CmdCtx) (slot : BitVec 16)
  | pageSet (c : CmdCtx) (page : W32) (entry : W32)
  | pageGet (c : CmdCtx) (page : W32)
  | pageRetire (c : CmdCtx) (page : W32)
  | pageReserve (c : CmdCtx) (page : W32)
  | pageRecordRead (c : CmdCtx)
  | accessGroupSet (c : CmdCtx) (group : BitVec 16) (index : BitVec 8) (pattern : W64)
  | accessGroupGet (c : CmdCtx) (group : BitVec 16) (index : BitVec 8)
  | integrityConfig (c : CmdCtx) (code : BitVec 8)
  | pageClearSticky (c : CmdCtx) (page : W32) (all : BitVec 8)
  | policyChangeComplete (id : Nat)
  | classSetGuarantee (c : CmdCtx) (channels : W64) (cls : BitVec 8) (flags : BitVec 8) (slots : BitVec 16)
  | classSetLimit (c : CmdCtx) (kerb : BitVec 16) (cls : BitVec 8) (rate : BitVec 16) (burst : BitVec 16)
  | classCountersSnapshot (c : CmdCtx) (page : W32)
  | queueCreate (c : CmdCtx) (queue : BitVec 16) (flags : BitVec 8) (log2 : BitVec 8) (vector : BitVec 8)
      (cls : BitVec 8) (owner : W32) (engines : W64) (descBase : W64) (cmplBase : W64)
      (doorbell : BitVec 16) (targetNode : BitVec 16) (targetQueue : BitVec 16)
  | queueDestroy (c : CmdCtx) (queue : BitVec 16)
  | queueDrained (queue : BitVec 15)
  | fabEnumerate (c : CmdCtx)
  | routeSet (c : CmdCtx) (node : BitVec 16) (first : BitVec 16) (count : BitVec 16) (src : W64)
  | nodeDetach (c : CmdCtx) (node : BitVec 16) (action : BitVec 8)
  | timeSync (c : CmdCtx) (flags : BitVec 8) (period : BitVec 16) (time : W64)
  | fwPush (c : CmdCtx) (node : BitVec 16) (image : W64) (size : W32)
  | fabSealInit (c : CmdCtx)
  | segmentSet (c : CmdCtx) (first : BitVec 16) (count : BitVec 16) (entry : W64) (stride : W64)
  | isetSet (c : CmdCtx) (set : BitVec 16) (members : BitVec 256)
  | fuseProgramWord (c : CmdCtx) (word : BitVec 16) (value : W32) (attempts : List (W32 × W32))
  | fuseLockRegion (c : CmdCtx) (region : BitVec 8) (attemptsA attemptsB : List (W32 × W32))
  | fuseReadShadow (c : CmdCtx) (word : BitVec 16)
  | faultRead (c : CmdCtx) (select : BitVec 8) (quad : BitVec 8)
  | faultClear (c : CmdCtx) (what : BitVec 8)
  | faultForce (c : CmdCtx) (source : BitVec 16)
  | reactionSet (c : CmdCtx) (first : BitVec 16) (count : BitVec 16) (reaction : BitVec 8) (restore : BitVec 8)
  | powerCapSet (c : CmdCtx) (cap : BitVec 16)
  | distPower (c : CmdCtx) (district : BitVec 8) (enable : BitVec 8)
  | portEnable (c : CmdCtx) (port : BitVec 8) (mode : BitVec 8) (rate : BitVec 8) (flags : BitVec 8)
  | engineEnable (c : CmdCtx) (engines : W64) (enable : BitVec 8)
  | tsvRepairStatus (c : CmdCtx) (channel : BitVec 8)
  | scrubConfig (c : CmdCtx) (channels : W64) (flags : BitVec 8) (rows : BitVec 8) (fix : BitVec 8) (celog : BitVec 16)
  | remapModeSet (c : CmdCtx) (channels : W64) (mode : BitVec 8) (ceLimit : BitVec 8) (action : BitVec 8)
      (sets : BitVec 8)
  | retrain (c : CmdCtx) (channel : BitVec 8) (kind : BitVec 8)
  | unassignedOpcode (c : CmdCtx) (opcode : BitVec 16)
  -- Rings, direct slot, queues and dispatch (13)
  | ringDoorbell (p : Path) (m : MasterId) (value : W64)
  | commandTake (ring : Fin 32)
  | directGo (p : Path) (m : MasterId)
  | wqDoorbell (p : Path) (m : MasterId) (value : W64)
  | descriptorConsume
  | forwardDispatch (queue : BitVec 15)
  | opDispatch (req : Req)
  | forwardCompletion (queue : BitVec 15) (status : CStatus)
  -- Operator engines (06)
  | engineJobStart (e : Fin 64)
  | bloomFilterLoad (e : Fin 64)
  | tileStart (e : Fin 64)
  | tileRowsArrive (e : Fin 64)
  | tileEvaluate (e : Fin 64)
  | bucketReadReturn (e : Fin 64)
  | gatherListRead (e : Fin 64)
  | copyPage (e : Fin 64)
  | enginePartEnd (e : Fin 64)
  | jobCompletionWrite (job : Nat)
  | msixPendingRelease (h : Fin 8) (vector : BitVec 8)
  -- Requests, Kerbs and slices (03-05, 08, 09)
  | masterRequestIssue (req : Req)
  | kerbEntry (k : Fin 140) (req : Req)
  | kerbForward (k : Fin 140)
  | kerbRefill
  | lineRead (req : Req)
  | lineWrite (req : Req)
  | partialWrite (req : Req)
  | rowRead (req : Req)
  | rowWrite (req : Req)
  | writeQueueAdmit (ch : Fin 64)
  | fence (master : MasterId) (port : Fin 140) (node : BitVec 12)
  | fenceComplete (port : Fin 140)
  | completionReturn (port : Fin 140)
  | slotSchedule
  | rowCommandIssue (ch : Fin 64) (flips : BitVec 160)
  | rowDataArrival (ch : Fin 64) (wrong : BitVec 10240) (parity : BitVec 20) (mid : BitVec 14)
  | wmDataStrobe (ch : Fin 64) (wrong : BitVec 10240) (parity : BitVec 20)
  | revolutionBoundary
  | rbtCommit (p : Path) (m : MasterId) (ch : Fin 64)
  | refreshDue (ch : Fin 64)
  | maintenanceSlot (ch : Fin 64)
  | stsResult (ch : Fin 64) (mid : BitVec 14) (parity : BitVec 20)
  | caCheck (ch : Fin 64) (dead : List (Fin 40))
  | walkStepDue (ch : Fin 64)
  | walkStep (ch : Fin 64) (misses : List Conn) (mid : BitVec 14)
  | driftCheck (ch : Fin 64) (counts : AgeCounts)
  | strobeLimitReached (ch : Fin 64)
  | retrainHoldStart (ch : Fin 64)
  | retrainHoldEnd (ch : Fin 64) (failed : Bool) (found : List Conn) (age : AgeCounts)
  | tsvParityInject (p : Path) (m : MasterId) (ch : Fin 64)
  | tsvWalkSweep (p : Path) (m : MasterId) (ch : Fin 64)
  | tsvRetrainInc (p : Path) (m : MasterId) (ch : Fin 64)
  | caUncorrInject (p : Path) (m : MasterId) (ch : Fin 64)
  | caCorrInject (p : Path) (m : MasterId) (ch : Fin 64)
  | eccInject (p : Path) (m : MasterId) (ch : Fin 64) (value : W32)
  | ctrTagInject (p : Path) (m : MasterId) (ch : Fin 64)
  | dataTagInject (p : Path) (m : MasterId) (ch : Fin 64)
  | tileFormatInject (p : Path) (m : MasterId) (e : Fin 64)
  | addrMapLock (p : Path) (m : MasterId) (order : BitVec 2)
  | initialFillStart (p : Path) (m : MasterId) (ch : Fin 64)
  | initialFillEnd (ch : Fin 64)
  | scrubReadDue (ch : Fin 64)
  | scrubRowResult (ch : Fin 64) (wrong : BitVec 10240) (parity : BitVec 20) (mid : BitVec 14)
  | scrubberStopped
  | counterWalkFetch
  | counterWriteBack
  | retirementReason
  | pageMigrate (page : Nat)
  | retirementRestart
  | consCheckStart (p : Path) (m : MasterId)
  | consCheckEnd
  -- Scezo link layer and fabric (11)
  | flitReceive (l : SubLink) (flit : BitVec 2048)
  | ackTimeout (l : SubLink)
  | initFlit (l : SubLink) (flit : BitVec 2048)
  | auditSend (l : SubLink)
  | audit (l : SubLink) (msg : Msg)
  | rsyncDone (l : SubLink)
  | auditNow (p : Path) (m : MasterId) (l : SubLink)
  | creditSkew (p : Path) (m : MasterId) (l : SubLink)
  | crcInject (p : Path) (m : MasterId) (l : SubLink)
  | messageForward (l : SubLink) (msg : Msg)
  | completionRetrace (l : SubLink) (msg : Msg)
  | sublinkDown (l : SubLink) (orderly : Bool)
  | mgmtRd (l : SubLink) (msg : Msg)
  | mgmtWr (l : SubLink) (msg : Msg)
  | mbxMsg (l : SubLink) (msg : Msg)
  | remoteCmd (l : SubLink) (msg : Msg)
  | remoteReply (l : SubLink) (msg : Msg)
  | routeWrite (l : SubLink) (msg : Msg)
  | fabKey (l : SubLink) (msg : Msg)
  | enumProbe (l : SubLink) (msg : Msg)
  | enumReply (l : SubLink) (msg : Msg)
  | nodeAssign (l : SubLink) (msg : Msg)
  | tsyncPeriod
  | tsyncReq (l : SubLink) (msg : Msg)
  | tsyncRsp (l : SubLink) (msg : Msg)
  | detach (l : SubLink) (msg : Msg)
  | detachDrainEnd
  -- Serial lanes (10)
  | alignmentMarker (l : SubLink) (lane : Fin 8) (marker : BitVec 128)
  | los (port : Fin 64) (lane : Fin 8) (asserted : Bool)
  | lol (port : Fin 64) (lane : Fin 8) (asserted : Bool)
  | losAllLanesTimeout (l : SubLink)
  | recoveryEnter (l : SubLink) (full : Bool)
  | recoveryAttemptEnd (l : SubLink) (result : TrainRes) (degradeBoth : Bool)
  | detectTimer (l : SubLink) (found : Bool)
  | trainingStageEnd (l : SubLink) (result : TrainRes)
  | trainingTimeout (l : SubLink)
  | portStartingEnd (port : Fin 64)
  | portStoppingEnd (port : Fin 64)
  | portForceRetrain (p : Path) (m : MasterId) (port : Fin 64)
  | losInject (p : Path) (m : MasterId) (port : Fin 64) (lane : Fin 8)
  | lolInject (p : Path) (m : MasterId) (port : Fin 64) (lane : Fin 8)
  | marginStart (p : Path) (m : MasterId) (port : Fin 64) (lane : Fin 8) (value : W32)
  | marginEnd (port : Fin 64) (lane : Fin 8) (errors : BitVec 30) (aborted : Bool)
  | boundaryScanLoad (scan : TapScan)
  -- CXL host ports (12)
  | memRd (h : Fin 8) (hpa : BitVec 52) (tag : BitVec 16)
  | memWr (h : Fin 8) (hpa : BitVec 52) (tag : BitVec 16) (data : BitVec 512) (poison : Bool)
  | memWrPtl (h : Fin 8) (hpa : BitVec 52) (tag : BitVec 16) (data : BitVec 512) (mask : BitVec 64) (poison : Bool)
  | memSpecRd (h : Fin 8) (hpa : BitVec 52)
  | memInv (h : Fin 8) (hpa : BitVec 52) (tag : BitVec 16)
  | memRdFwd (h : Fin 8) (hpa : BitVec 52)
  | cxlCompletionMap (h : Fin 8)
  | hdmDecoderCommit (h : Fin 8) (dec : Fin 4) (base size : W64) (ways gran : BitVec 16) (skip : W64) (lockOnCommit : Bool)
  | configRequest (h : Fin 8) (op : ConfigOp)
  | bar2Access (h : Fin 8) (write : Bool) (off : BitVec 24) (value : W64) (bytes : Nat)
  | identifyMemoryDevice (h : Fin 8)
  | getSupportedLogs (h : Fin 8)
  | getLog (h : Fin 8) (offset length : Nat)
  | getEventRecords (h : Fin 8)
  | clearEventRecords (h : Fin 8)
  | getEventInterruptPolicy (h : Fin 8)
  | setEventInterruptPolicy (h : Fin 8) (policy : W32)
  | unsupportedMailboxCmd (h : Fin 8) (opcode : BitVec 16)
  | perstAssert (h : Fin 8)
  | perstDeassert (h : Fin 8)
  | hotReset (h : Fin 8)
  | linkDisable (h : Fin 8)
  | hostLinkLoss (h : Fin 8)
  | hostPortLeaveOn (h : Fin 8)
  -- Mailboxes (14)
  | a2bMsgWrite (p : Path) (m : MasterId) (ch : Fin 64) (sideA : Bool) (value : W32)
  | a2bMsgRead (p : Path) (m : MasterId) (ch : Fin 64) (sideA : Bool)
  | doorbellSet (p : Path) (m : MasterId) (ch : Fin 64) (sideA : Bool) (value : W32)
  | doorbellClear (p : Path) (m : MasterId) (ch : Fin 64) (sideA : Bool) (value : W32)
  | mbxBindDirectWrite (p : Path) (m : MasterId) (ch : Fin 64) (sideA : Bool) (value : W32)
  | mbxLockWrite (p : Path) (m : MasterId)
  -- Resets and bring-up (15, 16)
  | devRstAssert
  | devRstDeassert
  | warmRstAssert
  | railUndervoltage (rail : Fin 7)
  | railsGood
  | refclkLoss (input : Bool)
  | refclkRestored
  | warmResetBegin
  | throughTrafficDrained
  | warmDrainEnd
  | strapSample (s1 s2 s3 : BitVec 6)
  | fuseSensing (reads : List FuseSense)
  | checkerSelftest (results : List ChanTest)
  | bootRomReady
  | firmwareStartup
  | stackReady
  | bootWindowWrite (p : Path) (m : MasterId) (offset : BitVec 22) (data : List Byte)
  | winWrite (offset : BitVec 32) (data : List Byte) (scl : Nat)
  | winRead (offset : BitVec 32) (count : Nat) (scl : Nat)
  | mgmtWrite (offset : BitVec 24) (value : W32) (scl : Nat)
  | mgmtRead (offset : BitVec 24) (scl : Nat)
  | i3cAddressAssign (addr : BitVec 7) (scl : Nat)
  | i3cRefused (op : Byte) (scl : Nat)
  | districtStartingEnd (d : Fin 8) (results : List ChanStart)
  | districtJobsEnded (d : Fin 8)
  | districtOff (d : Fin 8)
  | functionDeferredStart
  | engineStartingEnd (e : Fin 64)
  | engineStoppingEnd (e : Fin 64)
  | scrubberStartingEnd
  -- Faults (17)
  | faultReport (source : BitVec 12)
  | reportWire (source : BitVec 12)
  | faultNRelease
  | faultHoldClear (p : Path) (m : MasterId)
  | srcForce (p : Path) (m : MasterId) (source : BitVec 12)
  | collectorTimeReload
  | coreFail (core : Fin 4)
  | shadowParityCheck (bad : List Nat)
  -- Thermal (18)
  | sensorSample (readings : List SensorRead)
  | tripCooled
  | governorInterval (power : BitVec 16)
  -- Register map (19) and the rest
  | clearingRead (p : Path) (m : MasterId) (off : BitVec 24)
  | registerWrite (p : Path) (m : MasterId) (off : BitVec 24) (value : W32)
  | warmRstDeassert
  | hotResetEnd (h : Fin 8)
  | mgmtCmp (l : SubLink) (msg : Msg)
  | drainTimeLimit
  | alertNRelease
  | loReadLatch (p : Path) (m : MasterId) (off : BitVec 24)
deriving DecidableEq, Repr

end Sys2Proof
end

