-- ==== Sys2Proof/Machine/Crc.lean ====
section
/-! DEFINITION. The cyclic redundancy codes of the flits (R276), the alignment markers (R259) and the fuse
regions and image header where those use CRC-32. -/

namespace Sys2Proof.Machine

/-- One byte into a CRC register of width `w`, most significant bit first. -/
def crcByte (w : Nat) (poly : BitVec w) (r : BitVec w) (b : Byte) : BitVec w :=
  (List.range 8).foldl (fun r i =>
    let fb := r.getMsbD 0 ^^ b.getMsbD i
    if fb then (r <<< 1) ^^^ poly else r <<< 1) r

/-- CRC-64 of ECMA-182, initial value and final XOR all ones (R276). -/
def crc64 (bs : List Byte) : W64 := ~~~(bs.foldl (crcByte 64 0x42F0E1EBA9EA3693#64) (BitVec.allOnes 64))

/-- CRC-16 with polynomial 0x1021 and initial value 0xFFFF (R259). -/
def crc16 (bs : List Byte) : BitVec 16 := bs.foldl (crcByte 16 0x1021#16) 0xFFFF#16

/-- One byte into the reflected CRC-32 register. -/
def crc32Byte (r : W32) (b : Byte) : W32 :=
  (List.range 8).foldl (fun r _ => if r.getLsbD 0 then (r >>> 1) ^^^ 0xEDB88320#32 else r >>> 1) (r ^^^ b.setWidth 32)

/-- CRC-32 of polynomial 0x04C1_1DB7 in reflected form, initial value and final XOR all ones (R419). -/
def crc32 (bs : List Byte) : W32 := ~~~(bs.foldl crc32Byte (BitVec.allOnes 32))

end Sys2Proof.Machine
end

