-- ==== Sys2Proof/Config.lean ====
section
/-! DEFINITION. What one part fixes and the spec does not give, and the free values: constants without a
body, so that no proof can use a value of them. -/

namespace Sys2Proof.Config

/-- FREE VALUE. A fresh value each time, applied to the counter `State.free`: a value that the spec leaves
open after a command that goes on. Log entry 3. -/
opaque freeValue : Nat → W64

/-- FREE VALUE. Random bits that the key store draws (tree key, agreement key, fabric keys: R135, R151,
R302), applied to the counter `State.free`. Log entry 4. -/
opaque random384 : Nat → BitVec 384

/-- The word of the fuse array as the part was shipped (R408, R409): factory contents of one part. The
spec gives the layout, not the values. Log entry 5. -/
opaque factoryWord : Nat → W32

/-- FREE VALUE. Sign and payload of the NaN that an operation on two operands gives, which the spec leaves
open (R180, R195, R199). Log entry 3. -/
opaque nanBits : W64 → W64 → W64

/-- The die lot that each layer's identification register reports (R59), by 16 times the tower plus the layer. Log entry 98. -/
opaque dieLot : Nat → W32

/-- The 8 check bits of a beat of a command word. The spec names a (40,32) code that corrects one bit of a beat and detects two, and
does not give its matrix (R83). Log entry 80. -/
opaque caCheck : W32 → BitVec 8

end Sys2Proof.Config
end

