-- ==== Sys2Proof/Machine/SMap.lean ====
section
/-! DEFINITION. Sparse tables: a list of (key, value) pairs with keys strictly rising, so that
equal tables are equal lists. Used for the large tables of the part that are mostly at their reset
content (page attribute table, route table, segment map, device DRAM, ...). -/

namespace Sys2Proof.Machine

/-- A sparse table: keys strictly rising. -/
abbrev SMap (α : Type) := List (Nat × α)

/-- The value listed at key `k`, if any. -/
def smGet? {α : Type} : SMap α → Nat → Option α
  | [], _ => none
  | (j, v) :: m, k => if j = k then some v else if k < j then none else smGet? m k

/-- The value at key `k`, `d` where nothing is listed. -/
def smGetD {α : Type} (m : SMap α) (k : Nat) (d : α) : α := (smGet? m k).getD d

/-- List `v` at key `k`. -/
def smPut {α : Type} : SMap α → Nat → α → SMap α
  | [], k, v => [(k, v)]
  | (j, w) :: m, k, v =>
    if k < j then (k, v) :: (j, w) :: m
    else if j = k then (k, v) :: m
    else (j, w) :: smPut m k v

/-- Remove key `k`. -/
def smDel {α : Type} : SMap α → Nat → SMap α
  | [], _ => []
  | (j, w) :: m, k => if j = k then m else if k < j then (j, w) :: m else (j, w) :: smDel m k

/-- Every key of the table is above `b`, and the keys strictly rise. -/
def smAbove {α : Type} (b : Nat) : SMap α → Bool
  | [] => true
  | (j, _) :: m => decide (b < j) && smAbove j m

/-- The canonical form: the keys strictly rise. -/
def smWf {α : Type} : SMap α → Bool
  | [] => true
  | (j, _) :: m => smAbove j m

/-- Replace element `i` of a vector. -/
def vput {α : Type} {n : Nat} (v : Vector α n) (i : Fin n) (x : α) : Vector α n := v.set i.val x i.isLt

/-- Apply `f` to element `i` of a vector. -/
def vmod {α : Type} {n : Nat} (v : Vector α n) (i : Fin n) (f : α → α) : Vector α n := vput v i (f v[i])

/-- All indices of a vector of length `n`, ascending. -/
def fins (n : Nat) : List (Fin n) := List.finRange n

/-- Index `i` of a list, `d` beyond the end. -/
def nth {α : Type} (l : List α) (i : Nat) (d : α) : α := (l[i]?).getD d

/-- The number of elements of a list that satisfy `p`. -/
def countIf {α : Type} (l : List α) (p : α → Bool) : Nat := (l.filter p).length

end Sys2Proof.Machine
end

