-- ==== Sys2Proof/Machine/StBus.lean ====
section
/-! DEFINITION. The state of the Kerbs (08_bandwidth_regulation), of the master ports and the on-die
interconnect (09_ordering_conservation). Kerbs and master ports are numbered j = 0-139 as in R229:
0-7 H0-H7, 8-71 P00-P63, 72-135 E00-E63, 136-139 CC0-CC3. -/

namespace Sys2Proof.Machine

/-- A hop of the die (R232): a District switch or the Plaza. -/
inductive Spot where
  | sw (k : Fin 8)
  | plaza
deriving DecidableEq, Repr

/-- The number of a hop: 0-7 the District switches, 8 the Plaza. -/
def Spot.ix : Spot → Fin 9
  | .sw k => ⟨k.val, by omega⟩
  | .plaza => 8

/-- The hops from one hop to another: two Districts meet in the Plaza (R232). -/
def spotPath (a b : Spot) : List Spot :=
  if a = b then [a] else match a, b with
    | .sw _, .sw _ => [a, .plaza, b]
    | _, _ => [a, b]

/-- An item on a plane (R232): the hop whose buffer entries it holds, if any, and the hops still before it. -/
structure Car (α : Type) where
  load : α
  spot : Option Spot := none
  todo : List Spot := []
deriving DecidableEq, Repr

/-- A request on the REQ plane and the master port at which it entered (R235). -/
structure PReq where
  req : Req
  ingress : Fin 140
deriving DecidableEq, Repr

/-- Entries of a hop's buffers: in the District switches, and in the Plaza (R232). -/
def hopEntries (d p : Nat) : Vector Nat 9 := Vector.ofFn (fun i : Fin 9 => if i.val < 8 then d else p)

/-- The on-die credits of each plane, by hop: entries of the hop that the hops before it may still fill (R233). -/
structure Credits where
  req : Vector Nat 9 := hopEntries 512 1024
  cmp : Vector Nat 9 := hopEntries 512 1024
  mgt : Vector Nat 9 := hopEntries 64 128
deriving DecidableEq, Repr

/-- A request in a Kerb queue, with the strobe it entered (R223), its number in the Kerb's order of entry,
and, for a request on its way to another node, its message as it arrived (R293). -/
structure KReq where
  req : Req
  since : Nat
  num : Nat := 0
  msg : Option Msg := none
deriving DecidableEq, Repr

/-- One class at a Kerb: queue, bucket and counters (R221-R225). The level is a two's complement number. -/
structure KClass where
  queue : List KReq := []
  level : Int := 0
  rate : BitVec 16 := 0
  burst : BitVec 16 := 0
  /-- Carried sixteenths of a token (R223). -/
  frac : Nat := 0
  /-- New RATE and BURST, applied at the next refill strobe (R226). -/
  next : Option (BitVec 16 × BitVec 16) := none
  maxHeld : W32 := 0
  spill : W32 := 0
  held : W64 := 0
  /-- Last admitted limit (RATE, BURST), restored after a District power cycle (R228). -/
  admitted : BitVec 16 × BitVec 16 := (0, 0)
deriving DecidableEq, Repr

/-- A Kerb: 16 classes, requests entered so far, round-robin pointer, limits lifted (R224, R227). -/
structure Kerb where
  cls : Vector KClass 16 := Vector.replicate 16 {}
  count : Nat := 0
  rr : Nat := 15
  lifted : Bool := false
deriving DecidableEq, Repr

/-- An issued request that has not completed (R239, R242), whether it occupies an outstanding-line
entry (a request to another node), and whether it has entered its Kerb. -/
structure Outst where
  req : Req
  table : Bool
  entered : Bool := false
deriving DecidableEq, Repr

/-- A fence that waits at its port (R242): master, target node, requests it covers and error flag; and, for
a FENCE message (R244), its header and sub-link. -/
structure FenceSt where
  master : MasterId
  node : BitVec 12
  covers : List (MasterId × BitVec 16)
  err : Bool := false
  msg : Option (SubLink × BitVec 128) := none
deriving DecidableEq, Repr

/-- A master port: requests waiting under R239, outstanding requests (each with its completion
reservation, R234), fences, completions delivered and not yet consumed by the agent. -/
structure MPort where
  waiting : List Req := []
  outst : List Outst := []
  fences : List FenceSt := []
  /-- Completions on their way back to the port, in order (R235). -/
  inflight : List (Car Completion) := []
  delivered : List Completion := []
deriving DecidableEq, Repr

/-- A District: its function, generation, switch counters, cause of the STOPPING that runs, and the
requests of R19 step 3 that still run (R19, R253). -/
structure District where
  fn : Fn := {}
  gen : BitVec 16 := 0
  swFwd : W32 := 0
  swUpStall : W32 := 0
  /-- Requests that had entered the District when STOPPING began (R19 step 3), by master and tag. -/
  accepted : List (MasterId × BitVec 16) := []
  /-- Step 4 of R19 has been reached: jobs and requests have ended and the channels drain. -/
  drained : Bool := false
deriving DecidableEq, Repr

/-- The conservation check of R250. -/
structure ConsCheck where
  running : Bool := false
  done : Bool := false
  pass : Bool := false
  aborted : Bool := false
  fail : BitVec 12 := 0
deriving DecidableEq, Repr

/-- Global registers (R91, R252, R466): mapping order, epochs, conservation check, plaza counters, grant
table and denial record. -/
structure Glb where
  variant : Variant := .kv9216
  mapLock : Bool := false
  mapOrder : BitVec 2 := 0
  nodeEpoch : W32 := 0
  lateCmp : W32 := 0
  synthCmp : W32 := 0
  cons : ConsCheck := {}
  plzFwd : W32 := 0
  grants : Vector W64 16 := Vector.replicate 16 0
  denied : W32 := 0
  lastDenied : W32 := 0
deriving DecidableEq, Repr

/-- The latches of one path (R475, R448): HI half of the last LO read, LO of the last LO write, and the
fault record last latched. Offsets are window offsets of the LO register or of word 0. -/
structure PathLatch where
  rd : Option (Nat × W32) := none
  wr : Option (Nat × W32) := none
  frec : Option (Nat × BitVec 256) := none
deriving DecidableEq, Repr

end Sys2Proof.Machine
end

