-- ==== Sys2Proof/Machine/StChannel.lean ====
section
/-! DEFINITION. The state of one channel slice: bundle and repair (02_row_path), channel controller
(03_channel_control), ECC unit (04_stored_data_protection), crypto lane registers
(05_encryption_integrity) and Roundabout (08_bandwidth_regulation). Default field values are the
reset values. -/

namespace Sys2Proof.Machine

/-- A stored line of R92: 80 bytes, byte i in bits [8i+7:8i]. Bytes 0-63 data, 64-70 tag, 71 state
byte, 72-79 check bytes. -/
abbrev SLine := BitVec 640

/-- The decode outcome of R95: CLEAN, CORRECTED with t errors and e erasures, or UNCORRECTABLE. -/
inductive DecodeOut where
  | clean
  | corrected (t e : Nat)
  | uncorrectable
deriving DecidableEq, Repr

/-- A spare of the bundle as TSV_MAP_DATA shows it (R62). -/
structure Spare where
  used : Bool := false
  inService : Bool := false
  failed : Bool := false
  pos : Nat := 0
deriving DecidableEq, Repr

/-- A retrain hold in progress (R57): its kind, the strobe it began, and the command-and-address spare
that a full retrain steers in at its end (R52). -/
structure Hold where
  kind : RetrainKind
  start : Nat
  recovery : Bool := false
deriving DecidableEq, Repr

/-- The walking step in progress (R50, R51): its layer and pattern, whether it belongs to a targeted sweep, the runs that have
ended, the slots chosen for the write of its pattern and for the read-back, and the connections that mismatched, with their runs. -/
structure WalkRun where
  layer : Nat
  pattern : Nat
  targeted : Bool
  run : Nat := 0
  tlw : Option Nat := none
  tlr : Option Nat := none
  misses : List WalkMiss := []
deriving DecidableEq, Repr

/-- The row path of a channel (R35-R62). Spares are keyed as TSV_MAP_INDEX numbers them: 0-159 DS,
160-161 CAS, 162-163 LPS, 164 FCK1. -/
structure Tsv where
  spares : SMap Spare := []
  /-- Erasure table: line position to erased symbols, first erased first (R54). -/
  erase : SMap (List Nat) := []
  /-- Data connections declared dead and repaired by no spare (R52, R55). -/
  dead : List Nat := []
  /-- Parity groups whose checking has stopped (R52). -/
  parityLost : List Nat := []
  offline : Bool := false
  /-- APPLY_REPAIR has run since the bundle's registers took their reset values (R46, R62). -/
  repaired : Bool := false
  /-- The forwarded clock runs, and every layer's divider is aligned to it (R40). -/
  clk : Bool := false
  aligned : Bool := false
  ctl : W32 := 0xF0031000#32
  parityCount : W32 := 0
  parityLast : W32 := 0
  ageBase : W32 := 0
  ageNow : W32 := 0
  sinceTrain : Nat := 0
  holdCount : W32 := 0
  mapIndex : BitVec 8 := 0
  eraseIndex : BitVec 4 := 0
  deadLast : W32 := 0
  sweeps : BitVec 16 := 0
  transients : BitVec 16 := 0
  lostWrites : W32 := 0
  /-- PARITY_INJECT is armed (R62). -/
  injParity : Bool := false
  /-- Background sweep: next step, revolutions since the last step, step due (R50). -/
  sweepPos : Nat := 0
  walkRevs : Nat := 0
  walkDue : Bool := false
  /-- The sweep in progress was asked for by WALK_SWEEP, so it runs to its end whatever WALK_EN says (R62, log entry 79). -/
  sweepForced : Bool := false
  /-- The walking step in progress (R50, R51). -/
  walk : Option WalkRun := none
  /-- Layers with a targeted sweep pending, and the next of its 16 patterns (R49, R50). -/
  targeted : List (Nat × Nat) := []
  /-- A due retrain that waits for its hold (R56), and the hold in progress. -/
  retrainDue : Option RetrainKind := none
  hold : Option Hold := none
  /-- Strobe of the latest drift-triggered retrain (R56). -/
  lastDrift : Option Nat := none
  /-- CA connections declared dead whose spare is steered in at the end of the due full retrain (R52):
  spare number 0-1 and position. -/
  caPending : List (Nat × Nat) := []
  /-- Connections declared dead while an incremental retrain held the channel (R55). -/
  deferred : List Conn := []
deriving DecidableEq, Repr

/-- CTL_STATUS.STATE of R91. -/
inductive ChState where
  | off | selfRefresh | training | run | hold | draining | offline
deriving DecidableEq, Repr

/-- The code of a channel state (R91). -/
def ChState.code : ChState → Nat
  | .off => 0 | .selfRefresh => 1 | .training => 2 | .run => 3 | .hold => 4 | .draining => 5 | .offline => 6

/-- A line of the write queue (R72): its line number in the channel, stored form, class, and whether it is a
scrubber or recovery rewrite (R104). -/
structure WqLine where
  key : Nat
  line : SLine
  cls : BitVec 4
  rewrite : Bool := false
deriving DecidableEq, Repr

/-- A write that waits for a full write queue (R72). -/
structure WqWait where
  wline : WqLine
  req : Option Req
  /-- The status with which the request completes once this line has entered the queue. -/
  st : CStatus := .ok
deriving DecidableEq, Repr

/-- A row of the row cache: row number in the channel, 16 lines after decoding with their outcomes (R69),
and whether an engine holds it (R70). -/
structure RcRow where
  row : Nat
  lines : List (SLine × DecodeOut)
  held : Bool := false
  /-- Requests that hold the row while they wait for a counter walk (R70, R141). -/
  pins : Nat := 0
  /-- Lines whose tag failure has been logged since the row entered the cache (R146). -/
  tagLogged : List Nat := []
deriving DecidableEq, Repr

/-- An entry of the request queue (R68): a request that waits for its row, the page entry it looked up
(R25), the revolution it entered in, and whether its RA has been scheduled. -/
structure RqEntry where
  req : Req
  row : Nat
  entry : W32
  since : Nat
  sched : Bool := false
deriving DecidableEq, Repr

/-- Commands of R84 that the controller and the sequencer issue. -/
inductive RowCmd where
  | nop
  | ra (row : Nat) (scrub : Bool)
  | wm (row : Nat) (mask : BitVec 16)
  | ref (bank : Nat) (group : Nat)
  | sts (layer : Nat)
  | tlw (layer : Nat) (pattern : Nat)
  | tlr (layer : Nat)
  | sre (layer : Nat)
  | srx (layer : Nat)
  | aln
  | mrw (layer : Nat) (register : BitVec 16) (value : W32)
deriving DecidableEq, Repr

/-- A command chosen for a slot, with the slot's strobe (R42, R75), the 16 lines a WM drives, and the symbols that an armed
injection corrupts in the row of an RA (R120). -/
structure SlotCmd where
  slot : Nat
  cmd : RowCmd
  lines : List SLine := []
  inj : Nat := 0
deriving DecidableEq, Repr

/-- What was decided for a slot, until its strobe passes and the counters of R214 take it: class charged with a
transfer, grant lost (R77), quieted (R219), user bytes moved. -/
structure SlotOut where
  slot : Nat
  cls : Option Nat := none
  denied : Bool := false
  quiet : Bool := false
  bytes : Nat := 0
deriving DecidableEq, Repr

/-- An entry of the write log of R87: a WM's row, mask and slot, not yet found clean by an STS issued after it. -/
structure WLog where
  row : Nat
  mask : BitVec 16
  slot : Nat
deriving DecidableEq, Repr

/-- What a layer of the channel latches until an STS reads it (R84, R85). -/
structure LayerSt where
  corrected : BitVec 16 := 0
  lastConn : BitVec 8 := 0
  wparity : BitVec 20 := 0
  lockout : Bool := false
  selfRefresh : Bool := false
  testLatch : Nat := 0
  /-- Mode registers that MRW writes (R84); an unlisted register reads 0. -/
  mode : SMap W32 := []
deriving DecidableEq, Repr

/-- The channel controller (R63-R91). -/
structure Ctl where
  state : ChState := .off
  cfg : W32 := 0x604008C0#32
  nextBank : Nat := 0
  nextGroup : Nat := 0
  /-- REFs that have fallen due and are not issued, with their due strobes (R79, R81). -/
  refDue : List Nat := []
  lastRefDue : Option Nat := none
  program : Nat := 0
  lastLayer : BitVec 4 := 0
  stsCount : BitVec 16 := 0
  denyGuar : BitVec 16 := 0
  denyOther : BitVec 16 := 0
  rcHits : W32 := 0
  rcMisses : W32 := 0
  wqFwd : W32 := 0
  wqCoalesce : W32 := 0
  caLastConn : BitVec 6 := 0
  caLastLayer : BitVec 4 := 0
  lockouts : BitVec 8 := 0
  caCount : W32 := 0
  epoch : BitVec 16 := 0
  lostLines : W32 := 0
  injUncorr : Bool := false
  injCorr : Bool := false
  /-- Request queue, row cache (most recently used first), write queue (oldest first), writes waiting for
  a full write queue, requests waiting for a hold, fill or same-line order (R58, R68, R73). -/
  rq : List RqEntry := []
  rc : List RcRow := []
  wq : List WqLine := []
  wqWait : List WqWait := []
  waiting : List Req := []
  log : List WLog := []
  /-- Commands chosen and not yet issued, and row transfers issued whose data strobe is to come. -/
  chosen : List SlotCmd := []
  issued : List SlotCmd := []
  outs : List SlotOut := []
  /-- The latest maintenance slot whose work has been chosen (R82). -/
  lastMaint : Nat := 0
  /-- Earliest command strobe of the next activation of each bank (row cycle and REF busy, R78). -/
  bankFree : SMap Nat := []
  layers : SMap LayerSt := []
  /-- Next layer of the STS rotation (R82), CA connection of the previous STS that reported one (R87),
  CA_CHECK due in a free maintenance slot, command-word recovery in progress. -/
  stsNext : Nat := 0
  lastStsConn : Option Nat := none
  caCheckDue : Bool := false
  recovery : Bool := false
  /-- The recovery's steps (R87): STS commands chosen and answered, its ALN issued, its CA_CHECK done. -/
  recSts : Nat := 0
  recGot : Nat := 0
  recAln : Bool := false
  recChecked : Bool := false
  /-- A free maintenance slot has been given to CA_CHECK (R87). -/
  caCheckRun : Bool := false
  /-- Layers that the recovery's STS found locked out (R87). -/
  locked : List Nat := []
  /-- Earliest strobe of the next command (tALN), of the next RA or WM (tXS), and of the next SRX (tSR), R78. -/
  cmdFrom : Nat := 0
  rowFrom : Nat := 0
  srxFrom : Nat := 0
  /-- The maintenance slot decided last carried an STS (R82, log entry 17). -/
  polled : Bool := false
  /-- Initial fill in progress (R101). -/
  fill : Bool := false
deriving DecidableEq, Repr

/-- A remap entry (R107): row and line numbers in the channel, origin, stored line; `none` while its
content awaits the queued write (R109). -/
structure Remap where
  row : Nat
  line : Nat
  origin : Bool
  content : Option SLine
deriving DecidableEq, Repr

/-- A scrub read in progress: its row, whether targeted, and the lines written since its RA (R104). -/
structure ScrubRa where
  row : Nat
  targeted : Bool
  written : List Nat := []
  /-- The line whose ECC_UE asked for the read (R98). -/
  asked : Option Nat := none
deriving DecidableEq, Repr

/-- The ECC unit of a slice (R92-R120). -/
structure Ecc where
  initDone : Bool := false
  remapFull : Bool := false
  cfg : W32 := 0x011003E8#32
  pos : Nat := 0
  passes : W32 := 0
  ceCount : W32 := 0
  eraseCount : W32 := 0
  ueCount : W32 := 0
  lastCe : W32 := 0
  lastUe : W32 := 0
  fixPoisoned : BitVec 16 := 0
  fixFixed : BitVec 16 := 0
  remapCfg : W32 := 0x58000000#32
  remapIndex : BitVec 5 := 0
  remap : SMap Remap := []
  selftest : W32 := 0
  /-- Armed injections of R120: symbols to corrupt in the next request RA and the next scrub RA. -/
  injReq : Nat := 0
  injScrub : Nat := 0
  /-- Targeted scrubs held or due, oldest first: the numbers of the lines whose ECC_UE asked for them, at most 16 (R98). -/
  targeted : List Nat := []
  /-- Revolutions since the latest ECC_CE report (R97). -/
  ceRevs : Option Nat := none
  /-- Scrub reads due and not issued (R102), the first revolution in which more fall due, and reads in progress. -/
  due : Nat := 0
  dueRev : Nat := 0
  reads : List ScrubRa := []
  /-- Rows of scrub reads that met an undriven strobe or that a recovery took back: they are read again first (R87). -/
  again : List ScrubRa := []
deriving DecidableEq, Repr

/-- The crypto lane registers of a slice (R154). -/
structure Cry where
  cfg : W32 := 0x80000000#32
  tagFail : W32 := 0
  lastFail : W32 := 0
  deniedAccess : BitVec 16 := 0
  deniedSticky : BitVec 16 := 0
  walkCount : W32 := 0
  sealedCount : W32 := 0
  injCtr : Bool := false
  injData : Bool := false
deriving DecidableEq, Repr

/-- The reset slot table of R210: 0x10 at positions ≡ 0 mod 16, 0x00 elsewhere. -/
def resetTable : Vector Byte 256 := Vector.ofFn (fun p : Fin 256 => if p.val % 16 = 0 then 0x10#8 else 0#8)

/-- The Roundabout of a slice (R209-R230). -/
structure Rbt where
  active : Vector Byte 256 := resetTable
  pend : Vector Byte 256 := resetTable
  commit : Bool := false
  borrow : BitVec 16 := 0xFFFF#16
  borrowOff : Bool := false
  beQuiet : BitVec 4 := 0
  guarQuiet : BitVec 4 := 0
  breach : BitVec 16 := 0
  hot : Bool := false
  lastBorrow : Nat := 15
  /-- Counting has started (R214): the first revolution boundary after reset with the District ON. -/
  counting : Bool := false
  revs : W64 := 0
  maint : W64 := 0
  norun : W64 := 0
  quiet : W64 := 0
  used : Vector W64 16 := Vector.replicate 16 0
  idle : Vector W64 16 := Vector.replicate 16 0
  borrowed : Vector W64 16 := Vector.replicate 16 0
  bytes : Vector W64 16 := Vector.replicate 16 0
deriving DecidableEq, Repr

/-- Admitted guarantees of a channel, and the RBT_BORROW of the last admitted command (R216, R228). -/
structure Admitted where
  g : Vector Nat 16 := Vector.replicate 16 0
  borrow : BitVec 16 := 0xFFFF#16
deriving DecidableEq, Repr

/-- A channel slice (R11), but for its engine. -/
structure Channel where
  tsv : Tsv := {}
  ctl : Ctl := {}
  ecc : Ecc := {}
  cry : Cry := {}
  rbt : Rbt := {}
  adm : Admitted := {}
deriving DecidableEq, Repr

/-- Channel n as reset leaves it: only TSV_STROBES_SINCE_TRAIN depends on n (R62). -/
def Channel.reset (n : Nat) : Channel := { tsv := { sinceTrain := n * 16777216 } }

end Sys2Proof.Machine
end

