-- ==== Sys2Proof/Machine/StCmd.lean ====
section
/-! DEFINITION. The state of the command rings, the direct slot, the work queues and the dispatcher
(13_command_interface), of the mailboxes (14_mailboxes), of bring-up (15_bring_up) and of the fuse
array (16_fuse_array). -/

namespace Sys2Proof.Machine

/-- A command ring (R336, R363). -/
structure Ring where
  en : Bool := false
  log2 : Nat := 0
  hostPort : Fin 8 := 0
  owner : MasterId := 0
  vector : BitVec 8 := 0
  groups : BitVec 11 := 0
  tail : W32 := 0
  head : W32 := 0
  done : W32 := 0
  busy : Bool := false
  failed : Bool := false
  /-- A command from before the ring was set up again still runs: its reply is discarded (R337, R350). -/
  stale : Bool := false
  opcode : BitVec 16 := 0
deriving DecidableEq, Repr

/-- The state of a work queue (R352). -/
inductive WqSt where
  | free | active | draining | error
deriving DecidableEq, Repr

/-- The code of a work-queue state (R352). -/
def WqSt.code : WqSt → Nat
  | .free => 0 | .active => 1 | .draining => 2 | .error => 3

/-- A work-queue context (R352). -/
structure Queue where
  st : WqSt := .free
  engines : W64 := 0
  descBase : W64 := 0
  cmplBase : W64 := 0
  owner : MasterId := 0
  cls : BitVec 4 := 0
  log2 : Nat := 0
  vector : BitVec 8 := 0
  hostPort : Fin 8 := 0
  forward : Bool := false
  doorbell : BitVec 15 := 0
  gen : BitVec 16 := 0
  targetNode : BitVec 12 := 0
  targetQueue : BitVec 15 := 0
  tail : W32 := 0
  head : W32 := 0
  done : W32 := 0
  /-- FORWARD queue: descriptors consumed and not yet sent, oldest first; sent ones that await their CMP:
  IRQ flag and JOB_TAG (R358). -/
  toSend : List (BitVec 1024) := []
  sent : List (BitVec 1024) := []
deriving DecidableEq, Repr

/-- What a policy change still does once no request uses the old values (R25): nothing, zeroise a key slot (R152), or enter a page's new
entry and clear the page under the identity of the core that carries the command (R128). -/
inductive PolicyAct where
  | none
  | eraseKey (slot : Nat)
  | setPage (page : Nat) (entry : W32) (core : MasterId)
deriving DecidableEq, Repr

/-- What a command that has not replied waits for. -/
inductive WaitKind where
  /-- Requests that looked up the old values (R25), by master and tag, the reply to make, and what is still to be done. -/
  | policy (id : Nat) (olds : List (MasterId × BitVec 16)) (st : CmdStatus) (result : W64) (act : PolicyAct)
  /-- Host requests that used the old segment map (R324), by port and CXL tag, and the result to return. -/
  | segments (id : Nat) (olds : List (Fin 8 × BitVec 16)) (result : W64)
  /-- QUEUE_DESTROY: DONE reaches HEAD (R354). -/
  | destroy (queue : Nat)
  /-- FW_COMMIT: verification (R399). -/
  | verify
  /-- RETRAIN: the hold ends (R349); whether that hold has begun. -/
  | retrain (ch : Fin 64) (begun : Bool)
  /-- CLASS_SET_GUARANTEE: the new tables are active (R218). -/
  | guarantee (channels : W64) (result : W64)
  /-- CLASS_SET_LIMIT: the next refill strobe (R226). -/
  | limit (result : W64)
  /-- CLASS_COUNTERS_SNAPSHOT: the next revolution boundary (R229). -/
  | snapshot (page : Nat)
  /-- FAB_ENUMERATE, NODE_DETACH, FW_PUSH, FAB_SEAL_INIT, ROUTE_SET by messages (R299-R304). -/
  | fabric (opcode : Nat) (arg : Nat)
deriving DecidableEq, Repr

/-- A command in execution that has not replied (R339, R350). -/
structure CmdWait where
  ctx : CmdCtx
  kind : WaitKind
deriving DecidableEq, Repr

/-- The command and queue engine (R334-R363). -/
structure Cmd where
  rings : Vector Ring 32 := Vector.replicate 32 {}
  ringsReady : Bool := false
  pkt : Vector W32 16 := Vector.replicate 16 0
  reply : Vector W32 4 := Vector.replicate 4 0
  go : Bool := false
  done : Bool := false
  issuer : MasterId := 0
  dbReject : W32 := 0
  dbLast : W32 := 0
  dispatched : W32 := 0
  refused : W32 := 0
  wqSel : BitVec 15 := 0
  /-- Work queues that are not FREE, and GEN of every queue number ever created since reset (R352). -/
  queues : SMap Queue := []
  gens : SMap (BitVec 16) := []
  lastClass : Nat := 15
  lastQueue : Vector Nat 16 := Vector.replicate 16 0
  stopped : Bool := false
  waits : List CmdWait := []
  nextPolicy : Nat := 0
  /-- Segment map and interleave sets (R320). -/
  segs : SMap W64 := []
  isets : SMap (BitVec 256) := []
deriving DecidableEq, Repr

/-- A mailbox channel (R364-R376). -/
structure Mbx where
  bindA : W32 := 0
  bindB : W32 := 0
  a2b : W32 := 0
  b2a : W32 := 0
  a2bFull : Bool := false
  b2aFull : Bool := false
  /-- Times in ns at which the FULL flags last set (crossing windows, R371). -/
  a2bSince : Nat := 0
  b2aSince : Nat := 0
  crossed : Bool := false
  aOver : Bool := false
  bOver : Bool := false
  crossCount : BitVec 8 := 0
  dbA : W32 := 0
  dbB : W32 := 0
  maskA : W32 := 0
  maskB : W32 := 0
  lastA : BitVec 4 := 0
  lastB : BitVec 4 := 0
deriving DecidableEq, Repr

/-- The mailboxes (R364-R376). -/
structure MbxAll where
  ch : Vector Mbx 64 := Vector.replicate 64 {}
  lock : Bool := false
  reject : W32 := 0
deriving DecidableEq, Repr

/-- Where the stack stands between reset and ready (R384-R405). -/
inductive Phase where
  /-- Held in reset (R380, R384). -/
  | held
  /-- A warm-reset sequence runs (R387): 1 begun, 2 through-traffic drained. -/
  | warm (step : Nat)
  /-- Out of reset: straps not yet sampled; sampled; fuses sensed; self-test run (R391). -/
  | released | strapped | sensed | tested
  /-- Boot ROM ready, image not running (R31); FUSE_ALARM (R393); verifying (R399). -/
  | boot | fuseAlarm | verifying
  /-- The image runs; ready (R401, R403). -/
  | starting | ready
deriving DecidableEq, Repr

/-- Bring-up (R377-R407). -/
structure Boot where
  phase : Phase := .released
  rails : BitVec 7 := 0x7F#7
  ref0 : Bool := true
  ref1 : Bool := true
  devRstHigh : Bool := true
  warmRstHigh : Bool := true
  straps : BitVec 6 := 0
  cause : Nat := 0
  uvRail : Nat := 0
  warmCount : BitVec 16 := 0
  /-- Cause of a warm reset that has been asked for and not begun. -/
  warmReq : Option Nat := none
  /-- The reset that started this start-up was cold, or a warm reset that found LOCK at 0 (R401 step 4). -/
  fillNeeded : Bool := true
  cold : Bool := true
  /-- A trip holds the stack in reset until cooled (R456); REFCLK_LOSS holds it until restored (R383). -/
  tripHold : Bool := false
  refHold : Bool := false
  verifyFail : Bool := false
  loading : Bool := false
  begun : Bool := false
  cxlPath : Bool := false
  i3cPath : Bool := false
  scezoPath : Bool := false
  fullTest : Bool := false
  i3cRefused : Bool := false
  usable : BitVec 4 := 0
  size : Nat := 0
  readyTime : W32 := 0
  /-- Time in ns at which the stack left reset. -/
  leftReset : Nat := 0
  /-- The boot window's non-zero bytes by offset (R394). -/
  window : SMap Byte := []
  version : W64 := 0
  /-- Dynamic address of the I3C target (R396). -/
  i3cDyn : Option (BitVec 7) := none
  /-- How far the running image has come in R401: 0 nothing, 1 steps 1-3 begun, 2 the initial fill begun, 3 all. -/
  fwStep : Nat := 0
deriving DecidableEq, Repr

/-- The test access port (R59, R60, R272): the instruction in force, the layers that the serial control mechanism has in its chain
(one bit per layer, tower S0 first), what the boundary cells drive, and what the wrapper registers of the dies in the chain drive. -/
structure Tap where
  instr : TapInstr := .bypass
  chain : List Bool := []
  boundary : List Bool := []
  wrapper : List Bool := []
deriving DecidableEq, Repr

/-- Slew steps of the push-pull outputs MGMT_SDA and TDO (R504). -/
structure Slew where
  sda : Fin 4 := 0
  tdo : Fin 4 := 0
deriving DecidableEq, Repr

/-- The fuse array and its shadows (R408-R428). Blown fuses are kept by word; unlisted words are as
shipped (R408). -/
structure Fuse where
  blown : SMap W32 := []
  shadow : SMap W32 := []
  marginal : List Nat := []
  /-- Words whose shadow has failed parity, and the regions of those failures (R412). -/
  parityBad : List Nat := []
  parityRegions : BitVec 8 := 0
  sensed : Bool := false
  alarm : Bool := false
  crcBad : BitVec 8 := 0
  progLast : W32 := 0
deriving DecidableEq, Repr

end Sys2Proof.Machine
end

