-- ==== Sys2Proof/Machine/StEngine.lean ====
section
/-! DEFINITION. The state of the operator engines and their jobs (06_operator_engines,
07_predicate_programs). -/

namespace Sys2Proof.Machine

/-- A fault of an engine in a job (R181): page, reason code, status, WHERE, position. -/
structure EngFault where
  page : Nat
  reason : Nat
  status : CStatus
  loc : Nat := 0
  position : Nat := 0
deriving DecidableEq, Repr

/-- One aggregate being accumulated (R180): value, empty, overflow, and whether only NaN has been seen. -/
structure Agg where
  val : W64 := 0
  empty : Bool := true
  ovf : Bool := false
  nanOnly : Bool := false
deriving DecidableEq, Repr

/-- A group (R179): key, null key, rows, four aggregates. -/
structure Group where
  key : W64
  keyNull : Bool
  rows : Nat := 0
  aggs : List Agg
deriving DecidableEq, Repr

/-- A column descriptor of a tile (R161). -/
structure Column where
  ty : Nat
  nullable : Bool
  firstRow : Nat
  rows : Nat
deriving DecidableEq, Repr

/-- A tile that an engine is working on, or the tile of a GATHER position: page, held page entry (R171), header once it has been read
and checked, and the lines that have arrived for it. -/
structure Tile where
  page : Nat
  entry : W32
  /-- The tag under which the tile counts as one request (R171). -/
  tag : BitVec 16
  parsed : Bool := false
  values : Nat := 0
  nullRow : Nat := 0
  cols : List Column := []
  /-- Rows asked for, or, of a GATHER position, lines by 16 * row + line. -/
  asked : List Nat := []
  /-- Lines that have arrived, by 16 * row + line, and whether all that the tile needs have. -/
  lines : SMap (BitVec 512) := []
  arrived : Bool := false
  /-- The fault with which the tile fails when its turn comes (R158, R172). -/
  fail : Option EngFault := none
deriving DecidableEq, Repr

/-- A COPY's page in progress (R185, R186): source page, held entry, tag, row, whether the row has been asked for, and the lines of the
row that have not been written yet, each with its poison. -/
structure CopySt where
  page : Nat
  entry : W32
  tag : BitVec 16
  row : Nat := 0
  asked : Bool := false
  data : List (BitVec 512 × Bool) := []
deriving DecidableEq, Repr

/-- A lane of a PROBE that is following its bucket chain (R183): value index, key, global address of the
next bucket, buckets followed, matches so far. -/
structure ProbeLane where
  index : Nat
  key : W64
  next : Nat
  depth : Nat := 0
  found : List W64 := []
deriving DecidableEq, Repr

/-- The hash-table work of the tile being evaluated (R183): lanes to follow, lanes done in value order with their matches, values
probed, chains cut. -/
structure ProbeSt where
  lanes : List ProbeLane
  done : SMap (List W64) := []
  probed : Nat := 0
  cut : Nat := 0
deriving DecidableEq, Repr

/-- An engine's part of its running job (R156-R186). -/
structure EngRun where
  job : Nat
  /-- Pages of the source range in this channel not yet started, ascending. -/
  tiles : List Nat
  tile : Option Tile := none
  /-- The tile that is read ahead while `tile` is evaluated (PREFETCH_EN, R158). -/
  next : Option Tile := none
  /-- Bloom filter lines (R182), or `none` before they are loaded. -/
  filter : Option (List (BitVec 512)) := none
  probe : Option ProbeSt := none
  /-- GATHER: count of the input list once read, index of the next position (R184). -/
  gcount : Option Nat := none
  gnext : Nat := 0
  /-- GATHER: the position in progress, with its tile, INDEX and number in the list (R184). -/
  gather : Option (Tile × Nat × Nat) := none
  /-- Page of the tile, position or destination that was worked on last (R181). -/
  cur : Nat := 0
  groups : List Group := []
  /-- Body bytes not written yet, and whole bytes of entries in the body so far (R177). -/
  body : List Byte := []
  bodyBytes : Nat := 0
  entries : Nat := 0
  values : Nat := 0
  tilesDone : Nat := 0
  tilesFailed : Nat := 0
  /-- A tile or page of the part has failed (R187). -/
  failed : Bool := false
  chainCut : Nat := 0
  skipped : Nat := 0
  result0 : Nat := 0
  result1 : Nat := 0
  first : Option EngFault := none
  recorded : Nat := 0
  recordOff : Bool := false
  truncated : Bool := false
  stopped : Bool := false
  /-- A destination write of a COPY was refused (R115, R186). -/
  refused : Bool := false
  /-- Lines of the GATHER list read last (R184). -/
  gbuf : List (Nat × BitVec 512) := []
  /-- COPY: the page in progress. -/
  copy : Option CopySt := none
  /-- How far the end of the part has come: 0 not begun, 1 body written, 2 header written. -/
  ending : Nat := 0
deriving DecidableEq, Repr

/-- What an engine's ended part contributes to the completion (R187). -/
structure Part where
  engine : Nat
  result0 : Nat
  result1 : Nat
  first : Option EngFault
  failed : Bool
  truncated : Bool
  stopped : Bool
  refused : Bool := false
deriving DecidableEq, Repr

/-- A dispatched job (R165, R187, R188): queue, descriptor, program block, engine set, class, owner, ended
parts, stop asked for by STOP_ON_ERROR; a COPY of the retirement service carries no queue. -/
structure Job where
  id : Nat
  queue : Option Nat
  /-- HEAD count of the descriptor. -/
  number : Nat := 0
  desc : BitVec 1024
  prog : BitVec 4096 := 0
  set : W64
  cls : BitVec 4
  /-- Identity the engines' requests carry instead of their own (R157). -/
  ident : Option MasterId := none
  parts : List Part := []
  stop : Bool := false
deriving DecidableEq, Repr

/-- What the answer to an engine's request brings: status, data lines and, for a source read, the outcome of each line (R186). -/
structure IoGot where
  status : CStatus
  data : List (BitVec 512) := []
  lines : List (CStatus × Bool) := []
deriving DecidableEq, Repr

/-- A source read of an engine (R157, R171): tag of the tile, position or page that it is for, row, line or the whole row, and the
held page entry. -/
structure SrcRead where
  tile : BitVec 16
  row : Nat
  line : Option Nat
  entry : W32
deriving DecidableEq, Repr

/-- A request of an engine that it has issued and not yet used the answer of: tag, global address, whether it writes, and its outcome. -/
structure EngIo where
  tag : BitVec 16
  gaddr : Nat
  write : Bool
  /-- It writes a fault record, whose fault has been counted in TILES_FAILED or has not (R181). -/
  record : Option Bool := none
  src : Option SrcRead := none
  /-- The tile and the value index of a PROBE whose bucket it reads. -/
  lane : Option (BitVec 16 × Nat) := none
  got : Option IoGot := none
deriving DecidableEq, Repr

/-- An operator engine (R156, R189). -/
structure Engine where
  fn : Fn := {}
  gen : BitVec 16 := 0
  /-- Requested state of R362: ON after every reset (R404). -/
  want : Bool := true
  cfg : W32 := 0xC0800000#32
  /-- Jobs dispatched to the engine and not started, oldest first: at most 3 (R156). -/
  pending : List Nat := []
  run : Option EngRun := none
  jobs : W32 := 0
  rows : W32 := 0
  values : W32 := 0
  tileFaults : W32 := 0
  stallRow : BitVec 16 := 0
  stallOut : BitVec 16 := 0
  lastFault : W32 := 0
  injFormat : Bool := false
  io : List EngIo := []
  nextTag : BitVec 16 := 0
  /-- Strobes of the source reads of the last 16 strobes (R458). -/
  reads : List Nat := []
  /-- Strobes of waiting since the last whole 256 ns of each half of ENG_STALL. -/
  fracRow : Nat := 0
  fracOut : Nat := 0
deriving DecidableEq, Repr

/-- A consumed descriptor whose checks have not ended (R170): queue, descriptor, HEAD count; the reads of its program block from another
node, each by its tag, and the answers; the block once it has passed its checks. -/
structure Checking where
  queue : Nat
  desc : BitVec 1024
  number : Nat
  reads : List (BitVec 16 × Option (CStatus × BitVec 512)) := []
  prog : Option (BitVec 4096) := none
deriving DecidableEq, Repr

/-- All engines and the jobs dispatched and not completed. -/
structure Engines where
  eng : Vector Engine 64 := Vector.replicate 64 {}
  jobs : List Job := []
  /-- Descriptors consumed whose checks have not ended, oldest first. -/
  checking : List Checking := []
  nextJob : Nat := 0
deriving DecidableEq, Repr

end Sys2Proof.Machine
end

