-- ==== Sys2Proof/Machine/StFault.lean ====
section
/-! DEFINITION. The state of the fault collector (17_faults). -/

namespace Sys2Proof.Machine

/-- An event's details in its source's capture register, while the handshake is under way (R432). -/
structure Capture where
  addr : BitVec 52
  access : BitVec 6
  master : MasterId
  status : BitVec 4
  forced : Bool
  time : W64
deriving DecidableEq, Repr

/-- A source at the collector: event count, reaction, broken wire, capture (R432, R433, R448). -/
structure FltSource where
  count : BitVec 8 := 0
  reaction : BitVec 8 := 0
  broken : Bool := false
  capture : Option Capture := none
deriving DecidableEq, Repr

/-- The fault collector (R429-R448). -/
structure Flt where
  /-- Sources changed from their reset state, by source ID. -/
  srcs : SMap FltSource := []
  first : Option FaultRec := none
  firstMultiple : Bool := false
  fatalLater : Bool := false
  stopped : Bool := false
  wireFault : Bool := false
  faultHold : Bool := false
  /-- FAULT_N and ALERT_N are driven low, and the time in ns of the latest event that drove each. -/
  faultLow : Bool := false
  faultSince : Nat := 0
  alertLow : Bool := false
  alertSince : Nat := 0
  alertPend : BitVec 3 := 0
  hostPorts : BitVec 8 := 0xFF#8
  irqPend : BitVec 8 := 0
  countCorr : W32 := 0
  countCont : W32 := 0
  countFatal : W32 := 0
  histLost : W32 := 0
  /-- History ring: entries by index (R439), index of the newest entry, entries held. -/
  hist : SMap FaultRec := []
  newest : Nat := 0
  held : Nat := 0
  /-- The collector's copy of fabric time, in ns (R435). -/
  time : W64 := 0
deriving DecidableEq, Repr

end Sys2Proof.Machine
end

