-- ==== Sys2Proof/Machine/StHost.lean ====
section
/-! DEFINITION. The state of the host ports (12_cxl_host_ports) and of thermal management
(18_thermal_cooling). -/

namespace Sys2Proof.Machine

/-- An HDM decoder (R317): base and size of the HPA range in bytes, interleave, skip, lock on commit,
committed, Error Not Committed, and the start of its DPA range. -/
structure Hdm where
  base : Nat := 0
  size : Nat := 0
  ways : Nat := 1
  gran : Nat := 256
  skip : Nat := 0
  lockOnCommit : Bool := false
  locked : Bool := false
  committed : Bool := false
  error : Bool := false
  dpa : Nat := 0
deriving DecidableEq, Repr

/-- An MSI-X table entry (R314): address, data and mask. -/
structure MsixEntry where
  addr : W64 := 0
  data : W32 := 0
  masked : Bool := true
deriving DecidableEq, Repr

/-- A CXL.mem request that the port has accepted and not answered (R325, R327, R328). -/
structure HostPend where
  tag : BitVec 16
  /-- The TAG that the port chose for its stack request, unique among those outstanding (R285, R297). -/
  req : BitVec 16
  write : Bool
  pool : BitVec 50
  node : BitVec 12
  addr : BitVec 40
  /-- The segment map entry that it looked up, in use until it completes (R324). -/
  entry : W64
  /-- The link went down after the request was accepted: its completion is discarded (R330). -/
  lost : Bool := false
deriving DecidableEq, Repr

/-- A host port (R310-R333). -/
structure CxlPort where
  linkUp : Bool := false
  /-- PERSTk_N is low; a hot reset is in progress; the host has disabled the link (R329). -/
  perst : Bool := false
  hotReset : Bool := false
  linkDisabled : Bool := false
  /-- The port accepts CXL.mem requests (R330, R331). -/
  accepting : Bool := false
  width : BitVec 5 := 0
  rate : BitVec 3 := 0
  linkGen : BitVec 16 := 0
  lastErr : W64 := 0
  rdPoison : W32 := 0
  wrRefused : W32 := 0
  addrMiss : W32 := 0
  discarded : W32 := 0
  proto : W32 := 0
  segMiss : W32 := 0
  hdm : Vector Hdm 4 := Vector.replicate 4 {}
  pend : List HostPend := []
  nextTag : BitVec 16 := 0
  /-- Configuration space: command register, BAR0, BAR2, D3hot (R312, R310). -/
  command : BitVec 16 := 0
  bar0 : W64 := 0
  bar2 : W64 := 0
  d3hot : Bool := false
  /-- MSI-X: enable, function mask, table, pending bits (R314, R359). -/
  msixEn : Bool := false
  msixMask : Bool := false
  msix : SMap MsixEntry := []
  pba : BitVec 256 := 0
  /-- The stored event interrupt policy (R316). -/
  evtPolicy : W32 := 0
deriving DecidableEq, Repr

/-- The registers of a host port that a conventional reset of the port returns to their reset values
(R329): configuration space, BAR0 registers, HDM decoders, MSI-X state and the mailbox. -/
def CxlPort.conventionalReset (h : CxlPort) : CxlPort :=
  { h with
    hdm := Vector.replicate 4 {}, command := 0, bar0 := 0, bar2 := 0, d3hot := false,
    msixEn := false, msixMask := false, msix := [], pba := 0, evtPolicy := 0 }

/-- A temperature sensor (R451, R453): sampled, failed, reading in 1/16 °C, samples in a row that
disagreed. -/
structure Sensor where
  valid : Bool := false
  failed : Bool := false
  temp : Int := 0
  disagree : Nat := 0
deriving DecidableEq, Repr

/-- Which thresholds a die is above, with the hysteresis of R452. -/
structure DieHeat where
  a85 : Bool := false
  a103 : Bool := false
  a105 : Bool := false
  a110 : Bool := false
deriving DecidableEq, Repr

/-- Thermal management (R449-R463). Dies are numbered 0-15 north layers, 16-31 south layers, 32 base die. -/
structure Thm where
  sensors : Vector Sensor 162 := Vector.replicate 162 {}
  dies : Vector DieHeat 33 := Vector.replicate 33 {}
  northHot : Bool := false
  southHot : Bool := false
  throttle : Bool := false
  scale : Bool := false
  tripped : Bool := false
  tripLast : W32 := 0
  maxTemp : BitVec 8 := 0
  maxDie : BitVec 8 := 0
  /-- Cap of POWER_CAP_SET, and the cap that the interval in progress works under (R460), in W. -/
  cap : Nat := 220
  capNow : Nat := 220
  power : BitVec 16 := 0
  /-- Governor level in force, level set for the next revolution boundary (R459), POWER_LIMIT not yet
  logged since the level last was 0. -/
  level : Nat := 0
  nextLevel : Nat := 0
  limitArmed : Bool := true
  flow : W32 := 0
  flowCfg : W32 := 0x08100001#32
  flowLoss : Bool := false
  run1 : Nat := 0
  run2 : Nat := 0
  runClear : Nat := 0
deriving DecidableEq, Repr

end Sys2Proof.Machine
end

