-- ==== Sys2Proof/Machine/StLink.lean ====
section
/-! DEFINITION. The state of the serial lanes (10_serial_lanes) and of the Scezo link layer, router and
fabric master (11_scezo_fabric). -/

namespace Sys2Proof.Machine

/-- LSTATE of R262. -/
inductive LState where
  | down | detect | poll | config | eq | active | recovery | quiet
deriving DecidableEq, Repr

/-- The code of a sub-link's training state (R262). -/
def LState.code : LState → Nat
  | .down => 0 | .detect => 1 | .poll => 2 | .config => 3 | .eq => 4 | .active => 5 | .recovery => 6 | .quiet => 7

/-- LL_STATUS.STATE of R309. -/
inductive LlState where
  | down | init | run | replay | resync | detaching
deriving DecidableEq, Repr

/-- The code of a link-layer state (R309). -/
def LlState.code : LlState → Nat
  | .down => 0 | .init => 1 | .run => 2 | .replay => 3 | .resync => 4 | .detaching => 5

/-- Credits and cumulative counts of one virtual channel of one link (R281-R284). -/
structure Vc where
  /-- Advertised by the partner, credits held, slots sent, returns seen from the partner. -/
  init : BitVec 16 := 0
  held : BitVec 16 := 0
  sent : BitVec 16 := 0
  rseen : BitVec 16 := 0
  /-- Slots received, returns issued, slots occupied, slots freed and not yet returned. -/
  rcvd : BitVec 16 := 0
  issued : BitVec 16 := 0
  occ : BitVec 16 := 0
  pend : BitVec 16 := 0
deriving DecidableEq, Repr

/-- A sent MSG flit in the replay buffer: its SEQ and its 15 slots (R278). -/
structure TxFlit where
  seq : BitVec 12
  slots : List (BitVec 128)
deriving DecidableEq, Repr

/-- A sub-link: lanes (R262-R268) and link layer (R274-R284, R309). -/
structure Sub where
  lstate : LState := .down
  rate : BitVec 3 := 0
  /-- Lanes in use, numbered as in `TrainRes`. -/
  lanes : BitVec 16 := 0
  reversed : Bool := false
  partner : BitVec 12 := 0
  /-- Recovery episode: attempts that failed in a row, the attempt is full EQ, lanes it trains, lanes used
  before the episode, the attempt is on a narrower group (R267). -/
  failed : Nat := 0
  full : Bool := false
  target : BitVec 16 := 0
  before : BitVec 16 := 0
  narrow : Bool := false
  /-- Lanes on which a detector fired during the attempt in progress (R268), and the latest stage reached of
  training whose rate change is done (R264). -/
  bad : BitVec 16 := 0
  rateDone : Bool := false
  quietRx : Bool := false
  quietTx : Bool := false
  markerSeq : BitVec 16 := 0
  /-- Symbols sent in the present marker period on each lane, and the scrambler of each logical lane (R258, R259). -/
  sym : Nat := 0
  gens : List (BitVec 31) := []
  /-- Link layer. -/
  ll : LlState := .down
  epoch : BitVec 16 := 0
  errLimit : BitVec 8 := 8
  detachRx : Bool := false
  detachTx : Bool := false
  nextSeq : BitVec 12 := 0
  acked : BitVec 12 := 0
  rxSeq : BitVec 12 := 0
  rxAny : Bool := false
  nakTx : Bool := false
  nakRx : Bool := false
  rsyncTx : Bool := false
  rsyncRx : Bool := false
  rdoneTx : Bool := false
  rdoneRx : Bool := false
  peerSeen : Bool := false
  peerSaw : Bool := false
  sentSeen : Bool := false
  replayBuf : List TxFlit := []
  /-- MSG flits sent modulo 65,536, and since initialisation; the count of the latter at each replay
  episode of the window of R279; oldest flit of the latest replay and times in a row that it was replayed. -/
  sinceAudit : Nat := 0
  flits : Nat := 0
  episodes : List Nat := []
  lastReplay : Option (BitVec 12) := none
  sameReplay : Nat := 0
  auditDue : Bool := false
  injCrc : Bool := false
  replays : BitVec 16 := 0
  replayFlits : BitVec 16 := 0
  crcErr : W32 := 0
  auditPass : BitVec 16 := 0
  auditFail : BitVec 8 := 0
  auditVc : BitVec 2 := 0
  auditCheck : BitVec 4 := 0
  vc : Vector Vc 4 := Vector.replicate 4 {}
  /-- Slots received of a message that is not complete yet (R277), and messages received and not handled. -/
  partialRx : List (BitVec 128) := []
  rx : List Msg := []
  /-- Messages to send that wait for credits or for the link, oldest first. -/
  tx : List Msg := []
deriving DecidableEq, Repr

/-- The registers of one lane (R273). -/
structure Lane where
  rxEq : W32 := 0
  txEq : W32 := 0
  amErr : BitVec 16 := 0
  prbsErr : BitVec 16 := 0
  margin : W32 := 0
  result : BitVec 2 := 0
  errors : BitVec 30 := 0
deriving DecidableEq, Repr

/-- A link port (R254-R273). -/
structure Port where
  fn : Fn := {}
  mode : Nat := 0
  gen : BitVec 16 := 0
  /-- Requested state of R362 (true: ON). -/
  want : Bool := false
  cfgMode : Nat := 0
  maxRate : Nat := 5
  degradeEn : Bool := true
  reversalEn : Bool := true
  los : BitVec 8 := 0
  lol : BitVec 8 := 0
  losSeen : BitVec 8 := 0
  lolSeen : BitVec 8 := 0
  quietSeen : Bool := false
  retrFull : BitVec 16 := 0
  retrQuick : BitVec 16 := 0
  downsOrd : BitVec 16 := 0
  downsUnc : BitVec 16 := 0
  skew : W32 := 0
  testCtl : W32 := 0
  /-- Detectors that FORCE holds asserted: lane, LOS (else LOL), strobe at which it ends (R273). -/
  forces : List (Fin 8 × Bool × Nat) := []
  /-- The pattern generator of each lane in TEST (R271). -/
  prbs : Vector (BitVec 31) 8 := Vector.replicate 8 0
  /-- MODE, MAX_RATE, DEGRADE_EN and REVERSAL_EN with which the port comes back when its District next enters ON (R362). -/
  back : Option (Nat × Nat × Bool × Bool) := none
  lane : Vector Lane 8 := Vector.replicate 8 {}
  subs : Vector Sub 4 := Vector.replicate 4 {}
deriving DecidableEq, Repr

/-- A fabric key set (R289). -/
structure FabKeys where
  dataKey : BitVec 256
  tagKey : BitVec 256
  hashKey : W64
deriving DecidableEq, Repr

/-- A transit entry (R295): the request's header, ingress (`none`: a local master port), egress (`none`: served
here), orphaned. -/
structure Transit where
  master : MasterId
  tag : BitVec 16
  hdr : BitVec 128
  ingress : Option SubLink
  egress : Option SubLink
  orphan : Bool := false
deriving DecidableEq, Repr

/-- A node that the master knows (R299): ID, serial, source-routed path from the master, state code. -/
structure FabNode where
  id : BitVec 12
  serial : W64
  path : List Byte
  st : Nat
deriving DecidableEq, Repr

/-- An enumeration in progress (R299): node being visited, next of its 256 sub-links, nodes visited, nodes
newly assigned, path of the outstanding probe, what its reply said (ID given, serial, state) and the route entries
to write for it (node, entry). -/
structure EnumSt where
  node : BitVec 12 := 0
  idx : Nat := 0
  visited : List (BitVec 12) := []
  newly : Nat := 0
  path : List Byte := []
  found : BitVec 12 := 0
  serial : W64 := 0
  st : Nat := 0
  writes : List (BitVec 12 × W64) := []
deriving DecidableEq, Repr

/-- A ROUTE_SET to another node in progress (R306): node, index of the next entry, entries left, entries in all. -/
structure RouteSetSt where
  node : BitVec 12
  idx : Nat
  left : List W64
  total : Nat
deriving DecidableEq, Repr

/-- A node being pushed to (R301): 0 FW_BEGIN sent; then its rows; then FW_COMMIT; then DEV_STATUS. -/
structure PushNode where
  node : BitVec 12
  step : Nat := 0
  /-- TAG of the row write sent last. -/
  tag : BitVec 16 := 0
deriving DecidableEq, Repr

/-- A firmware push in progress (R301): image address, size, nodes waiting and running (at most 64), verified and
failed; whether the command named one node, and that node could not be reached. -/
structure PushSt where
  image : W64
  size : Nat
  named : Bool
  waiting : List (BitVec 12)
  running : List PushNode := []
  verified : Nat := 0
  failed : Nat := 0
  lost : Bool := false
deriving DecidableEq, Repr

/-- A FAB_SEAL_INIT in progress (R302): nodes still to key, node being keyed, words of its public key read. -/
structure SealSt where
  waiting : List (BitVec 12)
  node : BitVec 12 := 0
  words : List W32 := []
  keyed : Nat := 0
deriving DecidableEq, Repr

/-- What a request of this node's cores over MGT is for (R299-R304). -/
inductive MgmtUse where
  | enumLl | enumSub | enumProbe | enumAssign | enumRoute
  | route | detach | pushCmd (node : BitVec 12)
  | sealState | sealWord | sealKey
deriving DecidableEq, Repr

/-- A request of this node's cores that awaits its MGMT_CMP, REMOTE_REPLY, ENUM_REPLY or CMP (R287). -/
structure MgmtReq where
  tag : BitVec 16
  use : MgmtUse
deriving DecidableEq, Repr

/-- The fabric router, keys, time and, on the master, its node list (R285-R308). -/
structure Fab where
  nodeId : BitVec 12 := 0xFFF#12
  route : SMap W64 := []
  parent : Option SubLink := none
  detaching : Bool := false
  /-- ACTION of the detach in progress (R304). -/
  detachAction : Nat := 0
  conflict : Bool := false
  /-- Sub-links excluded from enumeration: node and sub-link byte (R298). -/
  excluded : List (BitVec 12 × Nat) := []
  time : W64 := 0
  period : BitVec 16 := 0x3E8#16
  syncEn : Bool := true
  locked : Bool := false
  delay : BitVec 15 := 0
  offset : BitVec 16 := 0
  /-- Successive exchanges within ±20 ns (R303), T1 of the exchange in progress, and the rate correction of the current period in ns. -/
  good : Nat := 0
  t1 : Option W64 := none
  noRoute : W32 := 0
  sealFail : W32 := 0
  reroutes : W32 := 0
  /-- Current and previous key set, generation parity, nonce counter (R289). -/
  cur : Option FabKeys := none
  prev : Option FabKeys := none
  kg : Bool := false
  gen : W32 := 0
  nonce : W64 := 0
  transit : List Transit := []
  mgmt : List MgmtReq := []
  nextTag : BitVec 16 := 0
  /-- Fabric master (R298-R302). -/
  nodes : List FabNode := []
  /-- Serial numbers and the ID each has held under the current key generation. -/
  heldIds : List (W64 × BitVec 12) := []
  enum : Option EnumSt := none
  /-- Links between nodes that the enumeration has recorded: node, sub-link byte, partner (R299). -/
  links : List (BitVec 12 × Nat × BitVec 12) := []
  routeSet : Option RouteSetSt := none
  push : Option PushSt := none
  sealing : Option SealSt := none
deriving DecidableEq, Repr

end Sys2Proof.Machine
end

