-- ==== Sys2Proof/Machine/StSec.lean ====
section
/-! DEFINITION. The state of page policy, keys and integrity (05_encryption_integrity), of the scrubber
function and of the retirement service (04_stored_data_protection). -/

namespace Sys2Proof.Machine

/-- A key slot (R130). -/
structure KeySlot where
  loaded : Bool := false
  dataKey : BitVec 256 := 0
  tagKey : BitVec 256 := 0
  hashKey : W64 := 0
  loadId : W32 := 0
  kekSel : Bool := false
  gen : BitVec 8 := 0
  /-- KEY_EMPTY has been logged since the slot was last loaded (R152). -/
  emptyLogged : Bool := false
  /-- KEY_ERASE waits for the requests that looked the slot up (R25): for every later lookup it is EMPTY. -/
  erasing : Bool := false
deriving DecidableEq, Repr

/-- A counter line in the counter cache (R141): eight counters, dirty, and held SEALED (R145). -/
structure CtrLine where
  ctrs : Vector W64 8
  dirty : Bool := false
  sealHeld : Bool := false
deriving DecidableEq, Repr

/-- A request that waits for a counter walk (R141): the page entry it looked up (R25), and the lines, by line
number, that it had received. -/
structure WalkReq where
  ch : Nat
  req : Req
  entry : W32
  lines : List (Nat × (SLine × DecodeOut)) := []
  /-- Level-1 counter lines that a walk could not obtain for an engine's source row, each with its outcome (R186). -/
  bad : List (Nat × CStatus) := []
deriving DecidableEq, Repr

/-- A counter walk in progress: the counter line wanted first (level, index) and the requests that share
it (R141). -/
structure Walk where
  lvl : Nat
  idx : Nat
  waiters : List WalkReq
deriving DecidableEq, Repr

/-- The page attribute table, access groups, key store, integrity root store and counter cache
(R121-R155). -/
structure Sec where
  /-- Page attribute table: page to entry; an unlisted page reads 0 (R121). -/
  pat : SMap W32 := []
  /-- Access-group patterns, keyed 16 * group + index; unlisted patterns read 0 (R124). -/
  groups : SMap W64 := []
  keys : SMap KeySlot := []
  treeKey : BitVec 256 := 0
  treeHash : W64 := 0
  /-- Root counters (R139); unlisted counters read 0. -/
  roots : SMap W64 := []
  sticky : List Nat := []
  stickyPend : List Nat := []
  stickyOverflow : Bool := false
  stickyLost : Bool := false
  configured : Bool := false
  capCode : Nat := 0
  /-- Counter cache, keyed by counter-line local address >> 6 (R141). -/
  cache : SMap CtrLine := []
  /-- Keys of dirty counter lines, oldest first (R142). -/
  dirty : List Nat := []
  ctrCfg : BitVec 13 := 0x400#13
  ctrMisses : W32 := 0
  walks : List Walk := []
  /-- Level-1 counter lines that the walker is to fetch ahead of an engine's next page (CTR_PREFETCH, R154). -/
  ahead : List Nat := []
  agreeReady : Bool := false
  agreePub : Vector W32 24 := Vector.replicate 24 0
deriving DecidableEq, Repr

/-- The retirement service's firmware state (R513 area, R514). A pending reason is (page, reason code). -/
structure Retire where
  action : Nat := 2
  records : List W64 := []
  reasons : List (Nat × Nat) := []
  acted : List (Nat × Nat) := []
  reserve : List Nat := []
  /-- A migration in progress: source, destination, reason, RO of the source before step 1 (R115). -/
  migrating : Option (Nat × Nat × Nat × Bool) := none
deriving DecidableEq, Repr

/-- The scrubber function (R102, R360) and its enable generation (R361). -/
structure Scrub where
  fn : Fn := {}
  gen : BitVec 16 := 0
deriving DecidableEq, Repr

end Sys2Proof.Machine
end

