-- ==== Sys2Proof/Machine/State.lean ====
section
/-! DEFINITION. The state of the block, the reasons a step can stop, and the state after reset. -/

namespace Sys2Proof.Machine

/-- What the block sends to the outside in one of its commands: newest first in `State.outbox`. -/
inductive Out where
  /-- An MSI-X message of a host port: vector, address, data (R314, R359). -/
  | msix (h : Fin 8) (vector : BitVec 8) (addr : W64) (data : W32)
  /-- CXL.mem responses (R327): MemData with its poison bit, and Cmp. -/
  | memData (h : Fin 8) (tag : BitVec 16) (data : BitVec 512) (poison : Bool)
  | cmp (h : Fin 8) (tag : BitVec 16)
  /-- The completion of a configuration or BAR access with its data (R312, R315). -/
  | cfgCpl (h : Fin 8) (data : W64)
  /-- The reply of the primary mailbox: opcode answered, return code Unsupported or not, payload (R316). -/
  | mailbox (h : Fin 8) (unsupported : Bool) (payload : List Byte)
  /-- The word that a register read returns over a path (R467, R471, R475). -/
  | readData (p : Path) (data : W32)
  /-- Bytes that the I3C target returns (R397). -/
  | i3c (data : List Byte)
  /-- A flit that the link layer gives to the lanes of a sub-link (R274). -/
  | flit (l : SubLink) (bits : BitVec 2048)
  /-- Bits that TDO shifts out, first bit first, at its slew step (R59, R504). -/
  | tdo (bits : List Bool) (step : Fin 4)
  /-- A completion delivered to the master at its port (R234). -/
  | completion (j : Fin 140) (c : Completion)
  /-- A fence completed at its port: master and error flag (R242). -/
  | fenceDone (j : Fin 140) (m : MasterId) (err : Bool)
deriving DecidableEq, Repr

/-- What transmitters carry. -/
inductive LaneOut where
  /-- Symbols of a Scezo sub-link: one list for each symbol time, its k-th element the symbol of logical lane k (R258, R259). -/
  | symbols (l : SubLink) (cols : List (List Byte))
  /-- Pattern bits of a lane in TEST, first bit first (R271). -/
  | pattern (p : Fin 64) (lane : Fin 8) (bits : List Bool)
deriving DecidableEq, Repr

/-- The machine. `pending` is the queue of commands that wait, first in first out. -/
structure State where
  pending : List Instr := []
  /-- Strobes since the power came up; a reset does not restart the count. One strobe is 4 ns (R42). -/
  strobe : Nat := 0
  glb : Glb := {}
  dist : Vector District 8 := Vector.replicate 8 {}
  chs : Vector Channel 64 := Vector.ofFn (fun i : Fin 64 => Channel.reset i.val)
  sec : Sec := {}
  retire : Retire := {}
  scrub : Scrub := {}
  kerbs : Vector Kerb 140 := Vector.replicate 140 {}
  mports : Vector MPort 140 := Vector.replicate 140 {}
  /-- Requests that a Kerb has forwarded and that have not reached their slice or link, in order (R232,
  R235). The USED registers count them. -/
  reqPlane : List (Car PReq) := []
  /-- The on-die credits (R233). -/
  credits : Credits := {}
  flt : Flt := {}
  thm : Thm := {}
  hosts : Vector CxlPort 8 := Vector.replicate 8 {}
  ports : Vector Port 64 := Vector.replicate 64 {}
  fab : Fab := {}
  cmd : Cmd := {}
  mbx : MbxAll := {}
  boot : Boot := {}
  fuse : Fuse := {}
  tap : Tap := {}
  slew : Slew := {}
  engs : Engines := {}
  /-- Latches of each path that has used one (R475). -/
  latches : List (Path × PathLatch) := []
  /-- Activations of each layer in its latest window: (strobe, weight), keyed 16 * tower + layer (R76). -/
  acts : SMap (List (Nat × Nat)) := []
  /-- Channel that each layer's arbiter granted last, among candidates and among REFs (R76), and the latest slot decided. -/
  arb : SMap Nat := []
  arbRef : SMap Nat := []
  slot : Nat := 0
  /-- Content of the DRAM layers: stored byte i of line key k of channel c is at (c * 2^26 + k) * 80 + i. -/
  dram : List Host.Cell := []
  /-- The model's own: messages sent, newest first, and the counter that free values are applied to. -/
  outbox : List Out := []
  /-- What the transmitters have carried, newest first. -/
  wires : List LaneOut := []
  free : Nat := 0
deriving DecidableEq, Repr

/-- The machine right after reset: every field at the value of its declaration. -/
def State.reset : State := {}

/-- Reasons to stop with a fault. -/
inductive Fault where
  /-- No meaning raises it: a command that the spec gives no effect. Safe: the model stops. -/
  | stuck (what : String)
deriving DecidableEq, Repr

/-- Reasons to refuse a command. -/
inductive Refusal where
  /-- Raised by exec alone, for a command that has no meaning yet. Safe: the model stops. -/
  | notModelled (mnemonic : String)
deriving DecidableEq, Repr

/-- The outcomes of this machine. -/
abbrev Res := Host.Outcome State Fault Refusal

end Sys2Proof.Machine
end

