-- ==== Sys2Proof/Machine/Ops.lean ====
section
/-! DEFINITION. The named operations over the state that every family uses: updates of one unit, free
values, what goes out, identities, address decoding, the DRAM content, fault events and interrupts. -/

namespace Sys2Proof.Machine

/-! Updates of one unit. -/

/-- Update channel slice `n`. -/
def State.modCh (s : State) (n : Fin 64) (f : Channel → Channel) : State := { s with chs := vmod s.chs n f }
/-- Update the controller of channel `n`. -/
def State.modCtl (s : State) (n : Fin 64) (f : Ctl → Ctl) : State := s.modCh n (fun c => { c with ctl := f c.ctl })
/-- Update the row path of channel `n`. -/
def State.modTsv (s : State) (n : Fin 64) (f : Tsv → Tsv) : State := s.modCh n (fun c => { c with tsv := f c.tsv })
/-- Update the ECC unit of channel `n`. -/
def State.modEcc (s : State) (n : Fin 64) (f : Ecc → Ecc) : State := s.modCh n (fun c => { c with ecc := f c.ecc })
/-- Update the crypto lane of channel `n`. -/
def State.modCry (s : State) (n : Fin 64) (f : Cry → Cry) : State := s.modCh n (fun c => { c with cry := f c.cry })
/-- Update the Roundabout of channel `n`. -/
def State.modRbt (s : State) (n : Fin 64) (f : Rbt → Rbt) : State := s.modCh n (fun c => { c with rbt := f c.rbt })
/-- Update every channel. -/
def State.mapChs (s : State) (f : Fin 64 → Channel → Channel) : State :=
  { s with chs := Vector.ofFn (fun i => f i s.chs[i]) }
/-- Update District `k`. -/
def State.modDist (s : State) (k : Fin 8) (f : District → District) : State := { s with dist := vmod s.dist k f }
/-- Update the Kerb `j`. -/
def State.modKerb (s : State) (j : Fin 140) (f : Kerb → Kerb) : State := { s with kerbs := vmod s.kerbs j f }
/-- Update the master port `j`. -/
def State.modMport (s : State) (j : Fin 140) (f : MPort → MPort) : State := { s with mports := vmod s.mports j f }
/-- Update host port `h`. -/
def State.modHost (s : State) (h : Fin 8) (f : CxlPort → CxlPort) : State := { s with hosts := vmod s.hosts h f }
/-- Update link port `p`. -/
def State.modPort (s : State) (p : Fin 64) (f : Port → Port) : State := { s with ports := vmod s.ports p f }
/-- Update a sub-link. -/
def State.modSub (s : State) (l : SubLink) (f : Sub → Sub) : State :=
  s.modPort l.port (fun p => { p with subs := vmod p.subs l.sub f })
/-- A sub-link. -/
def State.subAt (s : State) (l : SubLink) : Sub := s.ports[l.port].subs[l.sub]
/-- Update engine `e`. -/
def State.modEng (s : State) (e : Fin 64) (f : Engine → Engine) : State :=
  { s with engs := { s.engs with eng := vmod s.engs.eng e f } }
/-- Update a mailbox channel. -/
def State.modMbx (s : State) (c : Fin 64) (f : Mbx → Mbx) : State :=
  { s with mbx := { s.mbx with ch := vmod s.mbx.ch c f } }
/-- Update a command ring. -/
def State.modRing (s : State) (r : Fin 32) (f : Ring → Ring) : State :=
  { s with cmd := { s.cmd with rings := vmod s.cmd.rings r f } }

/-- Send something outside. -/
def State.emit (s : State) (o : Out) : State := { s with outbox := o :: s.outbox }
/-- VDD_IO and VDD_CORE are good: the sideband balls and the management island work (R14, R489). -/
def State.sidebandUp (s : State) : Bool := bit s.boot.rails 0 && bit s.boot.rails 3
/-- The slew step for a clock whose mean period over its 16 most recent cycles is `ps` (R504; an operand, log entry 105): 1 MHz or less,
up to 4, up to 8, above. -/
def slewStep (ps : Nat) : Fin 4 := if 1000000 ≤ ps then 0 else if 250000 ≤ ps then 1 else if 125000 ≤ ps then 2 else 3
/-- The step at which FAULT_N and ALERT_N fall (R504). -/
def openDrainStep : Fin 4 := 1
/-- An I3C STOP: MGMT_SDA takes the step of MGMT_SCL's rate in the transfer (R504). -/
def State.i3cStop (s : State) (scl : Nat) : State := { s with slew := { s.slew with sda := slewStep scl } }
/-- Advance the counter of free values. -/
def State.bump (s : State) : State := { s with free := s.free + 1 }

/-! Identities and domains. -/

/-- The identity of a local agent (R21). -/
def State.self (s : State) (agent : Nat) : MasterId := mkMaster s.fab.nodeId (BitVec.ofNat 8 agent)
/-- Agent of the control core that runs firmware services: CC0 (R514). -/
def agentCC0 : Nat := 0x50
/-- Agent of the scrubber (R21). -/
def agentScrubber : Nat := 0x58
/-- Agent of the fuse controller and of I3C (R21). -/
def agentFuse : Nat := 0x59
/-- Agent of the integrity tree walker (R21). -/
def agentWalker : Nat := 0x5B
/-- Agent of engine `e` (R21). -/
def agentEngine (e : Nat) : Nat := 0x10 + e

/-- The District of channel, engine or port `n` (R12). -/
def distOf (n : Fin 64) : Fin 8 := ⟨n.val / 8, by omega⟩
/-- The link port that carries host port `h` (R12). -/
def hostPortOf (h : Fin 8) : Fin 64 := ⟨8 * h.val, by omega⟩
/-- Master port numbers j of R229. -/
def portHost (h : Fin 8) : Fin 140 := ⟨h.val, by omega⟩
def portLink (p : Fin 64) : Fin 140 := ⟨8 + p.val, by omega⟩
def portEngine (e : Fin 64) : Fin 140 := ⟨72 + e.val, by omega⟩
def portCore (c : Fin 4) : Fin 140 := ⟨136 + c.val, by omega⟩
/-- The tower of channel `n`: 0 north, 1 south (R12). -/
def towerOf (n : Nat) : Nat := n / 32

/-- The domain of District `k` is powered: its function is not OFF. -/
def State.distPowered (s : State) (k : Fin 8) : Bool := decide (s.dist[k].fn.st ≠ .off)
/-- District `k` is ON. -/
def State.distOn (s : State) (k : Fin 8) : Bool := decide (s.dist[k].fn.st = .on)
/-- A verified image runs (R31). -/
def State.fwRunning (s : State) : Bool := decide (s.boot.phase = .starting) || decide (s.boot.phase = .ready)
/-- DIE is in reset: steps 7-8 of R387, up to the boot ROM's ready point (R391, R473). -/
def State.dieInReset (s : State) : Bool :=
  match s.boot.phase with
  | .held | .released | .strapped | .sensed | .tested => true
  | .warm _ | .boot | .fuseAlarm | .verifying | .starting | .ready => false
/-- DIE is out of reset and the device is not stopped: commands and requests can be handled (R473, R430). -/
def State.dieUp (s : State) : Bool := !s.flt.stopped && !s.dieInReset
/-- Time in ns since the power came up; one strobe is 4 ns. -/
def State.now (s : State) : Nat := 4 * s.strobe

/-! Addresses (R63-R67). -/

/-- A decoded DRAM line: channel, row and line in the row. -/
structure LineAddr where
  ch : Fin 64
  row : RowAddr
  line : Nat
deriving DecidableEq, Repr

/-- Channel, layer, bank and row bits [15:7] of a page number, by mapping order (R65, R66); `ly` is the
number of layer bits. On a KV9208 the
spare row bit is address bit 37, which is 0 below its capacity. -/
def decodePage (v : Variant) (order : BitVec 2) (page : Nat) : Fin 64 × Nat × Nat × Nat :=
  let ly := match v with | .kv9216 => 4 | .kv9208 => 3
  let f := fun lo len => (page >>> lo) % 2 ^ len
  let chan := fun lo => (⟨f lo 6, Nat.mod_lt _ (by decide)⟩ : Fin 64)
  match order.toNat with
  | 0 => (chan 0, f 6 ly, f (6 + ly) 2, f (8 + ly) 9)
  | 1 => (chan ly, f 0 ly, f (6 + ly) 2, f (8 + ly) 9)
  | 2 => (chan 2, f 8 ly, f 0 2, f (8 + ly) 9)
  | _ => (chan 9, f 15 ly, f (15 + ly) 2, f 0 9)

/-- The line of a local DRAM address below the capacity (R63). -/
def State.decodeAddr (s : State) (a : Nat) : LineAddr :=
  let p := decodePage s.glb.variant s.glb.mapOrder (a / 131072)
  { ch := p.1,
    row := { layer := p.2.1, bank := p.2.2.1, row := 128 * p.2.2.2 + (a / 1024) % 128 },
    line := (a / 64) % 16 }

/-- The page number of channel, layer, bank and row [15:7]: the inverse of `decodePage` (R65, R66). -/
def encodePage (v : Variant) (order : BitVec 2) (ch layer bank hi : Nat) : Nat :=
  let ly := match v with | .kv9216 => 4 | .kv9208 => 3
  match order.toNat with
  | 0 => ch + layer * 2 ^ 6 + bank * 2 ^ (6 + ly) + hi * 2 ^ (8 + ly)
  | 1 => layer + ch * 2 ^ ly + bank * 2 ^ (6 + ly) + hi * 2 ^ (8 + ly)
  | 2 => bank + ch * 2 ^ 2 + layer * 2 ^ 8 + hi * 2 ^ (8 + ly)
  | _ => hi + ch * 2 ^ 9 + layer * 2 ^ 15 + bank * 2 ^ (15 + ly)

/-- Row number in a channel: layer, bank, DRAM row. -/
def rowKey (r : RowAddr) : Nat := (r.layer * 4 + r.bank) * 65536 + r.row
/-- The row of a row number. -/
def rowOfKey (k : Nat) : RowAddr := { layer := k / 262144, bank := (k / 65536) % 4, row := k % 65536 }
/-- Line number in a channel. -/
def LineAddr.key (l : LineAddr) : Nat := rowKey l.row * 16 + l.line
/-- Local address of line `i` of row number `k` of channel `ch`. -/
def State.addrOf (s : State) (ch k i : Nat) : Nat :=
  let r := rowOfKey k
  encodePage s.glb.variant s.glb.mapOrder ch r.layer r.bank (r.row / 128) * 131072 + (r.row % 128) * 1024 + i * 64

/-! The DRAM content: bytes by cell number. An unlisted byte reads 0 (log entry 2). -/

/-- The content of the layers as a list of cells. -/
abbrev Memory := List Host.Cell
/-- The byte of a cell. -/
def memRead (m : Memory) (k : Nat) : Byte := smGetD m k 0
/-- Write a byte; writing what an unlisted cell reads removes the entry. -/
def memWrite (m : Memory) (k : Nat) (b : Byte) : Memory := if b = 0 then smDel m k else smPut m k b
/-- The canonical form: keys strictly rise and no entry reads as an unlisted cell does. -/
def Memory.wf (m : Memory) : Bool := smWf m && m.all (fun c => c.2 != 0)
/-- Write bytes upwards from a cell. -/
def memWrites : Memory → Nat → List Byte → Memory
  | m, _, [] => m
  | m, k, b :: bs => memWrites (memWrite m k b) (k + 1) bs

/-- First cell of line number `key` of channel `ch`. -/
def lineCell (ch key : Nat) : Nat := (ch * 67108864 + key) * 80
/-- The stored line in the DRAM array. -/
def State.dramLine (s : State) (ch key : Nat) : SLine :=
  ofBytes 640 ((List.range 80).map (fun i => memRead s.dram (lineCell ch key + i)))
/-- Store a line in the DRAM array. -/
def State.setDramLine (s : State) (ch key : Nat) (l : SLine) : State :=
  { s with dram := memWrites s.dram (lineCell ch key) (toBytes l 80) }

/-! Fault events (R429-R437). -/

/-- Class code of a source: 0 unused, 1 CORRECTED, 2 CONTAINED, 3 FATAL (R429, R431). -/
def fltClass (id : Nat) : Nat :=
  if id = 0 then 0
  else if id ≤ 0x014 then
    if id = 0x002 || id = 0x014 then 3 else if id = 0x009 then 1 else 2
  else if id < 0x020 then 0
  else if id ≤ 0x026 then
    if id = 0x023 then 3 else if id = 0x024 || id = 0x025 then 2 else 1
  else if id < 0x100 then 0
  else if id < 0x180 then 2
  else if id < 0x1C0 then 1
  else if id < 0x240 then 2
  else if id < 0x300 then 0
  else if id < 0x340 then 1
  else if id < 0x380 then 2
  else if id < 0x3C0 then 1
  else if id < 0x400 then 2
  else if id < 0x480 then
    let k := (id - 0x400) / 8
    if k ≤ 3 || k = 9 || k = 12 || k = 15 then 1 else 2
  else if id < 0x490 then 2
  else 0

/-- Default reaction of a class (R442). -/
def fltDefault (cls : Nat) : BitVec 8 :=
  match cls with
  | 1 => 0x08 | 2 => 0x39 | 3 => 0x7A | _ => 0

/-- Source `id` as a cold reset leaves it. -/
def fltSource0 (id : Nat) : FltSource := { reaction := fltDefault (fltClass id) }
/-- Source `id` at the collector. -/
def Flt.src (f : Flt) (id : Nat) : FltSource := smGetD f.srcs id (fltSource0 id)
/-- Update source `id`. -/
def Flt.modSrc (f : Flt) (id : Nat) (g : FltSource → FltSource) : Flt := { f with srcs := smPut f.srcs id (g (f.src id)) }

/-- Source IDs (R431). -/
def evReportWire : Nat := 0x001
def evRefclkLoss : Nat := 0x002
def evFwVerifyFail : Nat := 0x003
def evFuseAlarm : Nat := 0x004
def evFuseCrc : Nat := 0x005
def evFuseParity : Nat := 0x006
def evFuseProgFail : Nat := 0x007
def evAddrInvalid : Nat := 0x008
def evPageMigrated : Nat := 0x009
def evTreeFail : Nat := 0x00A
def evKeyEmpty : Nat := 0x00B
def evStickyOverflow : Nat := 0x00C
def evClassInvalid : Nat := 0x00D
def evConsFail : Nat := 0x00E
def evSealFail : Nat := 0x00F
def evHopLimit : Nat := 0x010
def evMasterConflict : Nat := 0x011
def evCmdRingFail : Nat := 0x012
def evWqCmplFail : Nat := 0x013
def evCoreFail : Nat := 0x014
def evThermHot : Nat := 0x020
def evThermThrottle : Nat := 0x021
def evThermScale : Nat := 0x022
def evThermTrip : Nat := 0x023
def evFlowLoss : Nat := 0x024
def evSensorFail : Nat := 0x025
def evPowerLimit : Nat := 0x026
def evTsvErasure (n : Nat) : Nat := 0x100 + n
def evChannelOffline (n : Nat) : Nat := 0x140 + n
def evEccCe (n : Nat) : Nat := 0x180 + n
def evEccUe (n : Nat) : Nat := 0x1C0 + n
def evTagFail (n : Nat) : Nat := 0x200 + n
def evLaneRetrain (p : Nat) : Nat := 0x300 + p
def evLinkDown (p : Nat) : Nat := 0x340 + p
def evLinkReplay (p : Nat) : Nat := 0x380 + p
def evCreditResync (p : Nat) : Nat := 0x3C0 + p
def evHostAddrMiss (h : Nat) : Nat := 0x480 + h
def evHostWrRefused (h : Nat) : Nat := 0x488 + h
/-- District kinds of R431, with a channel, engine or port number of the District. -/
def evDist (k n : Nat) : Nat := 0x400 + 8 * k + n / 8
def evTsvParity := evDist 0
def evTsvSpareUsed := evDist 1
def evTsvSpareFailed := evDist 2
def evTsvDrift := evDist 3
def evTsvParityLost := evDist 4
def evTsvClockSpare := evDist 5
def evCaLockout := evDist 6
def evWriteLost := evDist 7
def evScrubUe := evDist 8
def evRemapFull := evDist 9
def evSelftestFail := evDist 10
def evLineSealed := evDist 11
def evGuaranteeBreach := evDist 12
def evEngInternal := evDist 13
def evLinkDegraded := evDist 14
def evPeerDetach := evDist 15

/-- ACCESS codes of R437. -/
def acNone : Nat := 0x00
def acLineRead : Nat := 0x01
def acLineWrite : Nat := 0x02
def acPartial : Nat := 0x03
def acRowRead : Nat := 0x04
def acRowWrite : Nat := 0x05
def acEngineRead : Nat := 0x06
def acScrub : Nat := 0x07
def acRewrite : Nat := 0x08
def acWalk : Nat := 0x09
def acWriteBack : Nat := 0x0A
def acCommand : Nat := 0x0B
def acWindow : Nat := 0x0C
def acMailbox : Nat := 0x0D
def acDispatch : Nat := 0x0F
def acLink : Nat := 0x10
def acSequencer : Nat := 0x11
def acFuse : Nat := 0x12
def acSensor : Nat := 0x13
def acForced : Nat := 0x3F

/-- The ACCESS code of a request (R437). -/
def accessOf : ReqKind → Nat
  | .lineRead => acLineRead
  | .lineWrite _ _ => acLineWrite
  | .partialWrite _ _ => acPartial
  | .rowRead _ => acRowRead
  | .rowWrite _ _ => acRowWrite
  | .opDispatch _ _ => acDispatch

/-- The DETAIL of R436: UNIT and INFO. -/
def detail (unit info : Nat) : Nat := (unit % 256) * 4294967296 + info % 4294967296

/-- A source reports an event with the 52-bit ADDR given whole (R432, R434): its details are captured, or
merged where the handshake is under way. A broken wire carries nothing (R433). -/
def State.logAddr (s : State) (id : Nat) (addr : Nat) (access : Nat := 0) (master : MasterId := 0)
    (status : Nat := 0) (forced : Bool := false) : State :=
  { s with flt := s.flt.modSrc id (fun x =>
      if x.broken then x else
      match x.capture with
      | some _ => { x with count := satAdd x.count 1 }
      | none => { x with capture := some {
          addr := BitVec.ofNat 52 addr, access := BitVec.ofNat 6 access, master := master,
          status := BitVec.ofNat 4 status, forced := forced, time := s.flt.time } }) }

/-- A source reports an event: ADDR[51:40] is this node's ID and ADDR[39:0] the local line address or DETAIL (R434). -/
def State.log (s : State) (id : Nat) (lo : Nat := 0) (access : Nat := 0) (master : MasterId := 0) (status : Nat := 0) : State :=
  s.logAddr id (s.fab.nodeId.toNat * 1099511627776 + lo % 1099511627776) access master status

/-! Interrupts (R359). -/

/-- Raise an MSI-X message on a host port, or set its pending bit. -/
def State.msix (s : State) (h : Fin 8) (v : BitVec 8) : State :=
  let p := s.hosts[h]
  let e := smGetD p.msix v.toNat {}
  if p.linkUp && p.msixEn && !p.msixMask && !e.masked then s.emit (.msix h v e.addr e.data)
  else s.modHost h (fun p => { p with pba := setBit p.pba v.toNat true })

/-! Recovery epochs (R246). -/

/-- A channel epoch increments, and the node epoch with it. -/
def State.bumpEpoch (s : State) (n : Fin 64) : State :=
  let s := s.modCtl n (fun c => { c with epoch := c.epoch + 1 })
  { s with glb := { s.glb with nodeEpoch := s.glb.nodeEpoch + 1 } }

/-- A link epoch increments, and the node epoch with it. -/
def State.bumpLinkEpoch (s : State) (l : SubLink) : State :=
  let s := s.modSub l (fun u => { u with epoch := u.epoch + 1 })
  { s with glb := { s.glb with nodeEpoch := s.glb.nodeEpoch + 1 } }

/-- A request, job, walk or scrub read starts: a conservation check that runs ends ABORTED (R250). -/
def State.started (s : State) : State :=
  if s.glb.cons.running then { s with glb := { s.glb with cons := { s.glb.cons with aborted := true } } } else s

/-! The planes of the die (R232, R233). -/

/-- Whether a request writes. -/
def isWrite : ReqKind → Bool
  | .lineRead | .rowRead _ => false
  | .lineWrite _ _ | .partialWrite _ _ | .rowWrite _ _ | .opDispatch _ _ => true
/-- The request names a whole row. -/
def isRow : ReqKind → Bool
  | .rowRead _ | .rowWrite _ _ => true
  | _ => false
/-- The request replaces every line that it names. -/
def isFull : ReqKind → Bool
  | .lineWrite _ _ | .rowWrite _ _ => true
  | _ => false
/-- The request goes to the dispatcher and not to a slice. -/
def isDispatch : ReqKind → Bool
  | .opDispatch _ _ => true
  | _ => false

/-- Buffer entries of a request and of its completion: a row takes 16 along its path (R232). -/
def reqEntries (k : ReqKind) : Nat := if isRow k then 16 else 1

/-- The District of a master port's switch: `none` for the control cores, which the Plaza joins (R221, R229). -/
def portDist (j : Fin 140) : Option (Fin 8) :=
  if j.val < 8 then some ⟨j.val % 8, Nat.mod_lt _ (by decide)⟩
  else if j.val < 72 then some ⟨(j.val - 8) / 8 % 8, Nat.mod_lt _ (by decide)⟩
  else if j.val < 136 then some ⟨(j.val - 72) / 8 % 8, Nat.mod_lt _ (by decide)⟩
  else none
/-- The hop that a master port adjoins. -/
def portSpot (j : Fin 140) : Spot := match portDist j with | some k => .sw k | none => .plaza
/-- The engine of a master port, if it is one. -/
def portOfEngine (j : Fin 140) : Option (Fin 64) :=
  if 72 ≤ j.val && j.val < 136 then some ⟨(j.val - 72) % 64, Nat.mod_lt _ (by decide)⟩ else none

/-- Where the completion of a request begins: at the switch of the slice that served it, else in the Plaza, which joins the control
island and the fabric router (R232). -/
def State.cmpSource (s : State) (r : Req) : Spot :=
  if r.node = s.fab.nodeId && decide (r.addr.toNat < s.glb.variant.capacity) && !isDispatch r.kind then
    .sw (distOf (s.decodeAddr r.addr.toNat).ch)
  else .plaza

/-- Credits of a hop are taken as an item enters it, and return as it leaves (R233). -/
def takeCredit (cr : Vector Nat 9) (h : Spot) (n : Nat) : Vector Nat 9 := vmod cr h.ix (fun x => x - n)
def giveCredit (cr : Vector Nat 9) (h : Spot) (n : Nat) : Vector Nat 9 := vmod cr h.ix (fun x => x + n)
/-- An item's entries return, where it holds any. -/
def giveSpot (cr : Vector Nat 9) (o : Option Spot) (n : Nat) : Vector Nat 9 :=
  match o with | some h => giveCredit cr h n | none => cr

/-- An item of `n` entries moves on while the next hop holds a credit for every entry it needs (R233): the credits, where it stands then,
and the hops that it has left. -/
def carMove (n : Nat) : List Spot → Option Spot → Vector Nat 9 → Vector Nat 9 × Option Spot × List Spot × List Spot
  | [], at_, cr => (cr, at_, [], [])
  | h :: t, at_, cr =>
    if cr[h.ix] < n then (cr, at_, h :: t, [])
    else
      let r := carMove n t (some h) (giveSpot (takeCredit cr h n) at_ n)
      (r.1, r.2.1, r.2.2.1, at_.toList ++ r.2.2.2)

/-- Items that hops have forwarded (R252, R253). -/
def State.countFwd (s : State) (hs : List Spot) : State :=
  hs.foldl (fun s h => match h with
    | .sw k => s.modDist k (fun d => { d with swFwd := satAdd d.swFwd 1 })
    | .plaza => { s with glb := { s.glb with plzFwd := satAdd s.glb.plzFwd 1 } }) s

/-! Completions (R234-R236). -/

/-- A completion sets out for port `j` from a hop. -/
def State.giveCmp (s : State) (j : Fin 140) (h : Spot) (c : Completion) : State :=
  s.modMport j (fun p => { p with inflight := p.inflight ++ [{ load := c, todo := spotPath h (portSpot j) }] })

/-- Send the completion of a request towards the port that issued it. -/
def State.complete (s : State) (c : Completion) : State :=
  match c.req.origin with
  | .port j _ => s.giveCmp j (s.cmpSource c.req) c
  | .stack => s

/-- Complete a request of channel `n` with a status and data, with the channel's epoch (R236). Data are omitted unless OK. -/
def State.completeAt (s : State) (n : Fin 64) (r : Req) (st : CStatus) (data : List (BitVec 512) := [])
    (ls : BitVec 16 := 0) : State :=
  s.complete { req := r, status := st, data := data, lineStatus := ls, epoch := s.chs[n].ctl.epoch }

end Sys2Proof.Machine
end

