-- ==== Sys2Proof/Machine/FuseData.lean ====
section
/-! DEFINITION. The fuse array as the part holds it: regions, the contents as shipped, shadows, marginal words,
locks, check words and policy fields (R408-R426). -/

namespace Sys2Proof.Machine

/-- First word of a region (R408). -/
def regionFirst (r : Nat) : Nat :=
  match r with
  | 0 => 0 | 1 => 16 | 2 => 528 | 3 => 784 | 4 => 848 | 5 => 864 | 6 => 896 | _ => 960
/-- Check word of a region: its last word (R408). -/
def regionLast (r : Nat) : Nat :=
  match r with
  | 0 => 15 | 1 => 527 | 2 => 783 | 3 => 847 | 4 => 863 | 5 => 895 | 6 => 959 | _ => 2047
/-- The region of a word. -/
def regionOf (w : Nat) : Nat := ((List.range 8).find? (fun r => w ≤ regionLast r)).getD 7
/-- Words under a region's check word, ascending (R419). -/
def regionWords (r : Nat) : List Nat :=
  if r = 7 then (List.range 1079).map (fun i => 968 + i)
  else ((List.range (regionLast r - regionFirst r)).map (fun i => regionFirst r + i)).filter (fun w => w ≠ 832)
/-- The CRC of a region over given word contents (R419). -/
def regionCrc (f : Nat → W32) (r : Nat) : W32 := crc32 ((regionWords r).flatMap (fun w => toBytes (f w) 4))

/-- A word as shipped, but for check words (R408, R409, R414): Yelrak's regions hold contents of one part (log entry 5). -/
def factoryData (v : Variant) (w : Nat) : W32 :=
  if w = 3 then Config.factoryWord w &&& 0xFFFFFF00#32
  else if w = 4 then 0x00010100#32 ||| (match v with | .kv9216 => 0x16#32 | .kv9208 => 0x08#32)
  else if 5 ≤ w && w < 15 then 0
  else if w < 784 then Config.factoryWord w
  else if 848 ≤ w && w < 856 then Config.factoryWord w
  else if w = 960 || w = 961 || w = 962 || w = 964 then 0x00010001#32
  else 0
/-- A word as shipped: the check words of the locked regions verify. -/
def factoryContent (v : Variant) (w : Nat) : W32 :=
  if w = 15 || w = 527 || w = 783 || w = 863 then regionCrc (factoryData v) (regionOf w) else factoryData v w

/-- The fuses of a word. -/
def State.fuseWord (s : State) (w : Nat) : W32 := smGetD s.fuse.blown w (factoryContent s.glb.variant w)
/-- The shadow of a word (R410): the normal-margin value that sensing or programming read. -/
def State.shadowWord (s : State) (w : Nat) : W32 :=
  if s.fuse.sensed then smGetD s.fuse.shadow w (s.fuseWord w) else 0
/-- A word is marginal (R410). -/
def State.fuseMarginal (s : State) (w : Nat) : Bool := s.fuse.marginal.contains w
/-- A region holds a marginal word. -/
def State.regionMarginal (s : State) (r : Nat) : Bool := s.fuse.marginal.any (fun w => regionOf w == r)
/-- The marginal mark that software sees (R415): regions 4 and 5 report as a whole. -/
def State.marginalShown (s : State) (w : Nat) : Bool :=
  if regionOf w = 4 || regionOf w = 5 then s.regionMarginal (regionOf w) else s.fuseMarginal w

/-- LOCK_A and LOCK_B of a region (R420). -/
def State.lockFuses (s : State) (r : Nat) : Bool × Bool :=
  (bit (s.shadowWord (960 + r)) 0, bit (s.shadowWord (960 + r)) 16)
/-- A region is locked (R420); region 7 has no lock. -/
def State.regionLocked (s : State) (r : Nat) : Bool :=
  r != 7 && ((s.lockFuses r).1 || (s.lockFuses r).2 || s.fuseMarginal (960 + r))

/-- A policy field of word 896 (R425, R426): either of its two fuses, or a marginal word. Fields: 0 DEBUG_DISABLE,
1 I3C_FW_DISABLE, 2 MARGIN_HALT. -/
def State.fusePolicy (s : State) (i : Nat) : Bool :=
  bit (s.shadowWord 896) i || bit (s.shadowWord 896) (16 + i) || s.fuseMarginal 896

/-- Words of digest slot i (R422). -/
def slotWordsOf (i : Nat) : List Nat := (List.range 12).map (fun k => 784 + 12 * i + k)
/-- Slot i is programmed (R422). -/
def State.digestProgrammed (s : State) (i : Nat) : Bool := (slotWordsOf i).any (fun w => s.shadowWord w != 0)
/-- Slot i is revoked by a value of word 832 (R423). -/
def revokedBy (v : W32) (i : Nat) : Bool := bit v i || bit v (i + 16)
/-- Slot i is usable (R423, R424). -/
def State.digestUsable (s : State) (i : Nat) : Bool :=
  s.digestProgrammed i && !revokedBy (s.shadowWord 832) i && !s.fuseMarginal 832 &&
  !((slotWordsOf i).any s.fuseMarginal) && !bit s.fuse.crcBad 3
/-- The 48 bytes of a digest slot (R422). -/
def State.digestBytes (s : State) (i : Nat) : List Byte := (slotWordsOf i).flatMap (fun w => toBytes (s.shadowWord w) 4)

/-- The serial number (R409). -/
def State.serial (s : State) : W64 := (s.shadowWord 1) ++ (s.shadowWord 0)

end Sys2Proof.Machine
end

