-- ==== Sys2Proof/Machine/Rights.lean ====
section
/-! DEFINITION. Who may access the management window: rights, classes of registers, denial, blocks that
are off or in reset (R464-R473). -/

namespace Sys2Proof.Machine

/-- A pattern of R124 matches an identity (R125). -/
def patMatch (pat : W64) (m : MasterId) : Bool :=
  bit pat 63 && decide (m &&& pat.extractLsb' 20 20 = pat.extractLsb' 0 20 &&& pat.extractLsb' 20 20)

/-- A grant pattern with node 0xFFF of VALUE replaced by this node's current ID (R468). -/
def State.grantPat (s : State) (pat : W64) : W64 :=
  if pat.extractLsb' 8 12 = 0xFFF#12 then (pat &&& ~~~(0xFFF00#64)) ||| (s.fab.nodeId.setWidth 64 <<< 8) else pat

/-- The rights of a master on a path (R467). -/
structure Rights where
  read : Bool
  write : Bool
  core : Bool
deriving DecidableEq, Repr

/-- An agent number of a control core (R21). -/
def isCoreAgent (m : MasterId) : Bool := decide (0x50 ≤ m.agent.toNat) && decide (m.agent.toNat ≤ 0x53)

/-- CORE: this node's control cores, and those of node 0x000 over Scezo (R467). -/
def isCore (p : Path) (m : MasterId) : Bool :=
  match p with
  | .core _ => true
  | .scezo _ _ => isCoreAgent m && decide (m.node = 0#12)
  | _ => false

/-- DEBUG_DISABLE of fuse region 6 (R425, R426): it takes WRITE from I3C (R467). -/
def State.debugDisable (s : State) : Bool := s.fusePolicy 0

/-- The rights of a master (R467, R468). -/
def State.rights (s : State) (p : Path) (m : MasterId) : Rights :=
  if isCore p m then { read := true, write := true, core := true }
  else match p with
    | .i3c => { read := true, write := !s.debugDisable, core := false }
    | _ =>
      let g := s.glb.grants.toList.map s.grantPat
      { read := g.any (fun q => patMatch q m && bit q 62), write := g.any (fun q => patMatch q m && bit q 61),
        core := false }

/-- The families of R464. -/
inductive Family where
  | glb | fuse | flt | mbx | thm | cmd
  | chs (n : Fin 64) | dist (k : Fin 8) | port (p : Fin 64) | host (h : Fin 8)
  | fab | key | pat | none
deriving DecidableEq, Repr

/-- The family of a window offset and the offset within the instance (R464). -/
def familyOf (off : Nat) : Family × Nat :=
  if off < 0x010000 then (.glb, off)
  else if off < 0x020000 then (.fuse, off - 0x010000)
  else if off < 0x030000 then (.flt, off - 0x020000)
  else if off < 0x040000 then (.mbx, off - 0x030000)
  else if off < 0x050000 then (.thm, off - 0x040000)
  else if off < 0x090000 then (.cmd, off - 0x050000)
  else if off < 0x100000 then (.none, 0)
  else if off < 0x200000 then (.chs ⟨((off - 0x100000) / 0x4000) % 64, Nat.mod_lt _ (by decide)⟩, (off - 0x100000) % 0x4000)
  else if off < 0x280000 then (.dist ⟨((off - 0x200000) / 0x10000) % 8, Nat.mod_lt _ (by decide)⟩, (off - 0x200000) % 0x10000)
  else if off < 0x300000 then (.none, 0)
  else if off < 0x340000 then (.port ⟨((off - 0x300000) / 0x1000) % 64, Nat.mod_lt _ (by decide)⟩, (off - 0x300000) % 0x1000)
  else if off < 0x400000 then (.none, 0)
  else if off < 0x408000 then (.host ⟨((off - 0x400000) / 0x1000) % 8, Nat.mod_lt _ (by decide)⟩, (off - 0x400000) % 0x1000)
  else if off < 0x500000 then (.none, 0)
  else if off < 0x510000 then (.fab, off - 0x500000)
  else if off < 0x600000 then (.none, 0)
  else if off < 0x610000 then (.key, off - 0x600000)
  else if off < 0x800000 then (.none, 0)
  else (.pat, off - 0x800000)

/-- Window offset of a register of each repeated family. -/
def offChs (n : Fin 64) (o : Nat) : Nat := 0x100000 + n.val * 0x4000 + o
def offDist (k : Fin 8) (o : Nat) : Nat := 0x200000 + k.val * 0x10000 + o
def offPort (p : Fin 64) (o : Nat) : Nat := 0x300000 + p.val * 0x1000 + o
def offHost (h : Fin 8) (o : Nat) : Nat := 0x400000 + h.val * 0x1000 + o

/-- The rows of the table of R469. -/
inductive RegClass where
  | open_      -- BASIC reads; WRITE writes
  | direct     -- every master reads and writes
  | doorbell   -- every master reads; writes under R338 and R355
  | mailbox    -- R367
  | grant      -- READ reads; CORE writes
  | mapOrder   -- READ reads; WRITE writes ORDER; CORE sets LOCK
  | patWin     -- READ reads; WRITE writes under R29
  | other      -- READ reads; WRITE writes
deriving DecidableEq, Repr

/-- The row of R469 for a window offset. -/
def regClass (off : Nat) : RegClass :=
  match familyOf off with
  | (.glb, o) =>
    if o < 0x10 || (0x300 ≤ o && o < 0x318) then .open_
    else if 0x40 ≤ o && o < 0xC0 then .grant
    else if o = 0x100 then .mapOrder
    else .other
  | (.fuse, _) | (.flt, _) | (.thm, _) => .open_
  | (.mbx, _) => .mailbox
  | (.cmd, o) =>
    if o < 0x4 then .open_
    else if 0x800 ≤ o && o < 0x854 then .direct
    else if (0x100 ≤ o && o < 0x500 && o % 0x20 = 8) || 0x20000 ≤ o then .doorbell
    else .other
  | (.pat, _) => .patWin
  | _ => .other

/-- Whether rights allow a read of a register class (R469). The mailbox rows apply R367 themselves. -/
def allowRead (r : Rights) : RegClass → Bool
  | .open_ | .direct | .doorbell | .mailbox => true
  | .grant | .mapOrder | .patWin | .other => r.read || r.write || r.core

/-- Whether rights allow a write of a register class (R469). -/
def allowWrite (r : Rights) : RegClass → Bool
  | .direct | .doorbell | .mailbox => true
  | .open_ | .other | .mapOrder | .patWin => r.write || r.core
  | .grant => r.core

/-- Count and record a denial (R470). -/
def State.deny (s : State) (p : Path) (m : MasterId) (write : Bool) : State :=
  let s := { s with glb := { s.glb with denied := satAdd s.glb.denied 1, lastDenied := at32 31 (b2n write) ||| m.setWidth 32 } }
  match p with
  | .i3c => { s with boot := { s.boot with i3cRefused := true } }
  | _ => s

/-- The families that AON answers while DIE is in reset or stopped (R473): GLB.MGMT_GRANT, GLB.RESET_CAUSE,
FUSE, FLT, THM, and the bindings and lock of MBX. -/
def aonOffset (off : Nat) : Bool :=
  match familyOf off with
  | (.fuse, _) | (.flt, _) | (.thm, _) => true
  | (.glb, o) => (0x40 ≤ o && o < 0xC0) || (0x304 ≤ o && o < 0x308)
  | (.mbx, o) => (o < 0x1000 && o % 0x40 < 8) || o == 0x1000
  | _ => false

/-- The District whose domain holds a register, except the registers that are kept and readable while the
District is off (R472). -/
def homeDistrict (off : Nat) : Option (Fin 8) :=
  match familyOf off with
  | (.chs n, o) => if o = 0x42C || o = 0x1008 then none else some (distOf n)
  | (.dist k, o) => if o < 0x4 then none else some k
  | (.port p, o) =>
    if o < 0x4 || (0x400 ≤ o && o < 0x800 && (o % 0x100 = 4)) then none else some (distOf p)
  | (.host h, o) => if 0xE00 ≤ o then none else some h
  | _ => none

/-- The District of the register is OFF (R472). -/
def State.blockOff (s : State) (off : Nat) : Bool :=
  match homeDistrict off with
  | some k => !s.distPowered k
  | none => false

/-- The path reaches the window now (R473): only I3C does while DIE is in reset or stopped, and it reaches
AON registers only; I3C serves from the end of fuse sensing (R396). -/
def State.reaches (s : State) (p : Path) (off : Nat) : Bool :=
  if s.dieUp then true
  else match p with
    | .i3c => s.fuse.sensed && aonOffset off
    | _ => false

/-- The outcome of an access to the window. -/
inductive Access where
  | ok | denied | down | absent
deriving DecidableEq, Repr

/-- The completion status of an access over MGMT_RD or MGMT_WR (R470, R472). -/
def Access.status : Access → CStatus
  | .ok | .absent => .ok
  | .denied => .notPermitted
  | .down => .domainDown

/-- What becomes of a write by a master over a path at an offset (R469-R473). -/
def State.writeAccess (s : State) (p : Path) (m : MasterId) (off : Nat) : Access :=
  if !s.reaches p off then .absent
  else if !allowWrite (s.rights p m) (regClass off) then .denied
  else if s.blockOff off then .down
  else .ok

/-- What becomes of a read. -/
def State.readAccess (s : State) (p : Path) (m : MasterId) (off : Nat) : Access :=
  if !s.reaches p off then .absent
  else if !allowRead (s.rights p m) (regClass off) then .denied
  else if s.blockOff off then .down
  else .ok

/-- Carry out a register write where it is allowed; count the denial where it is denied. -/
def State.guardWrite (s : State) (p : Path) (m : MasterId) (off : Nat) (f : State → State) : State :=
  match s.writeAccess p m off with
  | .ok => f s
  | .denied => s.deny p m true
  | .down | .absent => s

/-- As `guardWrite`, for a register that its chapter reserves to CC0-CC3 (last rows of R469): a write by
another master with WRITE is ignored. -/
def State.guardCore (s : State) (p : Path) (m : MasterId) (off : Nat) (f : State → State) : State :=
  s.guardWrite p m off (fun s => if isCore p m then f s else s)

end Sys2Proof.Machine
end

