-- ==== Sys2Proof/Machine/Faults.lean ====
section
/-! DEFINITION. The fault collector: reports, records, reactions, pins, and the FLT registers
(17_faults, R429-R448). -/

namespace Sys2Proof.Machine

/-- The two event classes that the first-error record takes (R438). -/
def serious (cls : Nat) : Bool := decide (2 ≤ cls)

/-- Count a handled report in its class (R448). -/
def Flt.countClass (f : Flt) (cls : Nat) : Flt :=
  match cls with
  | 1 => { f with countCorr := satAdd f.countCorr 1 }
  | 2 => { f with countCont := satAdd f.countCont 1 }
  | 3 => { f with countFatal := satAdd f.countFatal 1 }
  | _ => f

/-- The first-error record (R438). -/
def Flt.firstError (f : Flt) (r : FaultRec) : Flt :=
  if !serious r.cls.toNat then f
  else match f.first with
    | none => { f with first := some r }
    | some _ => { f with firstMultiple := true, fatalLater := f.fatalLater || decide (r.cls = 3#2) }

/-- The history ring (R439). -/
def Flt.history (f : Flt) (r : FaultRec) : Flt :=
  match smGet? f.hist f.newest with
  | some n =>
    if f.held ≠ 0 && n.source = r.source && n.addr = r.addr then
      { f with hist := smPut f.hist f.newest { n with rep := satAdd n.rep 1 } }
    else
      let i := (f.newest + 1) % 32
      { f with
        hist := smPut f.hist i r, newest := i, held := if f.held < 32 then f.held + 1 else 32,
        histLost := if f.held < 32 then f.histLost else satAdd f.histLost 1 }
  | none => { f with hist := smPut f.hist 0 r, newest := 0, held := 1 }

/-- Drive the pins that a reaction names (R441, R443, R444). -/
def Flt.pins (f : Flt) (reaction : BitVec 8) (cls : Nat) (now : Nat) : Flt :=
  let f := if bit reaction 6 then { f with faultLow := true, faultHold := true, faultSince := now } else f
  if bit reaction 5 then
    { f with alertPend := setBit f.alertPend (cls - 1) true, alertLow := true, alertSince := now }
  else f

/-- Raise the collector's interrupt vector (R445). -/
def State.fltIrq (s : State) (reaction : BitVec 8) : State :=
  let v := fieldN reaction 0 3
  if !bit reaction 4 || bit s.flt.irqPend v then s
  else
    let s := { s with flt := { s.flt with irqPend := setBit s.flt.irqPend v true } }
    (fins 8).foldl (fun s h => if bit s.flt.hostPorts h.val then s.msix h (BitVec.ofNat 8 v) else s) s

/-- A cause asks for a warm reset (R384): the cause of RESET_CAUSE, unless one has been asked for or a
warm-reset sequence runs or the stack is held in reset (R388). -/
def State.askWarm (s : State) (cause : Nat) : State :=
  match s.boot.warmReq, s.boot.phase with
  | some _, _ => s
  | none, .warm _ => s
  | none, .held => s
  | none, _ => { s with boot := { s.boot with warmReq := some cause } }

/-- Enter a record and carry out the reaction of its source, in the order of R441. -/
def State.react (s : State) (id : Nat) (r : FaultRec) : State :=
  let rx := (s.flt.src id).reaction
  let f := (s.flt.countClass r.cls.toNat).firstError r
  let f := if bit rx 3 then f.history r else f
  let s := { s with flt := f.pins rx r.cls.toNat s.now }
  let s := s.fltIrq rx
  if bit rx 7 then s.askWarm 7 else s

/-- The record of a captured event (R434). -/
def State.recordOf (s : State) (id : Nat) (c : Capture) : FaultRec :=
  { source := BitVec.ofNat 12 id, addr := c.addr, cls := BitVec.ofNat 2 (fltClass id), access := c.access,
    master := c.master, rep := 0, status := c.status, forced := c.forced, broken := false,
    approx := s.dieInReset, time := c.time }

/-- The collector handles the report of a source whose handshake is under way (R440). -/
def State.handleReport (s : State) (id : Nat) : State :=
  match (s.flt.src id).capture with
  | none => s
  | some c =>
    let r := s.recordOf id c
    ({ s with flt := s.flt.modSrc id (fun x => { x with capture := none, count := satAdd x.count 1 }) }).react id r

/-- FAULT_REPORT (R440). -/
def execFaultReport (source : BitVec 12) (s : State) : Res := .next (s.handleReport source.toNat)

/-- REPORT_WIRE (R433): the wire pair of a source has been invalid for longer than 1 µs. The collector enters REPORT_WIRE
first, then applies the source's reaction. -/
def execReportWire (source : BitVec 12) (s : State) : Res :=
  let id := source.toNat
  if fltClass id = 0 || (s.flt.src id).broken then .next s
  else
    let s := { s with flt := { s.flt.modSrc id (fun x => { x with broken := true, capture := none, count := satAdd x.count 1 })
      with wireFault := true } }
    let s := (s.log evReportWire (detail 0 id)).handleReport evReportWire
    .next (s.react id
      { source := source, addr := BitVec.ofNat 52 (s.fab.nodeId.toNat * 1099511627776),
        cls := BitVec.ofNat 2 (fltClass id), access := 0, master := 0, rep := 0, status := 0, forced := false,
        broken := true, approx := s.dieInReset, time := s.flt.time })

/-- FAULT_N_RELEASE (R443): FAULT_N rises 10 µs after its last event once FAULT_HOLD reads 0; a device stop holds it (R430). -/
def execFaultNRelease (s : State) : Res :=
  if s.flt.faultLow && !s.flt.faultHold && !s.flt.stopped && decide (s.flt.faultSince + 10000 ≤ s.now) then
    .next { s with flt := { s.flt with faultLow := false } }
  else .next s

/-- ALERT_N_RELEASE (R444): ALERT_N rises once every ALERT_PEND bit is clear and 1 µs has passed. -/
def execAlertNRelease (s : State) : Res :=
  if s.flt.alertLow && decide (s.flt.alertPend = 0#3) && decide (s.flt.alertSince + 1000 ≤ s.now) then
    .next { s with flt := { s.flt with alertLow := false } }
  else .next s

/-- Clear FAULT_HOLD (R443). -/
def State.clearHold (s : State) : State := { s with flt := { s.flt with faultHold := false } }

/-- FAULT_HOLD_CLEAR (R443, R471): software writes 1 to FLT.PIN.FAULT_HOLD. -/
def execFaultHoldClear (p : Path) (m : MasterId) (s : State) : Res :=
  .next (s.guardWrite p m 0x020004 State.clearHold)

/-- A source reports one forced event (R447). -/
def State.forceEvent (s : State) (id : Nat) (issuer : MasterId) : State :=
  if fltClass id = 0 then s
  else s.logAddr id (s.fab.nodeId.toNat * 1099511627776) acForced issuer 0 true

/-- SRC_FORCE (R447, R448): a write of 1 to FLT.SRC[s].FORCE, reserved to CC0-CC3. -/
def execSrcForce (p : Path) (m : MasterId) (source : BitVec 12) (s : State) : Res :=
  .next (s.guardCore p m (0x024000 + 4 * source.toNat) (fun s => s.forceEvent source.toNat m))

/-- COLLECTOR_TIME_RELOAD (R435): the collector reloads its copy of fabric time while DIE is out of reset. -/
def execCollectorTimeReload (s : State) : Res :=
  if s.dieInReset then .next s else .next { s with flt := { s.flt with time := s.fab.time } }

/-! The FLT registers (R448). -/

/-- The four quadwords of a record (R434). -/
def recQuad (r : FaultRec) (q : Nat) : W64 :=
  match q with
  | 0 => (r.source ++ r.addr)
  | 1 => at64 62 r.cls.toNat ||| at64 56 r.access.toNat ||| at64 36 r.master.toNat ||| at64 28 r.rep.toNat |||
      at64 24 r.status.toNat ||| at64 23 (b2n r.forced) ||| at64 22 (b2n r.broken) ||| at64 21 (b2n r.approx)
  | 2 => r.time
  | _ => 0
/-- The 32-byte record as one word (R434). -/
def recBits (r : FaultRec) : BitVec 256 := recQuad r 3 ++ recQuad r 2 ++ recQuad r 1 ++ recQuad r 0
/-- An absent record reads 0. -/
def recBits? (r : Option FaultRec) : BitVec 256 := match r with | some r => recBits r | none => 0

/-- FLT.STATUS. -/
def Flt.status (f : Flt) : W32 :=
  at32 31 (b2n f.first.isSome) ||| at32 30 (b2n f.firstMultiple) ||| at32 29 (b2n f.fatalLater) |||
  at32 28 (b2n f.stopped) ||| at32 27 (b2n f.wireFault)
/-- FLT.PIN. -/
def Flt.pin (f : Flt) : W32 :=
  at32 31 (b2n f.faultHold) ||| at32 30 (b2n (f.faultLow || f.stopped)) ||| at32 29 (b2n f.alertLow) ||| f.alertPend.setWidth 32

/-- The record that a FLT.FIRST or FLT.HIST offset belongs to, and the offset of its word 0. -/
def Flt.recordAt (f : Flt) (o : Nat) : Option (Nat × BitVec 256) :=
  if 0x40 ≤ o && o < 0x60 then some (0x40, recBits? f.first)
  else if 0x100 ≤ o && o < 0x500 then
    let i := (o - 0x100) / 32
    some (0x100 + 32 * i, recBits? (smGet? f.hist i))
  else none

/-- Read of an FLT register without its latch. -/
def Flt.read (f : Flt) (o : Nat) : W32 :=
  match o with
  | 0x00 => f.status
  | 0x04 => f.pin
  | 0x08 => f.hostPorts.setWidth 32 <<< 8
  | 0x0C => f.irqPend.setWidth 32
  | 0x10 => f.countCorr
  | 0x14 => f.countCont
  | 0x18 => f.countFatal
  | 0x1C => at32 8 f.newest ||| at32 0 f.held
  | 0x20 => f.histLost
  | _ =>
    match f.recordAt o with
    | some (b, r) => r.extractLsb' (8 * (o - b)) 32
    | none =>
      if 0x4000 ≤ o && o < 0x8000 then
        let id := (o - 0x4000) / 4
        if fltClass id = 0 then 0
        else
          let x := f.src id
          at32 30 (fltClass id) ||| at32 28 (b2n x.broken) ||| at32 16 x.count.toNat ||| x.reaction.setWidth 32
      else 0

/-- The clearing effect of reading an FLT counter (RC). -/
def Flt.clearRead (f : Flt) (o : Nat) : Flt :=
  match o with
  | 0x10 => { f with countCorr := 0 }
  | 0x14 => { f with countCont := 0 }
  | 0x18 => { f with countFatal := 0 }
  | 0x20 => { f with histLost := 0 }
  | _ => f

/-- A reaction with the floor of R442: FATAL keeps HISTORY and FAULT_N. -/
def reactionFloor (id : Nat) (r : BitVec 8) : BitVec 8 := if fltClass id = 3 then r ||| 0x48#8 else r

/-- Write of an FLT register by a master with WRITE or CORE. IRQ_CFG and SRC take writes from CC0-CC3 only. -/
def State.fltWrite (s : State) (core : Bool) (m : MasterId) (o : Nat) (v : W32) : State :=
  match o with
  | 0x04 =>
    let s := if bit v 31 then s.clearHold else s
    { s with flt := { s.flt with alertPend := s.flt.alertPend &&& ~~~(v.setWidth 3) } }
  | 0x08 => if core then { s with flt := { s.flt with hostPorts := v.extractLsb' 8 8 } } else s
  | 0x0C => { s with flt := { s.flt with irqPend := s.flt.irqPend &&& ~~~(v.setWidth 8) } }
  | _ =>
    if core && 0x4000 ≤ o && o < 0x8000 && fltClass ((o - 0x4000) / 4) ≠ 0 then
      let id := (o - 0x4000) / 4
      let s := { s with flt := s.flt.modSrc id (fun x => { x with reaction := reactionFloor id (v.setWidth 8) }) }
      if bit v 29 then s.forceEvent id m else s
    else s

end Sys2Proof.Machine
end

