-- ==== Sys2Proof/Machine/Crypto.lean ====
section
/-! DEFINITION. The cryptographic functions that the spec names: AES-256 (R130-R133), AES key wrap
(R151), SHA-384 and elliptic-curve work on P-384 (R149, R398). The spec names the standards; their
inner steps are PRESUMED from FIPS 197, FIPS 180-4, SP 800-38F and FIPS 186 (log entry 6). -/

namespace Sys2Proof.Machine

/-! AES-256 (FIPS 197). -/

/-- Multiplication by x in GF(2^8) with the AES polynomial. -/
def aesXtime (a : Byte) : Byte := if a.getLsbD 7 then (a <<< 1) ^^^ 0x1B#8 else a <<< 1

/-- Multiplication in GF(2^8). -/
def aesMul (a b : Byte) : Byte :=
  ((List.range 8).foldl (fun (acc : Byte × Byte) i =>
    (if b.getLsbD i then acc.1 ^^^ acc.2 else acc.1, aesXtime acc.2)) (0#8, a)).1

/-- The inverse in GF(2^8): a to the 254th power. -/
def aesInv (a : Byte) : Byte :=
  let a2 := aesMul a a
  let a3 := aesMul a2 a
  let a6 := aesMul a3 a3
  let a12 := aesMul a6 a6
  let a15 := aesMul a12 a3
  let a30 := aesMul a15 a15
  let a60 := aesMul a30 a30
  let a120 := aesMul a60 a60
  let a126 := aesMul a120 a6
  let a127 := aesMul a126 a
  aesMul a127 a127

/-- The S-box. -/
def aesSub (a : Byte) : Byte :=
  let b := aesInv a
  b ^^^ b.rotateLeft 1 ^^^ b.rotateLeft 2 ^^^ b.rotateLeft 3 ^^^ b.rotateLeft 4 ^^^ 0x63#8

/-- The inverse S-box. -/
def aesInvSub (a : Byte) : Byte :=
  aesInv (a.rotateLeft 1 ^^^ a.rotateLeft 3 ^^^ a.rotateLeft 6 ^^^ 0x05#8)

/-- The round keys of a 256-bit key (byte 0 of the key first), 60 words of 4 bytes, newest first while
they are made. -/
def aesExpand (key : List Byte) : List (List Byte) :=
  let w0 := ((List.range 8).map (fun i => (key.drop (4 * i)).take 4)).reverse
  let r := (List.range 52).foldl (fun (acc : List (List Byte) × Byte) i =>
    let w := acc.1
    let t := w.headD []
    let old := nth w 7 []
    if i % 8 = 0 then
      let t := (t.drop 1 ++ t.take 1).map aesSub
      let t := (t.take 1).map (· ^^^ acc.2) ++ t.drop 1
      (List.zipWith (· ^^^ ·) old t :: w, aesXtime acc.2)
    else if i % 8 = 4 then (List.zipWith (· ^^^ ·) old (t.map aesSub) :: w, acc.2)
    else (List.zipWith (· ^^^ ·) old t :: w, acc.2)) (w0, 1#8)
  r.1.reverse

/-- The 16 bytes of round key i. -/
def aesRoundKey (ks : List (List Byte)) (i : Nat) : List Byte := ((ks.drop (4 * i)).take 4).flatten

/-- Row r of the state moves left by r (`inv`: right). The state is 16 bytes, column by column. -/
def aesShift (inv : Bool) (s : List Byte) : List Byte :=
  (List.range 16).map (fun i =>
    let r := i % 4
    let c := i / 4
    nth s (4 * (if inv then (c + 4 - r) % 4 else (c + r) % 4) + r) 0)

/-- MixColumns with the coefficients of one column. -/
def aesMix (co : List Byte) (s : List Byte) : List Byte :=
  (List.range 16).map (fun i =>
    let r := i % 4
    let c := i / 4
    (List.range 4).foldl (fun a k => a ^^^ aesMul (nth co ((k + 4 - r) % 4) 0) (nth s (4 * c + k) 0)) 0)

/-- AES-256 encryption of one block of 16 bytes. -/
def aesEnc (key blk : List Byte) : List Byte :=
  let ks := aesExpand key
  let s := List.zipWith (· ^^^ ·) blk (aesRoundKey ks 0)
  let s := (List.range 13).foldl (fun s i =>
    List.zipWith (· ^^^ ·) (aesMix [2, 3, 1, 1] (aesShift false (s.map aesSub))) (aesRoundKey ks (i + 1))) s
  List.zipWith (· ^^^ ·) (aesShift false (s.map aesSub)) (aesRoundKey ks 14)

/-- AES-256 decryption of one block of 16 bytes. -/
def aesDec (key blk : List Byte) : List Byte :=
  let ks := aesExpand key
  let s := List.zipWith (· ^^^ ·) blk (aesRoundKey ks 14)
  let s := (List.range 13).foldl (fun s i =>
    aesMix [14, 11, 13, 9]
      (List.zipWith (· ^^^ ·) ((aesShift true s).map aesInvSub) (aesRoundKey ks (13 - i)))) s
  List.zipWith (· ^^^ ·) ((aesShift true s).map aesInvSub) (aesRoundKey ks 0)

/-- AES-256 on bit vectors: byte j of key and block is bits [8j+7:8j] (R131). -/
def aes256 (key : BitVec 256) (blk : BitVec 128) : BitVec 128 :=
  ofBytes 128 (aesEnc (toBytes key 32) (toBytes blk 16))

/-! AES key wrap (SP 800-38F, KW). -/

/-- Big-endian bytes of a number. -/
def beBytes (n len : Nat) : List Byte := (List.range len).map (fun i => BitVec.ofNat 8 (n >>> (8 * (len - 1 - i))))
/-- The number of big-endian bytes. -/
def beNat (l : List Byte) : Nat := l.foldl (fun a b => a * 256 + b.toNat) 0

/-- KW wrapping: 8 bytes longer than the plaintext, a multiple of 8 bytes. -/
def kwWrap (kek plain : List Byte) : List Byte :=
  let n := plain.length / 8
  let r := (List.range n).map (fun i => (plain.drop (8 * i)).take 8)
  let out := (List.range (6 * n)).foldl (fun (acc : List Byte × List (List Byte)) t =>
    let i := t % n
    let b := aesEnc kek (acc.1 ++ nth acc.2 i [])
    (List.zipWith (· ^^^ ·) (b.take 8) (beBytes (t + 1) 8), acc.2.set i (b.drop 8)))
    (List.replicate 8 0xA6#8, r)
  out.1 ++ out.2.flatten

/-- KW unwrapping: the plaintext, or `none` where the integrity check fails. -/
def kwUnwrap (kek wrapped : List Byte) : Option (List Byte) :=
  let n := wrapped.length / 8 - 1
  let r := (List.range n).map (fun i => (wrapped.drop (8 * (i + 1))).take 8)
  let out := (List.range (6 * n)).foldl (fun (acc : List Byte × List (List Byte)) t =>
    let t := 6 * n - t
    let i := (t - 1) % n
    let b := aesDec kek (List.zipWith (· ^^^ ·) acc.1 (beBytes t 8) ++ nth acc.2 i [])
    (b.take 8, acc.2.set i (b.drop 8))) (wrapped.take 8, r)
  if out.1 = List.replicate 8 0xA6#8 then some out.2.flatten else none

/-! SHA-384 (FIPS 180-4). -/

/-- The round constants of SHA-384. -/
def shaK : List W64 :=
  [0x428A2F98D728AE22#64, 0x7137449123EF65CD#64, 0xB5C0FBCFEC4D3B2F#64, 0xE9B5DBA58189DBBC#64,
   0x3956C25BF348B538#64, 0x59F111F1B605D019#64, 0x923F82A4AF194F9B#64, 0xAB1C5ED5DA6D8118#64,
   0xD807AA98A3030242#64, 0x12835B0145706FBE#64, 0x243185BE4EE4B28C#64, 0x550C7DC3D5FFB4E2#64,
   0x72BE5D74F27B896F#64, 0x80DEB1FE3B1696B1#64, 0x9BDC06A725C71235#64, 0xC19BF174CF692694#64,
   0xE49B69C19EF14AD2#64, 0xEFBE4786384F25E3#64, 0x0FC19DC68B8CD5B5#64, 0x240CA1CC77AC9C65#64] ++
  [0x2DE92C6F592B0275#64, 0x4A7484AA6EA6E483#64, 0x5CB0A9DCBD41FBD4#64, 0x76F988DA831153B5#64,
   0x983E5152EE66DFAB#64, 0xA831C66D2DB43210#64, 0xB00327C898FB213F#64, 0xBF597FC7BEEF0EE4#64,
   0xC6E00BF33DA88FC2#64, 0xD5A79147930AA725#64, 0x06CA6351E003826F#64, 0x142929670A0E6E70#64,
   0x27B70A8546D22FFC#64, 0x2E1B21385C26C926#64, 0x4D2C6DFC5AC42AED#64, 0x53380D139D95B3DF#64,
   0x650A73548BAF63DE#64, 0x766A0ABB3C77B2A8#64, 0x81C2C92E47EDAEE6#64, 0x92722C851482353B#64] ++
  [0xA2BFE8A14CF10364#64, 0xA81A664BBC423001#64, 0xC24B8B70D0F89791#64, 0xC76C51A30654BE30#64,
   0xD192E819D6EF5218#64, 0xD69906245565A910#64, 0xF40E35855771202A#64, 0x106AA07032BBD1B8#64,
   0x19A4C116B8D2D0C8#64, 0x1E376C085141AB53#64, 0x2748774CDF8EEB99#64, 0x34B0BCB5E19B48A8#64,
   0x391C0CB3C5C95A63#64, 0x4ED8AA4AE3418ACB#64, 0x5B9CCA4F7763E373#64, 0x682E6FF3D6B2B8A3#64,
   0x748F82EE5DEFB2FC#64, 0x78A5636F43172F60#64, 0x84C87814A1F0AB72#64, 0x8CC702081A6439EC#64] ++
  [0x90BEFFFA23631E28#64, 0xA4506CEBDE82BDE9#64, 0xBEF9A3F7B2C67915#64, 0xC67178F2E372532B#64,
   0xCA273ECEEA26619C#64, 0xD186B8C721C0C207#64, 0xEADA7DD6CDE0EB1E#64, 0xF57D4F7FEE6ED178#64,
   0x06F067AA72176FBA#64, 0x0A637DC5A2C898A6#64, 0x113F9804BEF90DAE#64, 0x1B710B35131C471B#64,
   0x28DB77F523047D84#64, 0x32CAAB7B40C72493#64, 0x3C9EBE0A15C9BEBC#64, 0x431D67C49C100D4C#64,
   0x4CC5D4BECB3E42B6#64, 0x597F299CFC657E2A#64, 0x5FCB6FAB3AD6FAEC#64, 0x6C44198C4A475817#64]

/-- The initial hash value of SHA-384. -/
def shaInit : List W64 :=
  [0xCBBB9D5DC1059ED8#64, 0x629A292A367CD507#64, 0x9159015A3070DD17#64, 0x152FECD8F70E5939#64,
   0x67332667FFC00B31#64, 0x8EB44A8768581511#64, 0xDB0C2E0D64F98FA7#64, 0x47B5481DBEFA4FA4#64]

/-- One round: the eight working words and the word of the schedule plus constant. -/
def shaRound (v : List W64) (kw : W64) : List W64 :=
  match v with
  | [a, b, c, d, e, f, g, h] =>
    let s1 := e.rotateRight 14 ^^^ e.rotateRight 18 ^^^ e.rotateRight 41
    let t1 := h + s1 + ((e &&& f) ^^^ (~~~e &&& g)) + kw
    let s0 := a.rotateRight 28 ^^^ a.rotateRight 34 ^^^ a.rotateRight 39
    let t2 := s0 + ((a &&& b) ^^^ (a &&& c) ^^^ (b &&& c))
    [t1 + t2, a, b, c, d + t1, e, f, g]
  | _ => v

/-- The message schedule of one block of 128 bytes: 80 words. -/
def shaSchedule (blk : List Byte) : List W64 :=
  let w0 := ((List.range 16).map (fun i => BitVec.ofNat 64 (beNat ((blk.drop (8 * i)).take 8)))).reverse
  ((List.range 64).foldl (fun w _ =>
    let x15 : W64 := nth w 14 0
    let x2 : W64 := nth w 1 0
    let s0 := x15.rotateRight 1 ^^^ x15.rotateRight 8 ^^^ (x15 >>> 7)
    let s1 := x2.rotateRight 19 ^^^ x2.rotateRight 61 ^^^ (x2 >>> 6)
    (nth w 15 0 + s0 + nth w 6 0 + s1) :: w) w0).reverse

/-- SHA-384 of a byte string: 48 bytes. -/
def sha384 (m : List Byte) : List Byte :=
  let pad := (128 - (m.length + 17) % 128) % 128
  let msg := m ++ [0x80#8] ++ List.replicate pad 0#8 ++ beBytes (8 * m.length) 16
  let h := (List.range (msg.length / 128)).foldl (fun h i =>
    let w := shaSchedule ((msg.drop (128 * i)).take 128)
    List.zipWith (· + ·) h ((List.zipWith (· + ·) shaK w).foldl shaRound h)) shaInit
  ((h.take 6).map (fun x => beBytes x.toNat 8)).flatten

/-! P-384 (FIPS 186), in affine coordinates; `none` is the point at infinity. -/

/-- The prime of P-384. -/
def ecP : Nat := 2 ^ 384 - 2 ^ 128 - 2 ^ 96 + 2 ^ 32 - 1
/-- The order of the base point. -/
def ecN : Nat := 0xFFFFFFFFFFFFFFFFFFFFFFFFFFFFFFFFFFFFFFFFFFFFFFFFC7634D81F4372DDF581A0DB248B0A77AECEC196ACCC52973
/-- The coefficient b. -/
def ecB : Nat := 0xB3312FA7E23EE7E4988E056BE3F82D19181D9C6EFE8141120314088F5013875AC656398D8A2ED19D2A85C8EDD3EC2AEF
/-- The base point. -/
def ecG : Nat × Nat :=
  (0xAA87CA22BE8B05378EB1C71EF320AD746E1D3B628BA79B9859F741E082542A385502F25DBF55296C3A545E3872760AB7,
   0x3617DE4A96262C6F5D9E98BF9292DC29F8F41DBD289A147CE9DA3113B5F0B8C00A60B1CE1D7E819D7A431D7C90EA0E5F)

/-- a to the power e modulo m, over the `bits` low bits of e. -/
def powMod (a e m bits : Nat) : Nat :=
  ((List.range bits).foldl (fun (acc : Nat × Nat) i =>
    (if e.testBit i then acc.1 * acc.2 % m else acc.1, acc.2 * acc.2 % m)) (1, a % m)).1
/-- The inverse modulo a prime. -/
def invMod (a m : Nat) : Nat := powMod a (m - 2) m 384

/-- Addition of points. -/
def ecAdd (p q : Option (Nat × Nat)) : Option (Nat × Nat) :=
  match p, q with
  | none, q => q
  | p, none => p
  | some (x1, y1), some (x2, y2) =>
    if x1 = x2 && (y1 + y2) % ecP = 0 then none else
    let l := if x1 = x2 then (3 * x1 * x1 + ecP - 3) * invMod (2 * y1) ecP % ecP
      else (y2 + ecP - y1) * invMod (x2 + ecP - x1) ecP % ecP
    let x3 := (l * l + 2 * ecP - x1 - x2) % ecP
    some (x3, (l * (x1 + ecP - x3) + ecP - y1) % ecP)

/-- Multiplication of a point by a scalar below 2^384. -/
def ecMul (k : Nat) (p : Nat × Nat) : Option (Nat × Nat) :=
  ((List.range 384).foldl (fun (acc : Option (Nat × Nat) × Option (Nat × Nat)) i =>
    (if k.testBit i then ecAdd acc.1 acc.2 else acc.1, ecAdd acc.2 acc.2)) (none, some p)).1

/-- Whether coordinates are a point of the curve. -/
def ecOn (p : Nat × Nat) : Bool :=
  decide (p.1 < ecP) && decide (p.2 < ecP) && decide ((p.2 * p.2) % ecP = (p.1 * p.1 * p.1 + (ecP - 3) * p.1 + ecB) % ecP)

/-- ECDSA verification of a digest (48 bytes) under a public key. -/
def ecdsaVerify (q : Nat × Nat) (digest : List Byte) (r s : Nat) : Bool :=
  decide (0 < r) && decide (r < ecN) && decide (0 < s) && decide (s < ecN) && ecOn q &&
  (let w := invMod s ecN
   match ecAdd (ecMul (beNat digest * w % ecN) ecG) (ecMul (r * w % ecN) q) with
   | none => false
   | some (x, _) => decide (x % ecN = r))

end Sys2Proof.Machine
end

