-- ==== Sys2Proof/Machine/Code.lean ====
section
/-! DEFINITION. The codes over stored lines and link data: the Reed-Solomon code of R94-R95, the line
forms of R92-R93, the hash of R133 and the keystream of R131. -/

namespace Sys2Proof.Machine

/-! GF(2^8) with x^8 + x^4 + x^3 + x^2 + 1, alpha = 0x02 (R94). -/

/-- Multiplication by alpha. -/
def gfX (a : Byte) : Byte := if a.getLsbD 7 then (a <<< 1) ^^^ 0x1D#8 else a <<< 1
/-- Multiplication. -/
def gfMul (a b : Byte) : Byte :=
  ((List.range 8).foldl (fun (acc : Byte × Byte) i =>
    (if b.getLsbD i then acc.1 ^^^ acc.2 else acc.1, gfX acc.2)) (0#8, a)).1
/-- The inverse: a to the 254th power. -/
def gfInv (a : Byte) : Byte :=
  let a2 := gfMul a a
  let a3 := gfMul a2 a
  let a6 := gfMul a3 a3
  let a12 := gfMul a6 a6
  let a15 := gfMul a12 a3
  let a30 := gfMul a15 a15
  let a60 := gfMul a30 a30
  let a120 := gfMul a60 a60
  let a127 := gfMul (gfMul a120 a6) a
  gfMul a127 a127
/-- alpha to the n-th power. -/
def gfPow (n : Nat) : Byte := (List.range (n % 255)).foldl (fun a _ => gfX a) 1#8

/-- Value at x of a polynomial, lowest coefficient first. -/
def polyEval (p : List Byte) (x : Byte) : Byte := p.foldr (fun c acc => c ^^^ gfMul acc x) 0#8
/-- Sum of two polynomials. -/
def polyAdd : List Byte → List Byte → List Byte
  | [], q => q
  | p, [] => p
  | a :: p, b :: q => (a ^^^ b) :: polyAdd p q
/-- Product with a constant. -/
def polyScale (c : Byte) (p : List Byte) : List Byte := p.map (gfMul c)
/-- Product of two polynomials. -/
def polyMul (p q : List Byte) : List Byte := p.foldr (fun c acc => polyAdd (polyScale c q) (0#8 :: acc)) []
/-- The generator polynomial g(x) = (x + alpha^0) ... (x + alpha^7), lowest coefficient first (R94). -/
def rsGen : List Byte := (List.range 8).foldl (fun g i => polyMul g [gfPow i, 1#8]) [1#8]

/-- One information symbol enters the remainder register (highest coefficient first, 8 symbols). -/
def rsShift (reg : List Byte) (s : Byte) : List Byte :=
  let f := (reg.headD 0) ^^^ s
  List.zipWith (fun r g => r ^^^ gfMul f g) (reg.drop 1 ++ [0#8]) ((rsGen.take 8).reverse)

/-- The check symbols s72 ... s79 of 72 information symbols (R94). -/
def rsCheck (info : List Byte) : List Byte := info.foldl rsShift (List.replicate 8 0#8)

/-- The eight syndromes c(alpha^j) of 80 symbols (R94). -/
def rsSyndromes (c : List Byte) : List Byte :=
  (List.range 8).map (fun j => let a := gfPow j; c.foldl (fun acc s => gfMul acc a ^^^ s) 0#8)

/-- The locator of symbol position i: alpha^(79 - i). -/
def rsLoc (i : Nat) : Byte := gfPow (79 - i)

/-- The erasure locator polynomial. -/
def rsErasePoly (er : List Nat) : List Byte := er.foldl (fun p i => polyMul p [1#8, rsLoc i]) [1#8]

/-- State of the search for the locator: locator, auxiliary polynomial, length. -/
abbrev RsBM := List Byte × List Byte × Nat

/-- Step r (1-8) of the Berlekamp-Massey search with e erasures. -/
def rsStep (syn : List Byte) (e : Nat) (x : RsBM) (r : Nat) : RsBM :=
  let (lam, b, len) := x
  let d := (List.range lam.length).foldl (fun a j => if j < r then a ^^^ gfMul (nth lam j 0) (nth syn (r - 1 - j) 0) else a) 0#8
  if d = 0 then (lam, 0#8 :: b, len)
  else
    let t := polyAdd lam (polyScale d (0#8 :: b))
    if 2 * len ≤ r + e - 1 then (t, polyScale (gfInv d) lam, r + e - len)
    else (t, 0#8 :: b, len)

/-- Degree of a polynomial. -/
def polyDeg (p : List Byte) : Nat := (p.reverse.dropWhile (· == 0#8)).length - 1

/-- Decode 80 symbols with erasures (R95): corrected symbols and outcome. -/
def rsDecode (c : List Byte) (er : List Nat) : List Byte × DecodeOut :=
  let syn := rsSyndromes c
  if syn.all (· == 0#8) then (c, .clean)
  else
    let g := rsErasePoly er
    let e := er.length
    let (lam, _, len) := (List.range (8 - e)).foldl (fun x i => rsStep syn e x (e + 1 + i)) (g, g, e)
    let pos := (List.range 80).filter (fun i => polyEval lam (gfInv (rsLoc i)) == 0#8)
    if pos.length ≠ len || polyDeg lam ≠ len || len < e || 8 < 2 * (len - e) + e then (c, .uncorrectable)
    else
      let om := (polyMul syn lam).take 8
      let dl := (List.range (lam.length - 1)).map (fun i => if i % 2 = 0 then nth lam (i + 1) 0 else 0#8)
      let fixed := (List.range 80).map (fun i =>
        if pos.contains i then
          let xi := rsLoc i
          let v := gfInv xi
          nth c i 0 ^^^ gfMul xi (gfMul (polyEval om v) (gfInv (polyEval dl v)))
        else nth c i 0)
      if (rsSyndromes fixed).all (· == 0#8) then (fixed, .corrected (len - e) e) else (c, .uncorrectable)

/-! Stored lines (R92, R93). -/

/-- The state byte of a stored line. -/
def lineState (l : SLine) : Byte := byteOf l 71
/-- POISON, SEALED and TAGGED of a stored line. -/
def linePoison (l : SLine) : Bool := bit (lineState l) 0
def lineSealed (l : SLine) : Bool := bit (lineState l) 1
def lineTagged (l : SLine) : Bool := bit (lineState l) 2
/-- The data bytes. -/
def lineData (l : SLine) : BitVec 512 := l.setWidth 512
/-- The 56-bit tag. -/
def lineTag (l : SLine) : BitVec 56 := l.extractLsb' 512 56

/-- Build a stored line: data, tag, state byte, and a fresh code. -/
def mkLine (data : BitVec 512) (tag : BitVec 56) (st : Byte) : SLine :=
  let info : BitVec 576 := st ++ tag ++ data
  ofBytes 640 (toBytes info 72 ++ rsCheck (toBytes info 72))

/-- A poisoned line (R100). -/
def poisonLine : SLine := mkLine 0 0 0x01#8
/-- A stored line with a fresh code over its information bytes (R103). -/
def refresh (l : SLine) : SLine := ofBytes 640 (toBytes l 72 ++ rsCheck (toBytes l 72))

/-- Decode a received line with the erased positions of its line position (R95, R93). -/
def decodeLine (l : SLine) (er : List Nat) : SLine × DecodeOut :=
  let r := rsDecode (toBytes l 80) er
  let fixed : SLine := ofBytes 640 r.1
  match r.2 with
  | .uncorrectable => (l, .uncorrectable)
  | o => if fieldN (lineState fixed) 3 5 ≠ 0 then (l, .uncorrectable) else (fixed, o)

/-! Encryption and tags (R130-R133). -/

/-- An AES input block (R131). -/
def aesBlock (counter : W64) (line : Nat) (index : Nat) (purpose : Nat) : BitVec 128 :=
  counter ++ BitVec.ofNat 34 line ++ BitVec.ofNat 2 index ++ BitVec.ofNat 28 purpose

/-- The keystream of a line (R131). -/
def keystream (key : BitVec 256) (counter : W64) (line : Nat) : BitVec 512 :=
  aes256 key (aesBlock counter line 3 0) ++ aes256 key (aesBlock counter line 2 0) ++
  aes256 key (aesBlock counter line 1 0) ++ aes256 key (aesBlock counter line 0 0)

/-- Multiplication in GF(2^64) with x^64 + x^4 + x^3 + x + 1 (R133). -/
def gf64Mul (a b : W64) : W64 :=
  ((List.range 64).foldl (fun (acc : W64 × W64) i =>
    (if b.getLsbD i then acc.1 ^^^ acc.2 else acc.1,
     if acc.2.getLsbD 63 then (acc.2 <<< 1) ^^^ 0x1B#64 else acc.2 <<< 1)) (0#64, a)).1

/-- The polynomial hash of a list of words under H (R133). -/
def gf64Hash (h : W64) (ws : List W64) : W64 := ws.foldl (fun a w => gf64Mul (a ^^^ w) h) 0#64

/-- The hash key of a tag key (R130). -/
def hashKeyOf (tagKey : BitVec 256) : W64 := (aes256 tagKey 0).setWidth 64

/-- The tag of a line (R133): stored data, LINE, counter and state byte, under a tag key and hash key. -/
def tagOf (tagKey : BitVec 256) (hashKey : W64) (data : BitVec 512) (line : Nat) (counter : W64) (st : Byte) : BitVec 56 :=
  let ws := (List.range 8).map (fun i => data.extractLsb' (64 * i) 64)
  let h := gf64Hash hashKey (ws ++ [BitVec.ofNat 64 line, counter, st.setWidth 64])
  let m := (aes256 tagKey (aesBlock counter line 0 1)).setWidth 64
  (h ^^^ m).setWidth 56

end Sys2Proof.Machine
end

