-- ==== Sys2Proof/Machine/Policy.lean ====
section
/-! DEFINITION. Page policy: entries, access groups, key slots, the tree's layout, sticky pages, and the
checks of R127 and R74 that come before the line (05_encryption_integrity). -/

namespace Sys2Proof.Machine

/-! The tree's layout (R135, R137). -/

/-- Pages of the protected region. -/
def protPages (v : Variant) (code : Nat) : Nat :=
  let full := match v with | .kv9216 => 1835008 | .kv9208 => 917504
  match code with | 1 => full / 4 | 2 => full / 2 | 3 => full | _ => 0
/-- First page of the tree store. -/
def treeBasePage (v : Variant) (code : Nat) : Nat :=
  let top := v.pages
  match code with | 1 => top - top / 32 | 2 => top - top / 16 | 3 => top - top / 8 | _ => top
/-- Stored levels of the tree (R135). -/
def treeLevels (v : Variant) (code : Nat) : Nat :=
  match v, code with
  | .kv9216, 1 => 6 | .kv9216, 2 => 7 | .kv9216, 3 => 7
  | .kv9208, 1 => 6 | .kv9208, 2 => 6 | .kv9208, 3 => 7
  | _, _ => 0
/-- Bytes of level k: P / 8^k. -/
def levelBytes (v : Variant) (code k : Nat) : Nat := protPages v code * 131072 / 8 ^ k
/-- Root counters in use: one per line of the top level. -/
def rootsUsed (v : Variant) (code : Nat) : Nat := if code = 0 then 0 else levelBytes v code (treeLevels v code) / 64
/-- Local address at which level k starts. -/
def levelBase (v : Variant) (code k : Nat) : Nat :=
  (List.range (k - 1)).foldl (fun a j => a + levelBytes v code (j + 1)) (treeBasePage v code * 131072)
/-- Local address of line i of level k. -/
def ctrAddr (v : Variant) (code k i : Nat) : Nat := levelBase v code k + 64 * i
/-- The level and line of a local address in a stored level. -/
def ctrOfAddr (v : Variant) (code a : Nat) : Option (Nat × Nat) :=
  ((List.range (treeLevels v code)).find? (fun j =>
    levelBase v code (j + 1) ≤ a && a < levelBase v code (j + 1) + levelBytes v code (j + 1))).map
    (fun j => (j + 1, (a - levelBase v code (j + 1)) / 64))

/-- The tree is built. -/
def State.treeOn (s : State) : Bool := s.sec.configured && decide (s.sec.capCode ≠ 0)
/-- An address lies in the protected region. -/
def State.inProtected (s : State) (a : Nat) : Bool :=
  s.treeOn && decide (a < protPages s.glb.variant s.sec.capCode * 131072)
/-- An address lies in the tree store. -/
def State.inTree (s : State) (a : Nat) : Bool :=
  s.treeOn && decide (treeBasePage s.glb.variant s.sec.capCode * 131072 ≤ a) && decide (a < s.glb.variant.capacity)
/-- Address of a counter line under the configuration in force. -/
def State.ctrAt (s : State) (k i : Nat) : Nat := ctrAddr s.glb.variant s.sec.capCode k i
/-- Stored levels under the configuration in force. -/
def State.levels (s : State) : Nat := treeLevels s.glb.variant s.sec.capCode

/-! Page entries (R121). -/

/-- The page attribute table entry of a page, as stored. -/
def State.patRaw (s : State) (page : Nat) : W32 := smGetD s.sec.pat page 0
/-- Pages 0-511 are the command area (R334). -/
def inCmdArea (page : Nat) : Bool := decide (page < 512)
/-- The page attribute table entry that governs a page: the table governs neither the command area (R335) nor the tree store (R144). -/
def State.pageEntry (s : State) (page : Nat) : W32 := if inCmdArea page || s.inTree (page * 131072) then 0 else s.patRaw page
def peValid (e : W32) : Bool := bit e 31
def peEnc (e : W32) : Bool := bit e 30
def peInt (e : W32) : Bool := bit e 29
def peSticky (e : W32) : Bool := bit e 28
def peRo (e : W32) : Bool := bit e 27
def peRetired (e : W32) : Bool := bit e 26
def peSlot (e : W32) : Nat := fieldN e 12 12
def peGroup (e : W32) : Nat := fieldN e 4 8

/-- A pattern of an access group (R124). -/
def State.groupPat (s : State) (g i : Nat) : W64 := smGetD s.sec.groups (16 * g + i) 0
/-- An access group grants read, or write (R125). -/
def State.groupGrants (s : State) (g : Nat) (m : MasterId) (write : Bool) : Bool :=
  (List.range 16).any (fun i =>
    let p := s.groupPat g i
    patMatch p m && bit p (if write then 61 else 62))

/-- Key slot `k`. -/
def State.keySlot (s : State) (k : Nat) : KeySlot := smGetD s.sec.keys k {}
/-- A lookup finds the slot LOADED (R25, R127). -/
def KeySlot.usable (k : KeySlot) : Bool := k.loaded && !k.erasing
/-- A page waits for its new entry and its clear until no request uses the old entry: later requests to it wait (R25, R128; log entry 92). -/
def State.changing (s : State) (page : Nat) : Bool :=
  s.cmd.waits.any (fun w => match w.kind with | .policy _ _ _ _ (.setPage p _ _) => p == page | _ => false)

/-- A control core of this node (R123). -/
def State.isLocalCore (s : State) (m : MasterId) : Bool := isCoreAgent m && decide (m.node = s.fab.nodeId)
/-- The integrity tree walker or the scrubber of this node (R123). -/
def State.isWalkerScrubber (s : State) (m : MasterId) : Bool :=
  decide (m = s.self agentWalker) || decide (m = s.self agentScrubber)

/-- The identity that an OWNER field names: node 0xFFF stands for this node's current ID (R335). -/
def State.ownerId (s : State) (owner : MasterId) : MasterId :=
  if MasterId.node owner = 0xFFF#12 then mkMaster s.fab.nodeId (MasterId.agent owner) else owner

/-- A master other than a control core may use a page of the command area: it owns the enabled ring whose
pages it names (R335, R336). -/
def State.cmdAreaOpen (s : State) (m : MasterId) (page : Nat) : Bool :=
  if 128 ≤ page && page < 256 then
    let r := s.cmd.rings.toList.getD ((page - 128) / 4) {}
    r.en && decide (s.ownerId r.owner = m)
  else false

/-! Sticky pages (R147). -/

/-- A page is blocked. -/
def State.blocked (s : State) (page : Nat) (e : W32) : Bool :=
  s.sec.sticky.contains page || s.sec.stickyPend.contains page || (s.sec.stickyOverflow && peSticky e)

/-- Block a page. -/
def State.block (s : State) (page : Nat) : State :=
  if s.sec.sticky.contains page || s.sec.stickyPend.contains page then s
  else if s.sec.sticky.length < 1024 then { s with sec := { s.sec with sticky := s.sec.sticky ++ [page] } }
  else
    let s := if s.sec.stickyOverflow then s else s.log evStickyOverflow (detail 0 page)
    let s := { s with sec := { s.sec with stickyOverflow := true } }
    if s.sec.stickyPend.length < 1024 then { s with sec := { s.sec with stickyPend := s.sec.stickyPend ++ [page] } }
    else { s with sec := { s.sec with stickyLost := true } }

/-! The checks before the line. -/

/-- Log KEY_EMPTY once per slot until the slot is loaded again (R152). -/
def State.logKeyEmpty (s : State) (slot : Nat) (access : Nat) (m : MasterId) : State :=
  let k := s.keySlot slot
  if k.emptyLogged then s
  else
    let s := { s with sec := { s.sec with keys := smPut s.sec.keys slot { k with emptyLogged := true } } }
    s.log evKeyEmpty (detail 0 slot) access m CStatus.notPermitted.code

/-- Count a request refused at steps 2-3 of R127 (R154). -/
def State.countDenied (s : State) (ch : Fin 64) : State :=
  s.modCry ch (fun c => { c with deniedAccess := satAdd c.deniedAccess 1 })

/-- The checks of R335 on the command area, and the page checks of R127 steps 1-3 for a read, of R74 for a write (`partialW`: a partial write):
the refusal, if any, with what it counts and logs. A write meets the key-slot check after the
access check and before the sticky check (log entry 10). `held`: the entry, and its slot, have been looked up before (R171). -/
def State.pageCheckWith (s : State) (m : MasterId) (ch : Fin 64) (a : Nat) (access : Nat) (write : Bool) (e : W32) (held : Bool := false) :
    State × Option CStatus :=
  let page := a / 131072
  if s.isWalkerScrubber m then (s, none)
  else if inCmdArea page then
    if s.isLocalCore m || s.cmdAreaOpen m page then (s, none)
    else (s.log evAddrInvalid a access m CStatus.notPermitted.code, some .notPermitted)
  else if s.inTree a then (s.log evAddrInvalid a access m CStatus.notPermitted.code, some .notPermitted)
  else if peRetired e then (s, some .retired)
  else
    let core := s.isLocalCore m
    if !core && !(peValid e && s.groupGrants (peGroup e) m write && !(write && peRo e)) then
      (s.countDenied ch, some .notPermitted)
    else if peEnc e && !(if held then (s.keySlot (peSlot e)).loaded else (s.keySlot (peSlot e)).usable) then
      ((s.countDenied ch).logKeyEmpty (peSlot e) access m, some .notPermitted)
    else if write && !core && s.blocked page e then
      (s.modCry ch (fun c => { c with deniedSticky := satAdd c.deniedSticky 1 }), some .integrityFail)
    else (s, none)

/-- The page checks under the entry in force. -/
def State.pageCheck (s : State) (m : MasterId) (ch : Fin 64) (a : Nat) (access : Nat) (write : Bool) : State × Option CStatus :=
  s.pageCheckWith m ch a access write (s.pageEntry (a / 131072))

end Sys2Proof.Machine
end

