-- ==== Sys2Proof/Machine/Bundle.lean ====
section
/-! DEFINITION. The bundle as every access meets it: command words, activation arbiters and slots, the layers, parity, dead
connections on a row that crosses, and the offline channel (R35-R55, R76-R78, R83-R86, R209-R214). -/

namespace Sys2Proof.Machine

/-! Command words (R83-R85). -/

/-- OP of a command (R84). -/
def RowCmd.op : RowCmd → Nat
  | .nop => 0x00 | .ra _ _ => 0x01 | .wm _ _ => 0x02 | .ref _ _ => 0x03 | .sts _ => 0x04 | .tlw _ _ => 0x05 | .tlr _ => 0x06
  | .sre _ => 0x08 | .srx _ => 0x09 | .aln => 0x0A | .mrw _ _ _ => 0x0B

/-- Beat 0 of a word: OP, LAYER, BANK, ROW (R83). -/
def beat0 (op layer bank row : Nat) : W32 := at32 27 op ||| at32 23 layer ||| at32 21 bank ||| at32 5 row
/-- Beat 0 of a command that names a row. -/
def beatRow (op row : Nat) : W32 :=
  beat0 op (rowOfKey row).layer (rowOfKey row).bank (rowOfKey row).row

/-- The information bits of the four beats of a command (R83, R84). -/
def RowCmd.info : RowCmd → List W32
  | .nop => [0, 0, 0, 0]
  | .ra row _ => [beatRow 0x01 row, 0, 0, 0]
  | .wm row mask => [beatRow 0x02 row, at32 16 mask.toNat, 0, 0]
  | .ref b group => [beat0 0x03 (b / 4) (b % 4) 0, at32 0 (group % 128), 0, 0]
  | .sts l => [beat0 0x04 l 0 0, 0, 0, 0]
  | .tlw l p => [beat0 0x05 l 0 0, at32 0 (p % 16), 0, 0]
  | .tlr l => [beat0 0x06 l 0 0, 0, 0, 0]
  | .sre l => [beat0 0x08 l 0 0, 0, 0, 0]
  | .srx l => [beat0 0x09 l 0 0, 0, 0, 0]
  | .aln => [beat0 0x0A 0 0 0, 0, 0, 0]
  | .mrw l r v => [beat0 0x0B l 0 0, at32 0 r.toNat, v, 0]

/-- The beats on CA00-CA39: information bits on CA00-CA31, check bits on CA32-CA39 (R83, log entry 80). -/
def RowCmd.word (c : RowCmd) : List (BitVec 40) := c.info.map (fun i => Config.caCheck i ++ i)

/-- The command that a layer reads from the information bits of a word; a value of OP outside the table is a word that it cannot
correct (R84). -/
def readInfo (b : List W32) : Option RowCmd :=
  let x := nth b 0 0
  let y := nth b 1 0
  let l := fieldN x 23 4
  let row := rowKey { layer := l, bank := fieldN x 21 2, row := fieldN x 5 16 }
  match fieldN x 27 5 with
  | 0x00 => some .nop
  | 0x01 => some (.ra row false)
  | 0x02 => some (.wm row (y.extractLsb' 16 16))
  | 0x03 => some (.ref (l * 4 + fieldN x 21 2) (fieldN y 0 7))
  | 0x04 => some (.sts l)
  | 0x05 => some (.tlw l (fieldN y 0 4))
  | 0x06 => some (.tlr l)
  | 0x08 => some (.sre l)
  | 0x09 => some (.srx l)
  | 0x0A => some .aln
  | 0x0B => some (.mrw l (y.extractLsb' 0 16) (nth b 2 0))
  | _ => none

/-- The layer that a command addresses, if one. -/
def cmdLayer : RowCmd → Option Nat
  | .nop | .aln => none
  | .ra row _ => some (rowOfKey row).layer
  | .wm row _ => some (rowOfKey row).layer
  | .ref b _ => some (b / 4)
  | .sts l | .tlw l _ | .tlr l | .sre l | .srx l | .mrw l _ _ => some l

/-- Wrong bits of beat i. -/
def beatFlips (flips : BitVec 160) (i : Nat) : BitVec 40 := flips.extractLsb' (40 * i) 40
/-- Number of wrong bits of a beat. -/
def flipCount (b : BitVec 40) : Nat := countIf (List.range 40) (fun i => bit b i)
/-- A word in which no beat has two wrong bits is corrected (R83, R85). -/
def wordCorrects (flips : BitVec 160) : Bool := (List.range 4).all (fun i => decide (flipCount (beatFlips flips i) < 2))
/-- The connection of the latest bit that a word's correction mended. -/
def lastFlip (flips : BitVec 160) : Nat :=
  (List.range 4).foldl (fun a i =>
    match (List.range 40).find? (fun j => bit (beatFlips flips i) j) with | some j => j | none => a) 0

/-- Two distinct bits of beat 0, or one, that an injection flips: which ones the spec leaves open (FREE VALUE, log entry 3). -/
def injectFlips (f : Nat → W64) (i : Nat) (two : Bool) : BitVec 160 :=
  let v := (f i).toNat
  let p := v % 40
  let q := (p + 1 + v / 40 % 39) % 40
  BitVec.twoPow 160 p ||| (if two then BitVec.twoPow 160 q else 0)

/-- Every layer that the tower has. -/
def Ctl.mapLayers (c : Ctl) (n : Nat) (f : LayerSt → LayerSt) : Ctl :=
  { c with layers := (List.range n).foldl (fun m i => smPut m i (f (smGetD m i {}))) c.layers }
/-- Layer `l` of the channel. -/
def Ctl.layer (c : Ctl) (l : Nat) : LayerSt := smGetD c.layers l {}
/-- Change layer `l`. -/
def Ctl.modLayer (c : Ctl) (l : Nat) (f : LayerSt → LayerSt) : Ctl := { c with layers := smPut c.layers l (f (c.layer l)) }

/-- What a command does at the layer it addresses, apart from the transfer of its data strobe (R84). A layer in lockout ignores every
command except ALN (R85). -/
def Ctl.layerDo (c : Ctl) (n : Nat) (cmd : RowCmd) : Ctl :=
  let free := fun l => !(c.layer l).lockout
  match cmd with
  | .tlw l p => if free l then c.modLayer l (fun x => { x with testLatch := p }) else c
  | .sre l => if free l then c.modLayer l (fun x => { x with selfRefresh := true }) else c
  | .srx l => if free l then c.modLayer l (fun x => { x with selfRefresh := false }) else c
  | .mrw l r v => if free l then c.modLayer l (fun x => { x with mode := smPut x.mode r.toNat v }) else c
  | .aln => c.mapLayers n (fun x => { x with lockout := false })
  | _ => c

/-- SRE, or SRX, to every layer of the channel (R84, R89). -/
def Ctl.allLayers (c : Ctl) (n : Nat) (cmd : Nat → RowCmd) : Ctl := (List.range n).foldl (fun c l => c.layerDo n (cmd l)) c

/-- A command word crosses with wrong bits and an armed injection (R83-R85, R91): a word with two bad bits in a beat locks every layer
out; one that is corrected is counted by every layer that is not locked out. Whether the layers took the word. -/
def State.sendWord (s : State) (ch : Fin 64) (cmd : RowCmd) (flips : BitVec 160) : State × Bool :=
  let c := s.chs[ch].ctl
  let n := s.glb.variant.layers
  let armed := c.injUncorr || c.injCorr
  let all := flips ||| (if armed then injectFlips Config.freeValue s.free c.injUncorr else 0)
  let s := if armed then (s.modCtl ch (fun c => { c with injUncorr := false, injCorr := c.injCorr && c.injUncorr })).bump else s
  if !wordCorrects all || (readInfo cmd.info).isNone then
    (s.modCtl ch (fun c => c.mapLayers n (fun l => { l with lockout := true })), false)
  else
    let s := if all = 0 then s else s.modCtl ch (fun c => c.mapLayers n (fun l =>
      if l.lockout then l else { l with corrected := satAdd l.corrected 1, lastConn := BitVec.ofNat 8 (lastFlip all) }))
    (s.modCtl ch (fun c => c.layerDo n cmd),
      match cmdLayer cmd with | some l => !(s.chs[ch].ctl.layer l).lockout | none => true)

/-! Slots and their owners (R209-R212, R219). -/

/-- The channel is hot: a layer of its tower is above 85 °C (R80). -/
def State.hotCh (s : State) (ch : Fin 64) : Bool := if towerOf ch.val = 0 then s.thm.northHot else s.thm.southHot

/-- The governor's quantities at a level (R457). -/
def govBorrowOff (l : Nat) : Bool := decide (1 ≤ l)
def govBeQuiet (l : Nat) : Nat := if l ≤ 1 then 0 else if l ≤ 16 then l - 1 else 15
def govEngRate (l : Nat) : Nat := if l ≤ 16 then 16 else if l ≤ 31 then 32 - l else 1
def govGuarQuiet (l : Nat) : Nat := if l ≤ 31 then 0 else l - 31

/-- The Roundabout as it takes a revolution boundary (R211, R212, R219). -/
def Rbt.turn (r : Rbt) (hot : Bool) (level : Nat) : Rbt :=
  { r with
    active := if r.commit then r.pend else r.active, commit := false, hot := hot,
    borrowOff := govBorrowOff level, beQuiet := BitVec.ofNat 4 (govBeQuiet level), guarQuiet := BitVec.ofNat 4 (govGuarQuiet level) }

/-- The Roundabout that rules slot `k` of a channel: for a slot beyond the next revolution boundary, as that boundary will leave it
(R211, R212, R219). -/
def State.rbtAt (s : State) (ch : Fin 64) (k : Nat) : Rbt :=
  let r := s.chs[ch].rbt
  if s.strobe / 256 < k / 256 then r.turn (s.hotCh ch) s.thm.nextLevel else r

/-- The table entry of slot `k`. -/
def Rbt.entry (r : Rbt) (k : Nat) : Byte := r.active.toList.getD (k % 256) 0
/-- Slot `k` belongs to maintenance: positions ≡ 0 mod 16, and ≡ 8 mod 16 while hot (R210, R212). -/
def Rbt.isMaint (r : Rbt) (k : Nat) : Bool := k % 16 == 0 || (r.hot && k % 16 == 8)
/-- The class that owns a slot that is not maintenance (R210). -/
def entryClass (e : Byte) : Nat := fieldN e 0 4
/-- The slot is held under a guarantee (R210). -/
def entryGuar (e : Byte) : Bool := bit e 7
/-- The governor has quieted the slot (R219). -/
def Rbt.quieted (r : Rbt) (e : Byte) (k : Nat) : Bool :=
  let q := k % 256 / 16
  if entryGuar e then decide (q < r.guarQuiet.toNat) && entryClass e != 15 else decide (q < r.beQuiet.toNat)

/-- Bank number of a row in its channel. -/
def bankOf (row : Nat) : Nat := row / 65536
/-- The bank of a row meets the row cycle at a command strobe, and the channel the delays after ALN and SRX (R78). -/
def Ctl.bankReady (c : Ctl) (row cmd : Nat) : Bool :=
  decide (smGetD c.bankFree (bankOf row) 0 ≤ cmd) && decide (c.cmdFrom ≤ cmd) && decide (c.rowFrom ≤ cmd)

/-! The activation arbiters (R13, R76, R81). -/

/-- The layer's key of an arbiter: tower and layer. -/
def arbKey (ch : Fin 64) (layer : Nat) : Nat := 16 * towerOf ch.val + layer
/-- Activations of a layer in ten consecutive strobes from `u`. -/
def windowSum (l : List (Nat × Nat)) (u : Nat) : Nat := ((l.filter (fun x => u ≤ x.1 && x.1 < u + 10)).map (fun x => x.2)).sum
/-- A command of weight `w` at strobe `t` keeps every ten consecutive strobes at or below 16. -/
def grants (l : List (Nat × Nat)) (t w : Nat) : Bool := (List.range 10).all (fun i => decide (windowSum l (t - i) + w ≤ 16))

/-- Refresh interval of a channel (R78, R80). -/
def State.refInterval (s : State) (ch : Fin 64) : Nat := if s.hotCh ch then 488 else 976

/-- The layer and bank of a channel's next REF (R79). -/
def State.nextRef (s : State) (ch : Fin 64) : Nat × Nat :=
  (s.chs[ch].ctl.nextBank % s.glb.variant.layers, s.chs[ch].ctl.nextBank / s.glb.variant.layers)

/-- The channel's refresh runs: its layers are not in self-refresh, and no full retrain holds it (R58, R79). -/
def Channel.refreshes (c : Channel) : Bool :=
  !c.tsv.offline && (match c.ctl.state with | .run | .hold | .draining => true | _ => false) &&
  !(match c.tsv.hold with | some { kind := .full, .. } => true | _ => false)

/-- Maintenance slot `m` of a channel is still to be decided and a REF will have fallen due by its decision (R79, R82). -/
def State.refComing (s : State) (ch : Fin 64) (m : Nat) : Bool :=
  let c := s.chs[ch]
  c.refreshes && decide (c.ctl.lastMaint < m) &&
  (!c.ctl.refDue.isEmpty || (match c.ctl.lastRefDue with | some l => decide (l + s.refInterval ch + 12 ≤ m) | none => false))

/-- Room that an arbiter keeps for REFs, which it grants before every other candidate (R76, R81): four activations for each REF of the
layer that the next maintenance slot near strobe `t` will carry, as far as ten strobes hold them. -/
def State.refRoom (s : State) (ch : Fin 64) (layer t : Nat) : List (Nat × Nat) :=
  let ms := (List.range 20).map (fun i => t - 6 + i)
  ms.flatMap (fun m =>
    if (s.rbtAt ch m).isMaint m then
      let n := countIf (fins 64) (fun x => towerOf x.val == towerOf ch.val && (s.nextRef x).1 == layer && s.refComing x m)
      List.replicate (min 4 n) (m - 4, 4)
    else [])

/-- Record an activation if the arbiter grants it, with room for the REFs that go first. Entries that no later window can contain are
dropped. -/
def State.activate (s : State) (ch : Fin 64) (layer t w : Nat) : Option State :=
  let k := arbKey ch layer
  let l := smGetD s.acts k []
  if grants (s.refRoom ch layer t ++ l) t w then
    some { s with acts := smPut s.acts k (((t, w) :: l).filter (fun x => s.strobe < x.1 + 20)), arb := smPut s.arb k ch.val }
  else none

/-- Other channels whose REF of this layer stands before channel `ch`'s in the arbiter's round for maintenance slot `m` (R76). -/
def State.refBefore (s : State) (ch : Fin 64) (layer m : Nat) : Nat :=
  let last := smGetD s.arbRef (arbKey ch layer) 63
  let rank := fun (n : Fin 64) => (n.val + 63 - last) % 64
  countIf (fins 64) (fun n => towerOf n.val == towerOf ch.val && n != ch && (s.nextRef n).1 == layer &&
    s.refComing n m && decide (rank n < rank ch))

/-- Record a REF of weight 4 at strobe `m - 4` if the arbiter grants it after the REFs that stand before it (R76). -/
def State.activateRef (s : State) (ch : Fin 64) (layer m : Nat) : Option State :=
  let k := arbKey ch layer
  let l := smGetD s.acts k []
  if grants l (m - 4) (4 * (s.refBefore ch layer m + 1)) then
    some { s with acts := smPut s.acts k (((m - 4, 4) :: l).filter (fun x => s.strobe < x.1 + 20)), arbRef := smPut s.arbRef k ch.val }
  else none

/-- Note what was decided for a slot of a channel. -/
def State.noteSlot (s : State) (ch : Fin 64) (o : SlotOut) : State := s.modCtl ch (fun c => { c with outs := c.outs ++ [o] })

/-- Slot `k` carries a transfer already. -/
def Ctl.slotTaken (c : Ctl) (k : Nat) : Bool := c.outs.any (fun o => o.slot == k && o.cls.isSome)

/-- A slot that an access within a command can use for a class: the class owns it or may borrow it, nothing has been decided to cross in
it, the bank is ready and the layer's arbiter grants (R44, R71, R76, R213). -/
def State.slotFits (s : State) (ch : Fin 64) (row cls k : Nat) : Bool :=
  let c := s.chs[ch]
  let r := s.rbtAt ch k
  let e := r.entry k
  !r.isMaint k && !r.quieted e k && !c.ctl.slotTaken k && c.ctl.bankReady row (k - 4) &&
  (entryClass e == cls || cls == 15 || (bit r.borrow cls && !r.borrowOff)) &&
  (s.activate ch (rowOfKey row).layer (k - 4) 1).isSome

/-- The row read of an access within a command takes the next slot that fits (log entry 8): its activation, its bank's row cycle and its
slot count as those of any RA (R44, R76, R214). -/
def State.takeSlot (s : State) (ch : Fin 64) (row cls : Nat) : State :=
  match ((List.range 512).map (fun i => s.strobe + 12 + i)).find? (s.slotFits ch row cls) with
  | none => s
  | some k =>
    match s.activate ch (rowOfKey row).layer (k - 4) 1 with
    | none => s
    | some s => (s.noteSlot ch { slot := k, cls := some cls, bytes := 1024 }).modCtl ch (fun c =>
        { c with bankFree := smPut c.bankFree (bankOf row) (k - 4 + 11) })

/-! TSV_CTL and the bundle's tables (R54, R62). -/
def Tsv.walkEn (t : Tsv) : Bool := bit t.ctl 31
def Tsv.parityEn (t : Tsv) : Bool := bit t.ctl 30
def Tsv.autoSpare (t : Tsv) : Bool := bit t.ctl 29
def Tsv.autoRetrain (t : Tsv) : Bool := bit t.ctl 28
def Tsv.walkInterval (t : Tsv) : Nat := fieldN t.ctl 16 8 + 1
def Tsv.driftLimit (t : Tsv) : Nat := fieldN t.ctl 8 8

/-- Erased symbol positions of a line position (R54). -/
def Tsv.erased (t : Tsv) (line : Nat) : List Nat := smGetD t.erase line []
/-- Spare `k` of the map, as TSV_MAP_INDEX numbers it. -/
def Tsv.spare (t : Tsv) (k : Nat) : Spare := smGetD t.spares k {}
/-- A spare is neither in use nor failed. -/
def Tsv.spareFree (t : Tsv) (k : Nat) : Bool := !(t.spare k).used && !(t.spare k).failed
/-- Erased symbol positions of the channel. -/
def Tsv.erasedCount (t : Tsv) : Nat := (t.erase.map (fun kv => kv.2.length)).sum
/-- FCK1 is in use. -/
def Tsv.clkSpare (t : Tsv) : Bool := (t.spare 164).used

/-- The word of TSV_DEAD_LAST (R62). -/
def deadWord (c : Conn) : W32 := at32 29 c.kind.code ||| at32 15 c.idx ||| at32 11 c.layer

/-! The offline channel (R55). -/

/-- A request or an engine holds the row (R70). -/
def rowKept (r : RcRow) : Bool := r.held || r.pins != 0
/-- Rows kept: RC_EN. -/
def Ctl.rcEn (c : Ctl) : Bool := bit c.cfg 6
/-- Rows that nothing holds leave at once while RC_EN is 0 (R70). -/
def Ctl.trim (c : Ctl) : Ctl := if c.rcEn then c else { c with rc := c.rc.filter rowKept }

/-- Requests of a channel that wait for a counter walk. -/
def State.walkers (s : State) (ch : Fin 64) : List Req :=
  s.sec.walks.flatMap (fun w => (w.waiters.filter (fun x => x.ch == ch.val)).map (fun x => x.req))

/-- Requests that a channel holds in its queues, and those that wait for a walk. -/
def State.heldRequests (s : State) (ch : Fin 64) : List Req :=
  let c := s.chs[ch].ctl
  c.rq.map (fun q => q.req) ++ c.waiting ++ c.wqWait.filterMap (fun w => w.req) ++ s.walkers ch

/-- Complete every request that a channel holds and forget it. -/
def State.failHeld (s : State) (ch : Fin 64) (st : CStatus) : State :=
  let rs := s.heldRequests ch
  let s := s.modCtl ch (fun c => Ctl.trim { c with
    rq := [], waiting := [], wqWait := [],
    rc := c.rc.map (fun r => { r with pins := 0 }) })
  let s := { s with sec := { s.sec with walks :=
    (s.sec.walks.map (fun w => { w with waiters := w.waiters.filter (fun x => x.ch != ch.val) })).filter (fun w => !w.waiters.isEmpty) } }
  rs.foldl (fun s r => s.completeAt ch r st) s

/-- OFFLINE_STOP reaches the layers: the cause leaves the command and address connections and the clock working (R55). Causes: 1 and 2
erasures, 3 command and address, 4 clock, 5 self-test, 6 training. DEDUCED (log entry 81). -/
def stopReaches (cause : Nat) : Bool := cause == 1 || cause == 2 || cause == 5

/-- A channel goes offline (R55): epoch, every request completed, queued lines freed and counted; where the command connections work its
layers enter self-refresh, and its forwarded clock stops. -/
def State.goOffline (s : State) (ch : Fin 64) (cause : Nat) : State :=
  if s.chs[ch].tsv.offline then s
  else
    let s := s.bumpEpoch ch
    let s := s.modTsv ch (fun t => { t with
      offline := true, hold := none, retrainDue := none, targeted := [], walkDue := false, walk := none, deferred := [], caPending := [],
      clk := false, aligned := false, lostWrites := satAdd t.lostWrites s.chs[ch].ctl.wq.length })
    let s := if stopReaches cause then s.modCtl ch (fun c => c.allLayers s.glb.variant.layers RowCmd.sre) else s
    let s := s.modCtl ch (fun c => { c with
      state := .offline, wq := [], rc := [], chosen := [], issued := [], recovery := false, program := 0xC, fill := false,
      caCheckDue := false, caCheckRun := false, log := [] })
    let s := s.modEcc ch (fun e => { e with reads := [], again := [], due := 0 })
    let s := s.log (evChannelOffline ch.val) (detail ch.val cause) acSequencer
    s.failHeld ch .channelOffline

/-- A forwarded-clock fault (R53, R55). -/
def State.clockFault (s : State) (ch : Fin 64) : State :=
  if s.chs[ch].tsv.clkSpare then s.goOffline ch 4
  else
    let s := s.modTsv ch (fun t => { t with
      spares := smPut t.spares 164 { used := true, inService := true }, retrainDue := some .full,
      deadLast := deadWord { kind := .clock, idx := 0 } })
    s.log (evTsvClockSpare ch.val) (detail ch.val s.chs[ch].tsv.deadLast.toNat) acSequencer

/-! Parity (R49, R53). -/

/-- Parity group p contains a connection whose symbol is erased. -/
def Tsv.groupErased (t : Tsv) (p : Nat) : Bool :=
  t.erase.any (fun kv => kv.2.any (fun sym => (8 * (80 * kv.1 + sym)) / 512 == p))

/-- Parity groups whose mismatch counts. -/
def Tsv.parityErrors (t : Tsv) (mis : BitVec 20) : List Nat :=
  (List.range 20).filter (fun p => bit mis p && !t.groupErased p && !t.parityLost.contains p)

/-- A targeted sweep of a layer is scheduled (R49). -/
def Tsv.target (t : Tsv) (layer : Nat) : Tsv :=
  if t.targeted.any (fun x => x.1 == layer) then t else { t with targeted := t.targeted ++ [(layer, 0)] }

/-- Handle the parity errors of one data strobe (R49); ten or more groups are a clock fault (R53). -/
def State.parityCheck (s : State) (ch : Fin 64) (layer : Nat) (write : Bool) (mis : BitVec 20) : State :=
  let errs := s.chs[ch].tsv.parityErrors mis
  let s := if s.chs[ch].tsv.parityEn then
      errs.foldl (fun s p =>
        let w := at32 27 p ||| at32 23 layer ||| at32 22 (b2n write)
        let s := s.modTsv ch (fun t => { t with parityCount := satAdd t.parityCount 1, parityLast := w }.target layer)
        s.log (evTsvParity ch.val) (detail ch.val w.toNat) acSequencer) s
    else s
  if 10 ≤ errs.length then s.clockFault ch else s

/-- The parity mismatches of a row that crosses: wrong data bits of each group, and wrong parity connections. -/
def parityMismatch (wrong : BitVec 10240) (lp : BitVec 20) : BitVec 20 :=
  (List.range 20).foldl (fun (v : BitVec 20) p =>
    let odd := ((List.range 512).foldl (fun (b : Bool) i => b ^^ wrong.getLsbD (512 * p + i)) false)
    setBit v p (odd ^^ bit lp p)) 0

/-! What crosses on dead connections (R39, R54). -/

/-- The bits of a row that cross on dead connections which no spare replaces: each arrives as whatever the connection carries
(FREE VALUE, log entry 3). -/
def Tsv.deadBits (t : Tsv) (f : Nat → W64) (n : Nat) : BitVec 10240 :=
  t.dead.zipIdx.foldl (fun (v : BitVec 10240) x => setBit v x.1 (bit (f (n + x.2 / 64)) (x.2 % 64))) 0

/-- A row crosses in a data strobe: its wrong bits with those of the dead connections. -/
def State.crossBits (s : State) (ch : Fin 64) (wrong : BitVec 10240) : State × BitVec 10240 :=
  let t := s.chs[ch].tsv
  ({ s with free := s.free + (t.dead.length + 63) / 64 }, wrong ^^^ t.deadBits Config.freeValue s.free)

/-- A row read crosses to the base die (R39, R49, R62): an armed PARITY_INJECT inverts LP00, parity is checked, and the wrong bits of
the row go on to the ECC unit. -/
def State.crossRead (s : State) (ch : Fin 64) (layer : Nat) (wrong : BitVec 10240) (parity : BitVec 20) : State × BitVec 10240 :=
  let x := s.crossBits ch wrong
  let inj := s.chs[ch].tsv.injParity
  let s := x.1.modTsv ch (fun t => { t with injParity := false })
  (s.parityCheck ch layer false (parityMismatch x.2 parity ^^^ (if inj then 1 else 0)), x.2)

/-- A read data strobe is undriven: the layer is in lockout, or more than 1,024 data connections stay at mid-level (R85, R86). -/
def State.undriven (s : State) (ch : Fin 64) (layer : Nat) (mid : BitVec 14) : Bool :=
  (s.chs[ch].ctl.layer layer).lockout || decide (1024 < mid.toNat)

/-! Commands that will not be issued, and retrain holds (R48, R57, R58, R87, R212). -/

/-- A transfer that moves a row. -/
def SlotCmd.moves (x : SlotCmd) : Bool := match x.cmd with | .ra _ _ | .wm _ _ => true | _ => false
/-- An RA for a request. -/
def isReqRa (x : SlotCmd) : Bool := match x.cmd with | .ra _ false => true | _ => false
/-- An RA of the scrubber. -/
def isScrubRa (x : SlotCmd) : Bool := match x.cmd with | .ra _ true => true | _ => false
/-- A WM. -/
def isWm (x : SlotCmd) : Bool := match x.cmd with | .wm _ _ => true | _ => false
/-- An STS. -/
def isSts (x : SlotCmd) : Bool := match x.cmd with | .sts _ => true | _ => false
/-- A TLR. -/
def isTlr (x : SlotCmd) : Bool := match x.cmd with | .tlr _ => true | _ => false
/-- A REF. -/
def isRef (x : SlotCmd) : Bool := match x.cmd with | .ref _ _ => true | _ => false

/-- The RA of a row for requests is to be chosen again. -/
def Ctl.unsched (c : Ctl) (row : Nat) : Ctl := { c with rq := c.rq.map (fun q => if q.row = row then { q with sched := false } else q) }
/-- A scrub read of a row is taken back: the row is read again first (R87). -/
def Ecc.readAgain (e : Ecc) (row : Nat) : Ecc :=
  { e with again := e.again ++ e.reads.filter (fun r => r.row == row), reads := e.reads.filter (fun r => r.row != row) }

/-- A chosen command of a channel with `n` layers will not be issued: what it took is given back. -/
def Channel.cancel (c : Channel) (n : Nat) (x : SlotCmd) : Channel :=
  let c := { c with ctl := { c.ctl with chosen := c.ctl.chosen.erase x, outs := c.ctl.outs.filter (fun o => o.slot != x.slot) } }
  match x.cmd with
  | .ra row false => { c with ctl := c.ctl.unsched row }
  | .ra row true => { c with ecc := c.ecc.readAgain row }
  | .ref b g => { c with ctl := { c.ctl with refDue := (x.slot - 4) :: c.ctl.refDue, nextBank := b % 4 * n + b / 4, nextGroup := g } }
  | .sts l => { c with ctl := if c.ctl.recovery then { c.ctl with recSts := l } else { c.ctl with stsNext := l } }
  | .tlw _ _ | .tlr _ => { c with tsv := { c.tsv with walk := c.tsv.walk.map (fun w => { w with tlw := none, tlr := none }) } }
  | .aln => { c with ctl := { c.ctl with recAln := false } }
  | _ => c
/-- Cancel the chosen commands that satisfy `p`. -/
def Channel.cancelAll (c : Channel) (n : Nat) (p : SlotCmd → Bool) : Channel :=
  (c.ctl.chosen.filter p).foldl (fun c x => c.cancel n x) c

/-- The strobes that a retrain holds the channel for (R57). -/
def holdLength (v : Variant) : RetrainKind → Nat
  | .incremental => 64 * v.layers
  | .full => 1024 * v.layers

/-- A retrain hold is in progress: it has begun (R57, R58). -/
def Tsv.held (t : Tsv) (now : Nat) : Bool := match t.hold with | some h => decide (h.start ≤ now) | none => false

/-- The channel serves no request now: hold, training, initial fill, command-word recovery (R58, R87, R101). -/
def Channel.holds (c : Channel) : Bool :=
  decide (c.ctl.state = .hold) || decide (c.ctl.state = .training) || c.ctl.fill || c.ctl.recovery

/-- Rows may cross for requests in slot `k`: the channel runs, or its incremental hold will have ended by the slot's command strobe
(R58, step 5). -/
def Channel.movesAt (c : Channel) (v : Variant) (k : Nat) : Bool :=
  !c.ctl.fill && !c.ctl.recovery &&
  (match c.ctl.state, c.tsv.hold with
   | .run, _ => true
   | .hold, some { kind := .incremental, start := t, .. } => decide (t + holdLength v .incremental + 4 ≤ k)
   | _, _ => false)

/-! What the sequencer runs (R88). -/

/-- CTL_SEQ_STATUS.PROGRAM: the microprogram that runs. -/
def Channel.program (c : Channel) : Nat :=
  match c.tsv.hold with
  | some h => match h.kind with | .full => 0x4 | .incremental => 0x5
  | none =>
    if c.ctl.program ≠ 0 then c.ctl.program
    else if c.ctl.recovery || c.ctl.caCheckRun then 0x9
    else if c.ctl.state = .draining then 0xA
    else if c.tsv.walk.isSome then 0x7
    else 0

end Sys2Proof.Machine
end

