-- ==== Sys2Proof/Machine/Store.lean ====
section
/-! DEFINITION. What a slice does with rows and lines: row cache, write queue, decoding and its counters,
the integrity tree's walks, opening and storing a line (03_channel_control R68-R73,
04_stored_data_protection R92-R111, 05_encryption_integrity R130-R147). -/

namespace Sys2Proof.Machine

/-! Row cache (R69, R70). -/

/-- The cached row of a row number. -/
def Ctl.rcRow? (c : Ctl) (row : Nat) : Option RcRow := c.rc.find? (fun r => r.row == row)
/-- STREAM_HINT_EN. -/
def Ctl.streamEn (c : Ctl) : Bool := bit c.cfg 7
def Ctl.wqHigh (c : Ctl) : Nat := fieldN c.cfg 24 8
def Ctl.wqLow (c : Ctl) : Nat := fieldN c.cfg 16 8
def Ctl.ageLimit (c : Ctl) : Nat := fieldN c.cfg 8 8

/-- Remove the last row of a list that no request holds. -/
def dropLru : List RcRow → List RcRow
  | [] => []
  | r :: rs => if rs.all rowKept then (if rowKept r then r :: rs else rs) else r :: dropLru rs

/-- A row enters the cache at the most recently used position, or at the least recently used one, in the place of the least recently
used row that nothing holds; where all 256 are held it does not enter (R68, R70). A copy that was already cached hands on who holds it. -/
def Ctl.insertRow (c : Ctl) (r : RcRow) (lru : Bool) : Ctl :=
  let r := match c.rcRow? r.row with
    | some o => { r with held := o.held, pins := o.pins }
    | none => r
  let rest := c.rc.filter (fun x => x.row != r.row)
  if 256 ≤ rest.length && rest.all rowKept then c
  else
    let rest := if rest.length < 256 then rest else dropLru rest
    { c with rc := if lru then rest ++ [r] else r :: rest }

/-- A hit makes a row the most recently used. -/
def Ctl.touch (c : Ctl) (row : Nat) : Ctl :=
  match c.rcRow? row with
  | none => c
  | some r => { c with rc := r :: c.rc.filter (fun x => x.row != row) }

/-- A request begins to hold a cached row while it waits for a walk, or ends it (R70). -/
def Ctl.pin (c : Ctl) (row : Nat) : Ctl := { c with rc := c.rc.map (fun r => if r.row = row then { r with pins := r.pins + 1 } else r) }
def Ctl.unpin (c : Ctl) (row : Nat) : Ctl :=
  Ctl.trim { c with rc := c.rc.map (fun r => if r.row = row then { r with pins := r.pins - 1 } else r) }

/-- An engine holds a cached row from its read on (R158). -/
def Ctl.holdRow (c : Ctl) (row : Nat) : Ctl := { c with rc := c.rc.map (fun r => if r.row = row then { r with held := true } else r) }
/-- An engine holds the row already. -/
def Ctl.isHeld (c : Ctl) (row : Nat) : Bool := match c.rcRow? row with | some r => r.held | none => false

/-- A new line value in the cached row, if the row is cached (R69). -/
def Ctl.updateCached (c : Ctl) (key : Nat) (l : SLine) : Ctl :=
  { c with rc := c.rc.map (fun r =>
      if r.row = key / 16 then { r with lines := r.lines.set (key % 16) (l, .clean), tagLogged := r.tagLogged.erase (key % 16) }
      else r) }

/-! Write queue (R72). -/

/-- The queued line of a line number. -/
def Ctl.queued? (c : Ctl) (key : Nat) : Option WqLine := c.wq.find? (fun w => w.key == key)
/-- The latest write to a line that waits for the queue; a rewrite of the scrubber is none (R104). -/
def Ctl.waitingLine? (c : Ctl) (key : Nat) : Option WqLine :=
  (c.wqWait.reverse.find? (fun w => w.wline.key == key && !w.wline.rewrite)).map (fun w => w.wline)
/-- A line of that number, a rewrite or not, waits for the queue. -/
def Ctl.lineWaits (c : Ctl) (key : Nat) : Bool := c.wqWait.any (fun w => w.wline.key == key)

/-- Note that a write to a line has entered the slice, for the scrub reads in progress (R104). -/
def Ecc.noteWrite (e : Ecc) (key : Nat) : Ecc :=
  { e with reads := e.reads.map (fun r => if r.row = key / 16 then { r with written := (key % 16) :: r.written } else r) }

/-- A write to a line enters the slice: the scrubber's rewrites of the line that are still to come, or wait, are dropped (R104, R241). -/
def Channel.noteWrite (c : Channel) (key : Nat) : Channel :=
  { c with
    ecc := c.ecc.noteWrite key,
    ctl := { c.ctl with wqWait := c.ctl.wqWait.filter (fun w => !(w.wline.rewrite && w.wline.key == key)) } }

/-- A line enters the write queue: it replaces a queued line in place, or goes to its end (R72). -/
def Ctl.enter (c : Ctl) (w : WqLine) : Ctl :=
  let c :=
    if (c.queued? w.key).isSome then
      { c with wq := c.wq.map (fun x => if x.key = w.key then w else x), wqCoalesce := satAdd c.wqCoalesce 1 }
    else { c with wq := c.wq ++ [w] }
  c.updateCached w.key w.line

/-- Whether a line can enter the queue now: no earlier write to it waits, and it is queued or there is room. -/
def Ctl.canEnter (c : Ctl) (key : Nat) : Bool :=
  !c.lineWaits key && ((c.queued? key).isSome || decide (c.wq.length < 128))

/-- A write enters the queue or waits for it; whether it entered. -/
def State.enqueue (s : State) (ch : Fin 64) (w : WqLine) (req : Option Req) : State × Bool :=
  let s := s.modCh ch (fun c => c.noteWrite w.key)
  if (s.chs[ch].ctl).canEnter w.key then (s.modCtl ch (fun c => c.enter w), true)
  else (s.modCtl ch (fun c => { c with wqWait := c.wqWait ++ [{ wline := w, req := req }] }), false)

/-! The array (R54, R101, R136). -/

/-- A line that an issued WM carries and that its data strobe has not merged yet. -/
def Ctl.inFlight? (c : Ctl) (key : Nat) : Option SLine :=
  (c.issued.reverse.findSome? (fun x =>
    match x.cmd with
    | .wm row mask =>
      if row = key / 16 && bit mask (key % 16) && !x.lines.isEmpty then some (nth x.lines (key % 16) 0) else none
    | _ => none))

/-- A line of the array as stored, with the writes that are crossing to it. A line of a stored level that nothing has written since the tree was
built is the line as built: zero counters and its tag with parent counter 0 (R136). -/
def State.arrayLine (s : State) (ch : Fin 64) (key : Nat) : SLine :=
  let l := ((s.chs[ch].ctl).inFlight? key).getD (s.dramLine ch.val key)
  if l ≠ 0 || !s.treeOn then l
  else
    let a := s.addrOf ch.val (key / 16) (key % 16)
    match ctrOfAddr s.glb.variant s.sec.capCode a with
    | none => l
    | some _ => mkLine 0 (tagOf s.sec.treeKey s.sec.treeHash 0 (a / 64) 0 4#8) 4#8

/-- A remap entry of a line (R107). -/
def Ecc.remapOf (e : Ecc) (row line : Nat) : Option (Nat × Remap) := e.remap.find? (fun r => r.2.row == row && r.2.line == line)

/-- The record of a decode in ECC_LAST_CE and ECC_LAST_UE: layer, bank, row, line (R120). -/
def posWord (key : Nat) : W32 :=
  let r := rowOfKey (key / 16)
  at32 28 r.layer ||| at32 26 r.bank ||| at32 10 r.row ||| at32 6 (key % 16)

/-- Count a CORRECTED decode and report it at most once every CE_LOG_INTERVAL revolutions (R97): the first decode after the interval is
reported at once, and none is held for a later report (DESIGN CHOICE, log entry 100). -/
def State.noteCorrected (s : State) (ch : Fin 64) (key t e : Nat) (m : MasterId) (access : Nat) : State :=
  let iv := fieldN s.chs[ch].ecc.cfg 0 16
  let due := iv ≠ 0 && (match s.chs[ch].ecc.ceRevs with | none => true | some r => decide (iv ≤ r))
  let s := s.modEcc ch (fun x =>
    { x with
      ceCount := if t = 0 then x.ceCount else satAdd x.ceCount 1,
      eraseCount := if t = 0 then satAdd x.eraseCount 1 else x.eraseCount,
      lastCe := posWord key ||| at32 3 t ||| at32 1 e,
      ceRevs := if due then some 0 else x.ceRevs })
  if due then s.log (evEccCe ch.val) (s.addrOf ch.val (key / 16) (key % 16)) access m else s

/-- A targeted scrub of a line's row is scheduled, or dropped beyond 16 (R98). -/
def Ecc.target (e : Ecc) (key : Nat) : Ecc :=
  if 16 ≤ e.targeted.length then e else { e with targeted := e.targeted ++ [key] }

/-- Post a retirement reason once per page and reason (R113). -/
def State.retireReason (s : State) (page reason : Nat) : State :=
  let moving := match s.retire.migrating with | some (p, _, r, _) => p == page && r == reason | none => false
  if s.retire.acted.contains (page, reason) || s.retire.reasons.contains (page, reason) || moving then s
  else { s with retire := { s.retire with reasons := s.retire.reasons ++ [(page, reason)] } }

/-- Count and log an UNCORRECTABLE decode of a request's RA (R97, R98); the retirement service has reason READ_UE (R113). -/
def State.noteUncorrectable (s : State) (ch : Fin 64) (key : Nat) (m : MasterId) (access : Nat) : State :=
  let s := s.modEcc ch (fun x => { x with ueCount := satAdd x.ueCount 1, lastUe := posWord key }.target key)
  (s.log (evEccUe ch.val) (s.addrOf ch.val (key / 16) (key % 16)) access m CStatus.uncorrectable.code).retireReason
    (s.addrOf ch.val (key / 16) 0 / 131072) 2

/-- The symbols that an injection corrupts (R120): `n` distinct positions of the 80 and non-zero values, which the spec leaves open
(FREE VALUE, log entry 3). -/
def injectMask (f : Nat → W64) (i n : Nat) : SLine :=
  ((List.range n).foldl (fun (acc : List Nat × SLine) k =>
    let v := (f (i + k)).toNat
    let p := nth acc.1 (v / 255 % acc.1.length) 0
    (acc.1.erase p, acc.2 ^^^ (BitVec.ofNat 640 (v % 255 + 1) <<< (8 * p)))) (List.range 80, 0)).2

/-- Decode one line that an RA brings: remap entries replace the array's line and count nothing (R110). `inj`
is the number of symbols that an injection corrupts; five are beyond correction (R120). -/
def State.decodeAt (s : State) (ch : Fin 64) (key : Nat) (wrong : SLine) (inj : Nat) : (SLine × DecodeOut) × Bool :=
  match s.chs[ch].ecc.remapOf (key / 16) (key % 16) with
  | some (_, { content := some l, .. }) => ((l, .clean), true)
  | _ =>
    let raw := s.arrayLine ch key ^^^ wrong ^^^ injectMask Config.freeValue s.free inj
    if inj = 5 then ((raw, .uncorrectable), false)
    else (decodeLine raw (s.chs[ch].tsv.erased (key % 16)), false)

/-- Receive one line of a request's RA: decode, count, log. -/
def State.receiveLine (s : State) (ch : Fin 64) (key : Nat) (wrong : SLine) (inj : Nat) (m : MasterId) (access : Nat) :
    State × (SLine × DecodeOut) :=
  let d := s.decodeAt ch key wrong inj
  if d.2 then (s, d.1)
  else match d.1.2 with
    | .clean => (s, d.1)
    | .corrected t e => (s.noteCorrected ch key t e m access, d.1)
    | .uncorrectable => (s.noteUncorrectable ch key m access, d.1)

/-- Receive the 16 lines of a row for a request (R95, R97); `n` symbols that an injection corrupts lie in the line that the request
names (R120). -/
def State.receiveRow (s : State) (ch : Fin 64) (row : Nat) (wrong : BitVec 10240) (n named : Nat) (m : MasterId) (access : Nat) :
    State × List (SLine × DecodeOut) :=
  let r := (List.range 16).foldl (fun (acc : State × List (SLine × DecodeOut)) i =>
    let x := acc.1.receiveLine ch (row * 16 + i) (wrong.extractLsb' (640 * i) 640) (if i = named then n else 0) m access
    (x.1, x.2 :: acc.2)) (s, [])
  ({ r.1 with free := r.1.free + n }, r.2.reverse)

/-- Merge a row with the queued lines of the row: the queued line wins (R69). -/
def Ctl.mergeRow (c : Ctl) (row : Nat) (lines : List (SLine × DecodeOut)) : List (SLine × DecodeOut) :=
  (List.range 16).map (fun i =>
    match c.queued? (row * 16 + i) with
    | some w => (w.line, .clean)
    | none => nth lines i (0, .uncorrectable))

/-- A row that an RA has brought enters the row cache (R69, R70). -/
def State.cacheRow (s : State) (ch : Fin 64) (row : Nat) (lines : List (SLine × DecodeOut)) (stream : Bool) : State :=
  s.modCtl ch (fun c => c.insertRow { row := row, lines := c.mergeRow row lines } (stream && c.streamEn))

/-- Where a line is found without an RA (R71): cached row, then the write queue; a write that waits for the
queue comes first (R73). -/
def Ctl.find? (c : Ctl) (key : Nat) : Option ((SLine × DecodeOut) × Bool) :=
  match c.waitingLine? key with
  | some w => some ((w.line, .clean), false)
  | none =>
    match c.rcRow? (key / 16) with
    | some r => some (nth r.lines (key % 16) (0, .uncorrectable), true)
    | none => (c.queued? key).map (fun w => ((w.line, .clean), false))

/-- Count a read served from the row cache or from the write queue (R91). -/
def State.countHit (s : State) (ch : Fin 64) (row : Nat) (cached : Bool) : State :=
  s.modCtl ch (fun c =>
    if cached then { c with rcHits := satAdd c.rcHits 1 }.touch row else { c with wqFwd := satAdd c.wqFwd 1 })

/-- An RA for a read or a merge is issued (R91, R120): it counts, and takes an armed injection with it; the injected symbols. -/
def State.issueRa (s : State) (ch : Fin 64) : State × Nat :=
  let n := s.chs[ch].ecc.injReq
  ((s.modCtl ch (fun c => { c with rcMisses := satAdd c.rcMisses 1 })).modEcc ch (fun e => { e with injReq := 0 }), n)

/-- A row read within a command (log entry 8): it takes a slot of its class and an activation, and its row crosses, is checked for
parity, decoded and cached as that of any RA (R44, R49, R69, R95). -/
def State.rowNow (s : State) (ch : Fin 64) (key : Nat) (m : MasterId) (access cls : Nat) (stream : Bool) :
    State × List (SLine × DecodeOut) :=
  let row := key / 16
  let i := (s.takeSlot ch row cls).issueRa ch
  let x := i.1.crossRead ch (rowOfKey row).layer 0 0
  let r := x.1.receiveRow ch row x.2 i.2 (key % 16) m access
  (r.1.cacheRow ch row r.2 stream, (r.1.chs[ch].ctl).mergeRow row r.2)

/-- A line for an access that the stack makes inside one command (control cores, dispatcher, walker, engines' source rows): from the
queue or cache, or by an RA within the command (log entry 8). An engine's read with the stream hint is a read of the row: the engine
holds the row from its first line on, and its further lines are no reads of their own (R70, R158). -/
def State.lineNow (s : State) (ch : Fin 64) (key : Nat) (m : MasterId) (access cls : Nat) (stream : Bool) :
    State × (SLine × DecodeOut) :=
  match (s.chs[ch].ctl).find? key with
  | some (l, cached) =>
    if stream then
      (if cached && s.chs[ch].ctl.isHeld (key / 16) then s
       else (s.countHit ch (key / 16) cached).modCtl ch (fun c => c.holdRow (key / 16)), l)
    else (s.countHit ch (key / 16) cached, l)
  | none =>
    let r := s.rowNow ch key m access cls stream
    (r.1.modCtl ch (fun c => Ctl.trim (if stream then c.holdRow (key / 16) else c)), nth r.2 (key % 16) (0, .uncorrectable))

/-! The counter cache and the tree walker (R141-R143). -/

/-- All ones: the end of a counter (R145). -/
def ctrEnd : W64 := BitVec.allOnes 64
/-- A counter line in the cache. -/
def State.ctrCached (s : State) (k i : Nat) : Option CtrLine := smGet? s.sec.cache (s.ctrAt k i / 64)
/-- Change a counter line in the cache. -/
def State.setCtr (s : State) (k i : Nat) (c : CtrLine) : State :=
  { s with sec := { s.sec with cache := smPut s.sec.cache (s.ctrAt k i / 64) c } }
/-- Counter i of a level's children: the counter that covers line or child x of level k - 1, in level k. -/
def CtrLine.at (c : CtrLine) (i : Nat) : W64 := c.ctrs.toList.getD (i % 8) 0
/-- The parent counter of line i of level k: a counter of level k + 1, or root counter i (R137). -/
def State.parentCtr (s : State) (k i : Nat) : W64 :=
  if k = s.levels then smGetD s.sec.roots i 0
  else match s.ctrCached (k + 1) (i / 8) with
    | some c => c.at i
    | none => 0

/-- The record of a failed walk (R143): TREE_FAIL, and CRY_LAST_FAIL of the counter line's channel. -/
def State.walkFail (s : State) (k i : Nat) (st : CStatus) (kind : Nat) : State :=
  let a := s.ctrAt k i
  let l := s.decodeAddr a
  let s := s.modCry l.ch (fun c => { c with lastFail := posWord l.key ||| at32 4 kind })
  s.log evTreeFail a acWalk (s.self agentWalker) st.code

/-- Evict a clean counter line that covers no cached line, other than the one just fetched, once the cache holds more than 262,144 (R141,
log entry 12). -/
def State.evictCtr (s : State) (keep : Nat) : State :=
  if s.sec.cache.length ≤ 262144 then s
  else
    let leaf := s.sec.cache.find? (fun kv =>
      !kv.2.dirty && !kv.2.sealHeld && kv.1 != keep &&
      (match ctrOfAddr s.glb.variant s.sec.capCode (kv.1 * 64) with
       | some (k, i) => k = 1 || (List.range 8).all (fun j => (s.ctrCached (k - 1) (8 * i + j)).isNone)
       | none => true))
    match leaf with
    | none => s
    | some kv => { s with sec := { s.sec with cache := smDel s.sec.cache kv.1 } }

/-- Fetch and verify one counter line whose parent is cached or a root counter (R141, R143). A line under a parent counter at its end is
held for ever (R145). -/
def State.fetchCtr (s : State) (k i : Nat) : State × CStatus :=
  let a := s.ctrAt k i
  let l := s.decodeAddr a
  if s.chs[l.ch].tsv.offline then (s.walkFail k i .channelOffline 2, .channelOffline)
  else if !s.distPowered (distOf l.ch) then (s.walkFail k i .domainDown 2, .domainDown)
  else
    let r := s.lineNow l.ch l.key (s.self agentWalker) acWalk 15 false
    let s := { r.1 with sec := { r.1.sec with ctrMisses := satAdd r.1.sec.ctrMisses 1 } }
    let ln := r.2.1
    if r.2.2 = .uncorrectable then (s.walkFail k i .uncorrectable 2, .uncorrectable)
    else if linePoison ln then (s.walkFail k i .poisoned 2, .poisoned)
    else
      let inj := s.chs[l.ch].cry.injCtr
      let s := s.modCry l.ch (fun c => { c with injCtr := false })
      let want := tagOf s.sec.treeKey s.sec.treeHash (lineData ln) (a / 64) (s.parentCtr k i) (lineState ln)
      let got := if inj then lineTag ln ^^^ 1#56 else lineTag ln
      if !lineTagged ln || got ≠ want then (s.walkFail k i .integrityFail 1, .integrityFail)
      else
        let c : CtrLine := {
          ctrs := Vector.ofFn (fun j : Fin 8 => (lineData ln).extractLsb' (64 * j.val) 64), sealHeld := s.parentCtr k i == ctrEnd }
        ((s.setCtr k i c).evictCtr (a / 64), .ok)

/-- The highest missing line on the way from line i of level k to the root, by level. -/
def State.highestMissing (s : State) : Nat → Nat → Nat → Option (Nat × Nat)
  | 0, _, _ => none
  | fuel + 1, k, i =>
    if (s.ctrCached k i).isSome then none
    else if k = s.levels then some (k, i)
    else match s.highestMissing fuel (k + 1) (i / 8) with
      | some x => some x
      | none => some (k, i)

/-- A whole walk inside one command: fetch from the highest missing line down to line i of level k. -/
def State.walkNow (s : State) : Nat → Nat → Nat → State × CStatus
  | 0, _, _ => (s, .ok)
  | fuel + 1, k, i =>
    match s.highestMissing 8 k i with
    | none => (s, .ok)
    | some (k', i') =>
      let r := s.fetchCtr k' i'
      if r.2 = .ok then r.1.walkNow fuel k i else r

/-- The level-1 counter line that a line of an entry needs (R132): inside the protected region, with ENC. -/
def State.ctrNeeded (s : State) (e : W32) (a : Nat) : Option Nat :=
  if peEnc e && s.inProtected a then some (a / 512) else none

/-- The counter of a line (R132): 0 outside the protected region. -/
def State.lineCtr (s : State) (e : W32) (a : Nat) : W64 :=
  match s.ctrNeeded e a with
  | none => 0
  | some i => match s.ctrCached 1 i with
    | some c => c.at (a / 64)
    | none => 0

/-- Some ancestor of a data line is held for ever because its parent counter reached its end (R145). -/
def State.sealHeldAbove (s : State) (a : Nat) : Bool :=
  (List.range s.levels).any (fun j =>
    match s.ctrCached (j + 1) (a / 64 / 8 ^ (j + 1)) with
    | some c => c.sealHeld
    | none => false)

/-! Opening and storing a line. -/

/-- The tag failure of a cached line has been logged (R146). -/
def Ctl.tagLoggedAt (c : Ctl) (key : Nat) : Bool :=
  match c.rcRow? (key / 16) with
  | some r => r.tagLogged.contains (key % 16)
  | none => false

/-- Note a failed data tag (R146, R147): count, record, log unless the cached row has logged it, and block a sticky page. -/
def State.tagFail (s : State) (ch : Fin 64) (e : W32) (a : Nat) (key : Nat) (m : MasterId) (access : Nat) (partialW : Bool) : State :=
  let logged := (s.chs[ch].ctl).tagLoggedAt key
  let s := s.modCry ch (fun c =>
    { c with tagFail := satAdd c.tagFail 1, lastFail := posWord key ||| at32 3 (b2n partialW) })
  let s := if logged then s else s.log (evTagFail ch.val) a access m CStatus.integrityFail.code
  let s := s.modCtl ch (fun c => { c with rc := c.rc.map (fun r =>
    if r.row = key / 16 && !r.tagLogged.contains (key % 16) then { r with tagLogged := (key % 16) :: r.tagLogged } else r) })
  if peSticky e then s.block (a / 131072) else s

/-- Steps 4-7 of R127 on a line that has been read, and its decryption: status and plaintext. The counter
line it needs is in the cache. -/
def State.openLine (s : State) (ch : Fin 64) (m : MasterId) (access : Nat) (e : W32) (a : Nat)
    (ln : SLine × DecodeOut) (partialW : Bool) : State × CStatus × BitVec 512 :=
  let key := (s.decodeAddr a).key
  if ln.2 = .uncorrectable then (s, .uncorrectable, 0)
  else if linePoison ln.1 then (s, .poisoned, 0)
  else if s.isWalkerScrubber m then (s, .ok, lineData ln.1)
  else
    let c := s.lineCtr e a
    let k := s.keySlot (peSlot e)
    if peInt e then
      let inj := s.chs[ch].cry.injData
      let s := s.modCry ch (fun x => { x with injData := false })
      let got := if inj then lineTag ln.1 ^^^ 1#56 else lineTag ln.1
      if !lineTagged ln.1 || got ≠ tagOf k.tagKey k.hashKey (lineData ln.1) (a / 64) c (lineState ln.1) then
        (s.tagFail ch e a key m access partialW, .integrityFail, 0)
      else (s, .ok, if peEnc e then lineData ln.1 ^^^ keystream k.dataKey c (a / 64) else lineData ln.1)
    else if peEnc e then (s, .ok, lineData ln.1 ^^^ keystream k.dataKey c (a / 64))
    else (s, .ok, lineData ln.1)

/-- Increment a line's counter in the cached level-1 line (R140) and mark that line dirty. -/
def State.bumpCtr (s : State) (i x : Nat) : State × W64 :=
  match s.ctrCached 1 i with
  | none => (s, 0)
  | some c =>
    let v := c.at x + 1
    let s := s.setCtr 1 i { c with ctrs := c.ctrs.setIfInBounds (x % 8) v, dirty := true }
    let k := s.ctrAt 1 i / 64
    (if c.dirty then s else { s with sec := { s.sec with dirty := s.sec.dirty ++ [k] } }, v)

/-- The line is sealed against writes: its counter is at its end, or a counter above it is (R145). -/
def State.isSealed (s : State) (e : W32) (a : Nat) : Bool :=
  (s.ctrNeeded e a).isSome && (s.lineCtr e a == ctrEnd || s.sealHeldAbove a)

/-- The counter under which a write is stored (R140): a queued line keeps its counter; otherwise it rises by 1. -/
def State.writeCtr (s : State) (ch : Fin 64) (e : W32) (a key : Nat) : State × W64 :=
  match s.ctrNeeded e a with
  | none => (s, 0)
  | some i =>
    if ((s.chs[ch].ctl).waitingLine? key).isSome || ((s.chs[ch].ctl).queued? key).isSome then (s, s.lineCtr e a)
    else s.bumpCtr i (a / 64)

/-- The stored form of a write (R100, R132, R133, R145), and the state that its counter leaves. -/
def State.storedForm (s : State) (ch : Fin 64) (m : MasterId) (access : Nat) (e : W32) (a key : Nat)
    (data : BitVec 512) (poison : Bool) (cls : BitVec 4) : State × WqLine :=
  let r := s.writeCtr ch e a key
  let s := r.1
  let c := r.2
  let sealed := (s.ctrNeeded e a).isSome && c == ctrEnd
  let s := if sealed then s.log (evLineSealed ch.val) a access m else s
  if poison then (s, { key := key, line := poisonLine, cls := cls })
  else
    let k := s.keySlot (peSlot e)
    let stored := if peEnc e then data ^^^ keystream k.dataKey c (a / 64) else data
    let st : Byte := (if peInt e then 4#8 else 0#8) ||| (if sealed then 2#8 else 0#8)
    let tag := if peInt e then tagOf k.tagKey k.hashKey stored (a / 64) c st else 0
    (s, { key := key, line := mkLine stored tag st, cls := cls })

/-- Count a write that completes with SEALED (R154). -/
def State.countSealed (s : State) (ch : Fin 64) : State :=
  s.modCry ch (fun c => { c with sealedCount := satAdd c.sealedCount 1 })

/-- Merge bytes by mask (R74). -/
def mergeBytes (old new : BitVec 512) (mask : BitVec 64) : BitVec 512 :=
  (List.range 64).foldl (fun acc i =>
    if bit mask i then (acc &&& ~~~(0xFF#512 <<< (8 * i))) ||| ((byteOf new i).setWidth 512 <<< (8 * i)) else acc) old

end Sys2Proof.Machine
end

