-- ==== Sys2Proof/Machine/Slice.lean ====
section
/-! DEFINITION. Requests at their slice: the checks in their order, row cache and write queue, walks, and
the completion (R25, R64, R67, R71-R74, R99, R127, R141, R145, R235, R405). -/

namespace Sys2Proof.Machine

/-! The boot window (R394). -/

/-- The stack is in the boot state: an image does not run (R31). -/
def State.inBoot (s : State) : Bool := decide (s.boot.phase = .boot) || decide (s.boot.phase = .verifying)
/-- Bytes of the boot window. -/
def State.winRead (s : State) (off len : Nat) : List Byte := (List.range len).map (fun i => smGetD s.boot.window (off + i) 0)
/-- Write bytes of the boot window. -/
def winPut : SMap Byte → Nat → List Byte → SMap Byte
  | w, _, [] => w
  | w, k, b :: bs => winPut (if b = 0 then smDel w k else smPut w k b) (k + 1) bs
/-- The window takes a write: between FW_BEGIN and FW_COMMIT and from an offset within SIZE (R394). -/
def State.winTakes (s : State) (off : Nat) : Bool := s.boot.loading && decide (off < s.boot.size)
/-- Store bytes in the boot window; those beyond SIZE take no effect (R394). -/
def State.winStore (s : State) (off : Nat) (bs : List Byte) : State :=
  { s with boot := { s.boot with window := winPut s.boot.window off (bs.take (s.boot.size - off)) } }

/-! Before the channel. -/

/-- The page entry that an engine holds for a request that is one of its source reads (R158, R171). -/
def State.srcEntry (s : State) (r : Req) : Option W32 :=
  match r.origin with
  | .stack => none
  | .port j _ =>
    (portOfEngine j).bind (fun e => ((s.engs.eng[e].io).find? (fun i => i.tag == r.tag)).bind (fun i => i.src.map (fun x => x.entry)))

/-- The entry under which a request is checked: the one that its engine holds for the tile, or the one in force (R25, R171). -/
def State.entryFor (s : State) (r : Req) : W32 := (s.srcEntry r).getD (s.pageEntry (r.addr.toNat / 131072))

/-- The ACCESS code of a request (R437): an engine's read of its source is no other read. -/
def State.reqAccess (s : State) (r : Req) : Nat := if (s.srcEntry r).isSome then acEngineRead else accessOf r.kind

/-- A job that names an engine of District `k` (R19 step 1). -/
def Job.inDistrict (j : Job) (k : Fin 8) : Bool := (fins 64).any (fun e => bit j.set e.val && decide (distOf e = k))
/-- A request of a running job that names an engine of District `k`, wherever it is served (R19 step 3). -/
def State.jobRequest (s : State) (k : Fin 8) (r : Req) : Bool :=
  match r.origin with
  | .stack => false
  | .port j _ =>
    match (portOfEngine j).bind (fun e => s.engs.eng[e].run) with
    | some x => s.engs.jobs.any (fun b => b.id == x.job && b.inDistrict k)
    | none => false

/-- The refusals that need no channel: LOCK clear (R64), a stack that is not ready (R405), an address beyond the
capacity (R67), a District that is off or stopping (R19), an offline channel (R55), a channel that has
stopped accepting for a drain (R89). `inside`: the request had entered the District before, or belongs to a job of R19 step 1. -/
def State.gate (s : State) (m : MasterId) (a access : Nat) (inside : Bool) : State × Option CStatus :=
  if !s.glb.mapLock then (s, some .internal)
  else if !(match s.boot.phase with | .ready | .warm _ => true | _ => false) then (s, some .domainDown)
  else if s.glb.variant.capacity ≤ a then (s.log evAddrInvalid a access m CStatus.notPermitted.code, some .notPermitted)
  else
    let ch := (s.decodeAddr a).ch
    let d := s.dist[distOf ch]
    match d.fn.st with
    | .off | .starting => (s, some .domainDown)
    | st =>
      if st = .stopping && !inside then (s, some .domainDown)
      else if s.chs[ch].tsv.offline then (s, some .channelOffline)
      else match s.chs[ch].ctl.state with
        | .draining | .selfRefresh | .off => (s, some .channelOffline)
        | _ => (s, none)

/-- Line numbers that a request touches in its channel. -/
def State.reqKeys (s : State) (r : Req) : List Nat :=
  let l := s.decodeAddr r.addr.toNat
  if isRow r.kind then (List.range 16).map (fun i => rowKey l.row * 16 + i) else [l.key]

/-- Two requests touch a common line. -/
def State.meet (s : State) (r r' : Req) : Bool :=
  let k := s.reqKeys r'
  (s.reqKeys r).any (fun x => k.contains x)

/-- Lines by number that a request holds. -/
abbrev HeldLines := List (Nat × (SLine × DecodeOut))

/-- The line of a request, without an RA: where the slice has it now, or as the request received it. -/
def State.lineFor (s : State) (got : HeldLines) (ch : Fin 64) (key : Nat) : SLine × DecodeOut :=
  match (s.chs[ch].ctl).find? key with
  | some x => x.1
  | none => ((got.find? (fun x => x.1 == key)).map (fun x => x.2)).getD (0, .uncorrectable)

/-! Walks (R141). -/

/-- Counter walks outstanding for lines of a channel, and the one walk that fetches ahead of the channel's engine (R154). -/
def State.walksOf (s : State) (n : Fin 64) : Nat :=
  countIf s.sec.walks (fun (w : Walk) => w.waiters.any (fun (x : WalkReq) => x.ch == n.val)) +
  b2n (s.sec.ahead.any (fun i => (s.decodeAddr (512 * i)).ch = n))
/-- A walk may begin for a line of a channel: it shares one that is under way, or fewer than 32 are outstanding (R154). -/
def State.canWalk (s : State) (ch : Fin 64) (idx : Nat) : Bool :=
  s.sec.walks.any (fun x => x.idx == idx) || decide (s.walksOf ch < 32)

/-- A request waits for a level-1 counter line; requests that need the same line share one walk. -/
def State.pushWalk (s : State) (ch : Fin 64) (r : Req) (e : W32) (got : HeldLines) (bad : List (Nat × CStatus)) (idx : Nat) : State :=
  let hold := !isFull r.kind
  let keys := if hold then s.reqKeys r else []
  let w : WalkReq := { ch := ch.val, req := r, entry := e, lines := keys.map (fun k => (k, s.lineFor got ch k)), bad := bad }
  let s := if hold then s.modCtl ch (fun c => c.pin (rowKey (s.decodeAddr r.addr.toNat).row)) else s
  let s := s.modCry ch (fun c => { c with walkCount := satAdd c.walkCount 1 })
  if s.sec.walks.any (fun x => x.idx == idx) then
    { s with sec := { s.sec with walks := s.sec.walks.map (fun x => if x.idx = idx then { x with waiters := x.waiters ++ [w] } else x) } }
  else { s.started with sec := { s.sec with walks := s.sec.walks ++ [{ lvl := 1, idx := idx, waiters := [w] }] } }

/-! Serving. -/

/-- A line that is here fails to decode or is poisoned: its request ends before any counter walk (R127). -/
def State.failsEarly (s : State) (got : HeldLines) (ch : Fin 64) (key : Nat) : Bool :=
  let l := s.lineFor got ch key
  l.2 = .uncorrectable || linePoison l.1

/-- The first level-1 counter line that a request needs and the cache lacks. A full-line write does not look at
the old line; the others need no counter for a line that fails to decode or is poisoned (R127). Lines in `bad` could not be obtained. -/
def State.missingCtr (s : State) (ch : Fin 64) (r : Req) (e : W32) (got : HeldLines) (bad : List (Nat × CStatus) := []) : Option Nat :=
  let a := r.addr.toNat
  let as := if isRow r.kind then (List.range 16).map (fun i => a / 1024 * 1024 + 64 * i) else [a]
  as.findSome? (fun x =>
    match s.ctrNeeded e x with
    | none => none
    | some i =>
      if (s.ctrCached 1 i).isSome || bad.any (fun b => b.1 == i) ||
         (!isFull r.kind && s.failsEarly got ch (s.decodeAddr x).key) then none else some i)

/-- Open one line of a read: its status, its plaintext, and whether the line itself is poisoned. A line whose counter line a walk could
not obtain has that walk's outcome, once it has decoded and is not poisoned (R127, R143, R186). -/
def State.readOne (s : State) (ch : Fin 64) (r : Req) (e : W32) (got : HeldLines) (bad : List (Nat × CStatus)) (a : Nat) :
    State × CStatus × BitVec 512 × Bool :=
  let ln := s.lineFor got ch (s.decodeAddr a).key
  let pois := linePoison ln.1 && decide (ln.2 ≠ .uncorrectable)
  match (if s.failsEarly got ch (s.decodeAddr a).key then none else (s.ctrNeeded e a).bind (fun i => bad.find? (fun b => b.1 == i))) with
  | some b => (s, b.2, 0, pois)
  | none =>
    let o := s.openLine ch r.master (s.reqAccess r) e a ln false
    (o.1, o.2.1, o.2.2, pois)

/-- An engine holds the cached row of its source read until it has evaluated the tile (R158). -/
def State.holdSource (s : State) (ch : Fin 64) (r : Req) : State :=
  if (s.srcEntry r).isSome then s.modCtl ch (fun c => c.holdRow (rowKey (s.decodeAddr r.addr.toNat).row)) else s

/-- Serve a line read (R127); an engine learns with a source line whether the line was reached. -/
def State.serveLine (s : State) (ch : Fin 64) (r : Req) (e : W32) (got : HeldLines) (bad : List (Nat × CStatus) := []) : State :=
  let o := s.readOne ch r e got bad r.addr.toNat
  (o.1.complete { req := r, status := o.2.1, data := if o.2.1 = .ok then [o.2.2.1] else [],
                  lines := if (s.srcEntry r).isSome then [(o.2.1, o.2.2.2)] else [], epoch := o.1.chs[ch].ctl.epoch }).holdSource ch r

/-- Serve a row read line by line: status of the lowest line that fails, the lines that are clean, and the line
status field (R99, R235; log entry 14); an engine learns of each line of a source row (R172, R186). -/
def State.serveRow (s : State) (ch : Fin 64) (r : Req) (e : W32) (got : HeldLines) (bad : List (Nat × CStatus) := []) : State :=
  let base := r.addr.toNat / 1024 * 1024
  let out := (List.range 16).foldl (fun (acc : State × List (CStatus × BitVec 512 × Bool)) i =>
    let o := acc.1.readOne ch r e got bad (base + 64 * i)
    (o.1, acc.2 ++ [o.2])) (s, [])
  let st := (out.2.find? (fun x => decide (x.1 ≠ .ok))).map (fun x => x.1)
  let ls := (List.range 16).foldl (fun (v : BitVec 16) i => setBit v i (decide ((nth out.2 i (.ok, 0, false)).1 ≠ .ok))) 0
  (out.1.complete { req := r, status := st.getD .ok, data := out.2.map (fun x => if x.1 = .ok then x.2.1 else 0), lineStatus := ls,
                    lines := if (s.srcEntry r).isSome then out.2.map (fun x => (x.1, x.2.2)) else [],
                    epoch := out.1.chs[ch].ctl.epoch }).holdSource ch r

/-- Store one line for a request and complete it when the line enters the queue (R72). -/
def State.storeFor (s : State) (ch : Fin 64) (r : Req) (e : W32) (a : Nat) (data : BitVec 512) (poison : Bool) : State :=
  let key := (s.decodeAddr a).key
  let f := s.storedForm ch r.master (s.reqAccess r) e a key data poison r.cls
  let q := f.1.enqueue ch f.2 (some r)
  if q.2 then q.1.completeAt ch r .ok else q.1

/-- Serve a partial write whose old line is here (R74). -/
def State.servePartial (s : State) (ch : Fin 64) (r : Req) (e : W32) (got : HeldLines) (data : BitVec 512) (mask : BitVec 64) : State :=
  let a := r.addr.toNat
  let key := (s.decodeAddr a).key
  let old := s.lineFor got ch key
  let o := s.openLine ch r.master (s.reqAccess r) e a old true
  let s := o.1
  if o.2.1 ≠ .ok then s.completeAt ch r o.2.1
  else if lineSealed old.1 || s.isSealed e a then (s.countSealed ch).completeAt ch r .sealed
  else s.storeFor ch r e a (mergeBytes o.2.2 data mask) false

/-- Serve a full-line write (R74): only the SEALED check is left. -/
def State.serveWrite (s : State) (ch : Fin 64) (r : Req) (e : W32) (data : BitVec 512) (poison : Bool) : State :=
  let a := r.addr.toNat
  if s.isSealed e a then (s.countSealed ch).completeAt ch r .sealed
  else s.storeFor ch r e a data poison

/-- Serve a row write: each line as a full-line write; the completion waits for the last line and carries the
status of the lowest line that was refused (R185, R235; log entry 14). -/
def State.serveRowWrite (s : State) (ch : Fin 64) (r : Req) (e : W32) (data : List (BitVec 512)) (poison : BitVec 16) : State :=
  let base := r.addr.toNat / 1024 * 1024
  let out := (List.range 16).foldl (fun (acc : State × CStatus × Bool) i =>
    let s := acc.1
    let a := base + 64 * i
    if s.isSealed e a then (s.countSealed ch, if acc.2.1 = .ok then .sealed else acc.2.1, acc.2.2)
    else
      let f := s.storedForm ch r.master (s.reqAccess r) e a (s.decodeAddr a).key (nth data i 0) (bit poison i) r.cls
      let q := f.1.enqueue ch f.2 none
      (q.1, acc.2.1, acc.2.2 || !q.2)) (s, .ok, false)
  if out.2.2 then
    out.1.modCtl ch (fun c => { c with wqWait := c.wqWait.dropLast ++
      (c.wqWait.getLast?.toList.map (fun w => { w with req := some r, st := out.2.1 })) })
  else out.1.completeAt ch r out.2.1

/-- Serve a request whose line or row is here: if a counter line is missing it waits for the walk. -/
def State.serve (s : State) (ch : Fin 64) (r : Req) (e : W32) (got : HeldLines := []) (bad : List (Nat × CStatus) := []) : State :=
  match s.missingCtr ch r e got bad with
  | some idx =>
    -- a request that finds 32 walks outstanding waits in the slice and looks its page up again (R25, R154)
    if s.canWalk ch idx then s.pushWalk ch r e got bad idx else s.modCtl ch (fun c => { c with waiting := c.waiting ++ [r] })
  | none =>
    match r.kind with
    | .lineRead => s.serveLine ch r e got bad
    | .rowRead _ => s.serveRow ch r e got bad
    | .partialWrite d m => s.servePartial ch r e got d m
    | .lineWrite d p => s.serveWrite ch r e d p
    | .rowWrite d p => s.serveRowWrite ch r e d p
    | .opDispatch _ _ => s

/-- The data of a read or partial write are in the row cache or the queue. -/
def Ctl.ready (c : Ctl) (r : Req) (keys : List Nat) : Bool :=
  if isRow r.kind then keys.all (fun k => (c.find? k).isSome) else keys.all (fun k => (c.find? k).isSome)

/-- Entries of the request queue as RQ_LEVEL counts them (R68, R91): the reads and partial writes that wait in the slice, those
that a hold of the channel makes wait among them (R58). DEDUCED (log entry 78). -/
def Ctl.rqLevel (c : Ctl) : Nat := min 64 (c.rq.length + countIf c.waiting (fun r => !isFull r.kind))

/-- An RA of a row for requests is chosen or issued: requests that miss on the row share it (R71). -/
def Ctl.raComing (c : Ctl) (row : Nat) : Bool := (c.chosen ++ c.issued).any (fun x => decide (x.cmd = .ra row false))

/-- A request enters the request queue to wait for its row, or waits outside it while the queue is full (R68). -/
def State.pushRq (s : State) (ch : Fin 64) (r : Req) (e : W32) : State :=
  let row := rowKey (s.decodeAddr r.addr.toNat).row
  s.modCtl ch (fun c =>
    if c.rq.length < 64 then
      { c with rq := c.rq ++ [{ req := r, row := row, entry := e, since := s.strobe / 256, sched := c.raComing row }] }
    else { c with waiting := c.waiting ++ [r] })

/-- A request at its slice, past the gate (R71-R74, R127). -/
def State.atSlice (s : State) (r : Req) : State :=
  let l := s.decodeAddr r.addr.toNat
  let ch := l.ch
  let s := if isWrite r.kind then (s.reqKeys r).foldl (fun s k => s.modCh ch (fun c => c.noteWrite k)) s else s
  let c := s.chs[ch].ctl
  if (s.chs[ch]).holds || c.waiting.any (s.meet r) || (s.walkers ch).any (s.meet r) ||
     (isFull r.kind && c.rq.any (fun q => s.meet r q.req)) || (s.changing (r.addr.toNat / 131072) && (s.srcEntry r).isNone) then
    s.modCtl ch (fun c => { c with waiting := c.waiting ++ [r] })
  else
    let e := s.entryFor r
    let chk := s.pageCheckWith r.master ch r.addr.toNat (s.reqAccess r) (isWrite r.kind) e (s.srcEntry r).isSome
    match chk.2 with
    | some st => chk.1.completeAt ch r st
    | none =>
      let s := chk.1
      match r.kind with
      | .lineWrite _ _ | .rowWrite _ _ => s.serve ch r e
      | _ =>
        let c := s.chs[ch].ctl
        if c.rq.any (fun q => s.meet r q.req) || !c.ready r (s.reqKeys r) then s.pushRq ch r e
        else (s.countHit ch (rowKey l.row) ((c.rcRow? (rowKey l.row)).isSome)).serve ch r e

/-- A request that came over a link port. -/
def fromLink (r : Req) : Bool := match r.origin with | .port j _ => 8 ≤ j.val && j.val < 72 | .stack => false

/-- The boot window serves the requests of node 0x000's cores in the boot state; a ROW_WR into it from any other sender is
refused (R390, R394, R300). -/
def State.windowRequest (s : State) (r : Req) : Option State :=
  if !(s.inBoot && decide (r.addr.toNat < 4194304)) then none
  else if !(s.boot.scezoPath && isCoreAgent r.master && decide (r.master.node = 0#12)) then
    match r.kind with
    | .rowWrite _ _ => if fromLink r then some (s.complete { req := r, status := .notPermitted }) else none
    | _ => none
  else match r.kind with
    | .rowRead _ =>
      let b := r.addr.toNat / 1024 * 1024
      some (s.complete { req := r, status := .ok, data := (List.range 16).map (fun i => ofBytes 512 (s.winRead (b + 64 * i) 64)) })
    | .lineRead =>
      some (s.complete { req := r, status := .ok, data := [ofBytes 512 (s.winRead (r.addr.toNat / 64 * 64) 64)] })
    | .rowWrite d _ =>
      let b := r.addr.toNat / 1024 * 1024
      if s.winTakes b then
        some ((s.winStore b ((List.range 16).flatMap (fun i => toBytes (nth d i 0) 64))).complete { req := r, status := .ok })
      else some (s.complete { req := r, status := .notPermitted })
    | _ => none

/-- The ingress of a request and the slice, or the dispatcher, that it goes to: the REQ plane keeps the order between them (R235). -/
def State.reqLane (s : State) (p : PReq) : Nat × Nat :=
  (p.ingress.val, if isDispatch p.req.kind then 64 else (s.decodeAddr p.req.addr.toNat).ch.val)

/-- The requests of the REQ plane move on in their order; one that finds no credit holds up those of its ingress to its slice (R233, R235). -/
def State.advanceReq (s : State) : State :=
  let out := s.reqPlane.foldl (fun (acc : Vector Nat 9 × List (Car PReq) × List (Nat × Nat) × List Spot) c =>
    if acc.2.2.1.contains (s.reqLane c.load) then (acc.1, acc.2.1 ++ [c], acc.2.2)
    else
      let r := carMove (reqEntries c.load.req.kind) c.todo c.spot acc.1
      (r.1, acc.2.1 ++ [{ c with spot := r.2.1, todo := r.2.2.1 }],
       if r.2.2.1.isEmpty then acc.2.2.1 else s.reqLane c.load :: acc.2.2.1, acc.2.2.2 ++ r.2.2.2)) (s.credits.req, [], [], [])
  ({ s with credits := { s.credits with req := out.1 }, reqPlane := out.2.1 }).countFwd out.2.2.2

/-- The completions on their way to a port move on (R233, R234). -/
def State.advancePort (s : State) (j : Fin 140) : State :=
  if (s.mports[j].inflight).isEmpty then s
  else
    let out := (s.mports[j].inflight).foldl (fun (acc : Vector Nat 9 × List (Car Completion) × List Spot) c =>
      let r := carMove (reqEntries c.load.req.kind) c.todo c.spot acc.1
      (r.1, acc.2.1 ++ [{ c with spot := r.2.1, todo := r.2.2.1 }], acc.2.2 ++ r.2.2.2)) (s.credits.cmp, [], [])
    (({ s with credits := { s.credits with cmp := out.1 } }).modMport j (fun p => { p with inflight := out.2.1 })).countFwd out.2.2

/-- The planes move on as far as their credits go: nothing on those paths is timed (R233). -/
def State.advance (s : State) : State := (fins 140).foldl State.advancePort s.advanceReq

/-- A request leaves the REQ plane at its target: the first of its ingress for it, at its last hop (R235). -/
def State.takeReq (s : State) (r : Req) : Option State :=
  match s.reqPlane.find? (fun c => c.load.req = r) with
  | none => none
  | some c =>
    if s.reqPlane.find? (fun x => s.reqLane x.load = s.reqLane c.load) = some c && c.todo.isEmpty then
      some (({ s with reqPlane := s.reqPlane.erase c,
                      credits := { s.credits with req := giveSpot s.credits.req c.spot (reqEntries r.kind) } }).countFwd c.spot.toList)
    else none

/-- A request passes the gate of the node's memory and is handled at its slice. -/
def State.admitted (s : State) (r : Req) : State :=
  match s.windowRequest r with
  | some s => s
  | none =>
    let k := distOf (s.decodeAddr r.addr.toNat).ch
    let g := s.gate r.master r.addr.toNat (s.reqAccess r) (s.dist[k].accepted.contains (r.master, r.tag) || s.jobRequest k r)
    match g.2 with
    | some st => g.1.complete { req := r, status := st, epoch := if st = .channelOffline
        then g.1.chs[(s.decodeAddr r.addr.toNat).ch].ctl.epoch else 0 }
    | none => g.1.atSlice r

/-- A request reaches the node's memory, if it has come to the end of its path and no earlier one of its ingress for the slice is still
under way (R235). -/
def State.arrive (s : State) (r : Req) : State :=
  if !s.dieUp then s
  else match s.advance.takeReq r with
    | none => s.advance
    | some s => s.admitted r

/-- Requests that waited in the slice are handled again in their order; one that still must wait goes back. -/
def State.drainWaiting (s : State) (ch : Fin 64) : State :=
  let ws := s.chs[ch].ctl.waiting
  ws.foldl (fun s r => s.atSlice r) (s.modCtl ch (fun c => { c with waiting := [] }))

/-- Requests in the request queue whose row has come are served in order, from the lines that came (`got`) where the row cache did not take
them; then those that waited behind them. -/
def State.serveRow? (s : State) (ch : Fin 64) (row : Nat) (got : HeldLines := []) : State :=
  let mine := (s.chs[ch].ctl.rq).filter (fun q => q.row == row)
  let s := s.modCtl ch (fun c => { c with rq := c.rq.filter (fun q => q.row != row) })
  let s := mine.foldl (fun s q =>
    if (s.walkers ch).any (s.meet q.req) then
      -- an earlier request to the line waits for a walk: this one waits behind it (R73)
      s.modCtl ch (fun c => { c with waiting := c.waiting ++ [q.req] })
    else s.serve ch q.req q.entry got) s
  (s.drainWaiting ch).modCtl ch Ctl.trim

/-- Every request of an ended walk is served again, or completes with the walk's outcome (R141, R143). -/
def State.endWalk (s : State) (w : Walk) (st : CStatus) : State :=
  let s := { s with sec := { s.sec with walks := s.sec.walks.filter (fun x => x.idx != w.idx) } }
  let s := w.waiters.foldl (fun s x =>
    let ch : Fin 64 := ⟨x.ch % 64, Nat.mod_lt _ (by decide)⟩
    let s := if st = .ok then s.serve ch x.req x.entry x.lines x.bad
      else if (s.srcEntry x.req).isSome then s.serve ch x.req x.entry x.lines ((w.idx, st) :: x.bad)
      else s.completeAt ch x.req st
    if x.lines.isEmpty then s else s.modCtl ch (fun c => c.unpin (rowKey (s.decodeAddr x.req.addr.toNat).row))) s
  w.waiters.foldl (fun s x => s.drainWaiting ⟨x.ch % 64, Nat.mod_lt _ (by decide)⟩) s

/-- Every request that needs line i of level k, which a walk could not obtain, completes with the walk's outcome (R143). -/
def State.failWalks (s : State) (k i : Nat) (st : CStatus) : State :=
  (s.sec.walks.filter (fun w => w.idx / 8 ^ (k - 1) = i)).foldl (fun s w => s.endWalk w st) s

/-- LINE_READ (R127). -/
def execLineRead (req : Req) (s : State) : Res :=
  match req.kind with
  | .lineRead => .next (s.arrive req)
  | _ => .next s

/-- LINE_WRITE (R72, R74). -/
def execLineWrite (req : Req) (s : State) : Res :=
  match req.kind with
  | .lineWrite _ _ => .next (s.arrive req)
  | _ => .next s

/-- PARTIAL_WRITE (R74). -/
def execPartialWrite (req : Req) (s : State) : Res :=
  match req.kind with
  | .partialWrite _ _ => .next (s.arrive req)
  | _ => .next s

/-- ROW_READ (R235). -/
def execRowRead (req : Req) (s : State) : Res :=
  match req.kind with
  | .rowRead _ => .next (s.arrive req)
  | _ => .next s

/-- ROW_WRITE (R185, R235). -/
def execRowWrite (req : Req) (s : State) : Res :=
  match req.kind with
  | .rowWrite _ _ => .next (s.arrive req)
  | _ => .next s

/-- WRITE_QUEUE_ADMIT (R72): the oldest waiting write enters the queue once a line is free. -/
def State.admitOne (s : State) (ch : Fin 64) : State :=
  match s.chs[ch].ctl.wqWait with
  | [] => s
  | w :: rest =>
    let c := s.chs[ch].ctl
    if (c.queued? w.wline.key).isSome || decide (c.wq.length < 128) then
      let s := s.modCtl ch (fun c => { c with wqWait := rest }.enter w.wline)
      match w.req with
      | some r => s.completeAt ch r w.st
      | none => s
    else s

def execWriteQueueAdmit (ch : Fin 64) (s : State) : Res := .next (s.admitOne ch)

/-! Accesses that the stack makes within one command (control cores, dispatcher, engines): the same checks,
with the walk and the RA inside the command (log entry 8). -/

/-- The counter line that a line needs is in the cache, or one walk brings it, which the requests that wait for the
same line share (R141); the outcome of a failed walk. -/
def State.ensureCtr (s : State) (ch : Fin 64) (e : W32) (a : Nat) : State × CStatus :=
  match s.ctrNeeded e a with
  | none => (s, .ok)
  | some i =>
    if (s.ctrCached 1 i).isSome then (s, .ok)
    else
      let r := (s.modCry ch (fun c => { c with walkCount := satAdd c.walkCount 1 })).walkNow 8 1 i
      match r.1.sec.walks.find? (fun w => w.idx == i) with
      | some w => (r.1.endWalk w r.2, r.2)
      | none => r

/-- The gate and the page checks of an access within a command, under a held entry. A District that is stopping refuses every one
that is not the completion of a job of its own (R19). -/
def State.admitWith (s : State) (m : MasterId) (a access : Nat) (write : Bool) (e : W32) (inside : Bool := false) : State × CStatus :=
  match s.started.gate m a access inside with
  | (s, some st) => (s, st)
  | (s, none) =>
    match s.pageCheckWith m (s.decodeAddr a).ch a access write e with
    | (s, some st) => (s, st)
    | (s, none) => (s, .ok)

/-- Open a line that an access within a command has read: decode and poison, then the counter walk, then the tag
(R127). -/
def State.openNow (s : State) (m : MasterId) (a access : Nat) (e : W32) (ln : SLine × DecodeOut) (partialW : Bool) :
    State × CStatus × BitVec 512 :=
  let ch := (s.decodeAddr a).ch
  if ln.2 = .uncorrectable || linePoison ln.1 then s.openLine ch m access e a ln partialW
  else
    match s.ensureCtr ch e a with
    | (s, .ok) => s.openLine ch m access e a ln partialW
    | (s, st) => (s, st, 0)

/-- Read one line under a held entry, with the stream hint or without: status and plaintext. -/
def State.readWith (s : State) (m : MasterId) (a0 access cls : Nat) (e : W32) (stream : Bool) : State × CStatus × BitVec 512 :=
  let a := a0 / 64 * 64
  match s.admitWith m a access false e with
  | (s, .ok) =>
    let l := s.decodeAddr a
    let r := s.lineNow l.ch l.key m access cls stream
    r.1.openNow m a access e r.2 false
  | (s, st) => (s, st, 0)

/-- Read one line: status and plaintext. -/
def State.readNow (s : State) (m : MasterId) (a access : Nat) (cls : Nat := 15) : State × CStatus × BitVec 512 :=
  s.readWith m a access cls (s.pageEntry (a / 131072)) false

/-- Read `n` lines upwards: the first status that is not OK, and the data. -/
def State.readLinesNow (s : State) (m : MasterId) (a access n : Nat) (cls : Nat := 15) : State × CStatus × List (BitVec 512) :=
  (List.range n).foldl (fun (acc : State × CStatus × List (BitVec 512)) i =>
    if acc.2.1 ≠ .ok then acc
    else
      let r := acc.1.readNow m (a + 64 * i) access cls
      (r.1, r.2.1, acc.2.2 ++ [r.2.2])) (s, .ok, [])

/-- Store a full line for an access within a command (R74). -/
def State.storeFullNow (s : State) (m : MasterId) (a access : Nat) (cls : BitVec 4) (data : BitVec 512) (poison : Bool) :
    State × CStatus :=
  let l := s.decodeAddr a
  let e := s.pageEntry (a / 131072)
  if s.isSealed e a then (s.countSealed l.ch, .sealed)
  else
    let f := s.storedForm l.ch m access e a l.key data poison cls
    ((f.1.enqueue l.ch f.2 none).1, .ok)

/-- Store part of a line for an access within a command (R74). -/
def State.storePartNow (s : State) (m : MasterId) (a access : Nat) (cls : BitVec 4) (data : BitVec 512) (mask : BitVec 64) :
    State × CStatus :=
  let l := s.decodeAddr a
  let e := s.pageEntry (a / 131072)
  let r := s.lineNow l.ch l.key m access cls.toNat false
  match r.1.openNow m a access e r.2 true with
  | (s, .ok, old) =>
    if lineSealed r.2.1 || s.isSealed e a then (s.countSealed l.ch, .sealed)
    else
      let f := s.storedForm l.ch m access e a l.key (mergeBytes old data mask) false cls
      ((f.1.enqueue l.ch f.2 none).1, .ok)
  | (s, st, _) => (s, st)

/-- The channel of an address is in a hold or a fill: accesses to it wait (R58). -/
def State.heldAt (s : State) (a : Nat) : Bool := (s.chs[(s.decodeAddr a).ch]).holds

/-- A write within a command waits in the slice while its channel is held, and takes effect after the hold (R58). -/
def State.parkWrite (s : State) (m : MasterId) (a : Nat) (cls : BitVec 4) (data : BitVec 512) (mask : BitVec 64) (poison : Bool) : State :=
  let k : ReqKind := if mask = BitVec.allOnes 64 || poison then .lineWrite data poison else .partialWrite data mask
  s.modCtl (s.decodeAddr a).ch (fun c => { c with waiting := c.waiting ++
    [{ master := m, tag := 0, cls := cls, node := s.fab.nodeId, addr := BitVec.ofNat 40 a, kind := k, origin := .stack }] })

/-- Write one line, whole or under a byte mask. -/
def State.writeNow (s : State) (m : MasterId) (a0 access : Nat) (cls : BitVec 4) (data : BitVec 512) (mask : BitVec 64)
    (poison : Bool := false) (inside : Bool := false) : State × CStatus :=
  let a := a0 / 64 * 64
  let e := s.pageEntry (a / 131072)
  match s.admitWith m a access true e inside with
  | (s, .ok) =>
    if s.heldAt a then (s.parkWrite m a cls data mask poison, .ok)
    else if mask = BitVec.allOnes 64 || poison then
      match s.ensureCtr (s.decodeAddr a).ch e a with
      | (s, .ok) => s.storeFullNow m a access cls data poison
      | (s, st) => (s, st)
    else s.storePartNow m a access cls data mask
  | (s, st) => (s, st)

/-- Bytes of a list of lines. -/
def lineBytes (ls : List (BitVec 512)) : List Byte := ls.flatMap (fun l => toBytes l 64)

/-- Read bytes of a line-aligned area. -/
def State.readBytesNow (s : State) (m : MasterId) (a access len : Nat) (cls : Nat := 15) : State × CStatus × List Byte :=
  let first := a / 64 * 64
  let r := s.readLinesNow m first access ((a + len - first + 63) / 64) cls
  (r.1, r.2.1, ((lineBytes r.2.2).drop (a - first)).take len)

/-- The part of a byte list that falls into the line at `base`, as data and mask. -/
def linePart (base a : Nat) (bs : List Byte) : BitVec 512 × BitVec 64 :=
  (List.range 64).foldl (fun (acc : BitVec 512 × BitVec 64) i =>
    if a ≤ base + i && base + i < a + bs.length then
      (acc.1 ||| ((nth bs (base + i - a) 0).setWidth 512 <<< (8 * i)), setBit acc.2 i true)
    else acc) (0, 0)

/-- Write bytes, line by line: the first status that is not OK. -/
def State.writeBytesNow (s : State) (m : MasterId) (a access : Nat) (cls : BitVec 4) (bs : List Byte) (inside : Bool := false) :
    State × CStatus :=
  let first := a / 64 * 64
  (List.range ((a + bs.length - first + 63) / 64)).foldl (fun (acc : State × CStatus) i =>
    let p := linePart (first + 64 * i) a bs
    let r := acc.1.writeNow m (first + 64 * i) access cls p.1 p.2 false inside
    (r.1, if acc.2 = .ok then r.2 else acc.2)) (s, .ok)

/-- Whether the control cores can store in a channel now: it is powered, not offline and past its fill. -/
def State.storable (s : State) (ch : Fin 64) : Bool :=
  s.distOn (distOf ch) && !s.chs[ch].tsv.offline && s.chs[ch].ecc.initDone &&
  (match s.chs[ch].ctl.state with | .run | .hold => true | _ => false)

/-- Firmware writes its tables in the command area (R320, R334), line by line; a line whose channel cannot store now keeps its
content (log entry 77). -/
def State.copyOut (s : State) (a : Nat) (bs : List Byte) : State :=
  let m := s.self agentCC0
  let first := a / 64 * 64
  (List.range ((a + bs.length - first + 63) / 64)).foldl (fun s i =>
    let x := first + 64 * i
    let p := linePart x a bs
    if !s.storable (s.decodeAddr x).ch then s
    else if p.2 = BitVec.allOnes 64 then (s.storeFullNow m x acCommand 15 p.1 false).1
    else (s.storePartNow m x acCommand 15 p.1 p.2).1) s

end Sys2Proof.Machine
end

