-- ==== Sys2Proof/Machine/Wire.lean ====
section
/-! DEFINITION. The Scezo fabric as every family sees it: messages and their formats, sealing, flits and
credits on the sending side, routing, transit entries, and completions that cross links
(11_scezo_fabric, R274-R297). -/

namespace Sys2Proof.Machine

/-! Messages (R285-R288). -/

def mtLineRd : Nat := 0x01
def mtLineWr : Nat := 0x02
def mtPartWr : Nat := 0x03
def mtRowRd : Nat := 0x04
def mtRowWr : Nat := 0x05
def mtFence : Nat := 0x06
def mtOpDispatch : Nat := 0x07
def mtCmp : Nat := 0x10
def mtCmpData : Nat := 0x11
def mtCmpRow : Nat := 0x12
def mtMgmtRd : Nat := 0x20
def mtMgmtWr : Nat := 0x21
def mtMbxMsg : Nat := 0x22
def mtRemoteCmd : Nat := 0x23
def mtRouteWrite : Nat := 0x24
def mtFabKey : Nat := 0x25
def mtMgmtCmp : Nat := 0x28
def mtRemoteReply : Nat := 0x29
def mtEnumProbe : Nat := 0x30
def mtNodeAssign : Nat := 0x31
def mtEnumReply : Nat := 0x32
def mtTsyncReq : Nat := 0x38
def mtTsyncRsp : Nat := 0x39
def mtDetach : Nat := 0x3A
def mtAudit : Nat := 0x3B

/-- A header slot. -/
abbrev Hdr := BitVec 128

/-- Fields of a header (R285, R286). -/
def hTy (h : Hdr) : Nat := fieldN h 0 8
def hHops (h : Hdr) : Nat := fieldN h 8 6
def hSr (h : Hdr) : Bool := bit h 14
def hSealed (h : Hdr) : Bool := bit h 15
def hCls (h : Hdr) : BitVec 4 := h.extractLsb' 16 4
def hStatus (h : Hdr) : Nat := fieldN h 20 4
def hTag (h : Hdr) : BitVec 16 := h.extractLsb' 24 16
def hMaster (h : Hdr) : MasterId := h.extractLsb' 40 20
def hKg (h : Hdr) : Bool := bit h 60
def hAddr (h : Hdr) : BitVec 40 := h.extractLsb' 64 40
def hNode (h : Hdr) : BitVec 12 := h.extractLsb' 104 12
def hSrcNode (h : Hdr) : BitVec 12 := h.extractLsb' 64 12
def hEpoch (h : Hdr) : BitVec 16 := h.extractLsb' 80 16
def hLineStatus (h : Hdr) : BitVec 16 := h.extractLsb' 96 16
def hFenceErr (h : Hdr) : Bool := bit h 112

/-- A header with another hop count. -/
def hWithHops (h : Hdr) (n : Nat) : Hdr := (h &&& ~~~(0x3F00#128)) ||| (BitVec.ofNat 128 (n % 64) <<< 8)

/-- A request header (R285); `hi` is bits [127:64]. -/
def reqHdr (ty : Nat) (cls : BitVec 4) (tag : BitVec 16) (m : MasterId) (hi : W64) (sr : Bool := false) (st : Nat := 0) : Hdr :=
  hi ++ (at64 0 ty ||| at64 14 (b2n sr) ||| at64 16 cls.toNat ||| at64 20 st ||| at64 24 tag.toNat ||| at64 40 m.toNat)

/-- Bits [127:64] of a request to an address of a node. -/
def globalHi (node : BitVec 12) (a : BitVec 40) : W64 := at64 40 node.toNat ||| a.setWidth 64

/-- A completion header (R286). -/
def cmpHdr (ty : Nat) (cls : BitVec 4) (tag : BitVec 16) (m : MasterId) (st : CStatus) (src : BitVec 12)
    (epoch : BitVec 16 := 0) (ls : BitVec 16 := 0) (ferr : Bool := false) : Hdr :=
  (at64 0 src.toNat ||| at64 16 epoch.toNat ||| at64 32 ls.toNat ||| at64 48 (b2n ferr)) ++
  (at64 0 ty ||| at64 16 cls.toNat ||| at64 20 st.code ||| at64 24 tag.toNat ||| at64 40 m.toNat)

/-- Slots of a message by its header (R287); `none` for a reserved type. -/
def msgLen (h : Hdr) : Option Nat :=
  match hTy h with
  | 0x00 => some 1 | 0x01 => some 1 | 0x02 => some 6 | 0x03 => some 7 | 0x04 => some 1 | 0x05 => some 66
  | 0x06 => some 1 | 0x07 => some 10 | 0x10 => some 1
  | 0x11 => some (if hStatus h = 0 then 6 else 1)
  | 0x12 => some (if hStatus h ≤ 1 then 66 else 1)
  | 0x20 => some 1 | 0x21 => some 2 | 0x22 => some 2 | 0x23 => some 5
  | 0x24 => some (if hSr h then 6 else 2)
  | 0x25 => some 17 | 0x28 => some 1 | 0x29 => some 2 | 0x30 => some 5 | 0x31 => some 6 | 0x32 => some 2
  | 0x38 => some 1 | 0x39 => some 2 | 0x3A => some 1 | 0x3B => some 3
  | _ => none

/-- The virtual channel of a type (R281, R287): none for NULL and AUDIT. -/
def vcOf (ty : Nat) : Option (Fin 4) :=
  if ty = 0 || ty = mtAudit then none
  else if ty = mtRowWr || ty = mtCmpRow then some 2
  else if ty < 0x10 then some 0
  else if ty < 0x20 then some 1
  else some 3

/-- Slots advertised for a virtual channel (R281). -/
def advertised (v : Fin 4) : BitVec 16 := match v with | 0 => 384 | 1 => 384 | 2 => 1056 | 3 => 64

/-- A completion type (R287). -/
def isCmpTy (ty : Nat) : Bool := ty == mtCmp || ty == mtCmpData || ty == mtCmpRow || ty == mtMgmtCmp || ty == mtRemoteReply || ty == mtEnumReply
/-- The completion type that answers a request type (R287). -/
def answerTy (ty : Nat) : Nat :=
  if ty = mtLineRd then mtCmpData
  else if ty = mtRowRd then mtCmpRow
  else if ty < 0x20 then mtCmp
  else if ty = mtRemoteCmd then mtRemoteReply
  else if ty = mtEnumProbe then mtEnumReply
  else mtMgmtCmp

/-- All slots of a message. -/
def msgSlots (m : Msg) : List (BitVec 128) := m.hdr :: m.slots

/-! Sealing (R289-R291). -/

/-- An AES input block of a seal (R290). -/
def sealBlock (nonce : W64) (src : BitVec 12) (block : Nat) : BitVec 128 :=
  nonce ++ src ++ (0#44) ++ BitVec.ofNat 8 block
/-- XOR payload slots with the keystream (R290). -/
def sealStream (k : FabKeys) (nonce : W64) (src : BitVec 12) (slots : List (BitVec 128)) : List (BitVec 128) :=
  slots.mapIdx (fun i x => x ^^^ aes256 k.dataKey (sealBlock nonce src i))
/-- The two 64-bit words of slots. -/
def slotWords (xs : List (BitVec 128)) : List W64 := xs.flatMap (fun x => [x.setWidth 64, x.extractLsb' 64 64])
/-- The seal tag (R290): header with HOPS 0, mask slot if present, ciphertext. -/
def sealTag (k : FabKeys) (nonce : W64) (src : BitVec 12) (hdr : Hdr) (mask : List (BitVec 128)) (cipher : List (BitVec 128)) : W64 :=
  gf64Hash k.hashKey (slotWords (hWithHops hdr 0 :: (mask ++ cipher))) ^^^ (aes256 k.tagKey (sealBlock nonce src 0xFF)).setWidth 64

/-- Seal the payload of a message under the current set, or send it in the clear without one (R290). -/
def State.sealed (s : State) (hdr : Hdr) (mask payload : List (BitVec 128)) : State × Msg :=
  match s.fab.cur with
  | none => (s, { hdr := hdr, slots := mask ++ (0#128 :: payload) })
  | some k =>
    let n := s.fab.nonce
    let h := hdr ||| BitVec.twoPow 128 15 ||| (if s.fab.kg then BitVec.twoPow 128 60 else 0)
    let c := sealStream k n s.fab.nodeId payload
    let t := sealTag k n s.fab.nodeId h mask c
    ({ s with fab := { s.fab with nonce := n + 1 } }, { hdr := h, slots := mask ++ ((t ++ n) :: c) })

/-- The set of a key generation parity. -/
def Fab.keysOf (f : Fab) (kg : Bool) : Option FabKeys := if kg = f.kg then f.cur else f.prev

/-- The outcome of opening a message (R291). -/
inductive Opened where
  | plain (mask payload : List (BitVec 128))
  | bad
deriving DecidableEq, Repr

/-- Open a sealed message of a sealing node; `nm` is the number of mask slots (R291). -/
def State.openMsg (s : State) (src : BitVec 12) (nm : Nat) (m : Msg) : Opened :=
  let mask := m.slots.take nm
  let sealSlot := nth m.slots nm 0
  let body := m.slots.drop (nm + 1)
  if !hSealed m.hdr then .plain mask body
  else match s.fab.keysOf (hKg m.hdr) with
    | none => .bad
    | some k =>
      let n := sealSlot.setWidth 64
      if sealTag k n src m.hdr mask body = sealSlot.extractLsb' 64 64 then .plain mask (sealStream k n src body) else .bad

/-- Note a seal failure (R291). -/
def State.sealFail (s : State) (m : Msg) : State :=
  let s := { s with fab := { s.fab with sealFail := satAdd s.fab.sealFail 1 } }
  s.logAddr evSealFail (m.hdr.extractLsb' 64 52).toNat acLink (hMaster m.hdr) CStatus.integrityFail.code

/-- Four slots as a line. -/
def slotsLine (xs : List (BitVec 128)) : BitVec 512 := nth xs 3 0 ++ nth xs 2 0 ++ nth xs 1 0 ++ nth xs 0 0
/-- A line as four slots. -/
def lineSlots (l : BitVec 512) : List (BitVec 128) := (List.range 4).map (fun i => l.extractLsb' (128 * i) 128)
/-- 64 slots as a row's lines. -/
def slotsRow (xs : List (BitVec 128)) : List (BitVec 512) := (List.range 16).map (fun i => slotsLine ((xs.drop (4 * i)).take 4))
/-- Eight slots as a descriptor. -/
def slotsDesc (xs : List (BitVec 128)) : BitVec 1024 := slotsLine (xs.drop 4) ++ slotsLine xs

/-! The lanes of a Scezo sub-link (R258, R259). -/

/-- Lanes of a mask, in ascending order. -/
def laneList (m : BitVec 16) : List Nat := (List.range 16).filter (fun i => bit m i)
/-- Lanes in a mask. -/
def laneCount (m : BitVec 16) : Nat := (laneList m).length

/-- One step of a generator x^n + x^m + 1 held in bits [n-1:0] (R258, R271). The spec leaves open which bit leaves: the oldest, bit n-1
(DESIGN CHOICE, log entry 96). -/
def genStep (n m : Nat) (g : BitVec 31) : BitVec 31 :=
  ((g <<< 1) ||| (BitVec.ofBool (g.getLsbD (n - 1) ^^ g.getLsbD (m - 1))).setWidth 31) &&& BitVec.ofNat 31 (2 ^ n - 1)
/-- The seed of a logical lane after a marker (R258). -/
def laneSeed (k : Nat) : BitVec 31 := 0x2AAAAAAA#31 ^^^ BitVec.ofNat 31 k
/-- A symbol through the generator of its lane, bit 0 first (R258). -/
def scramble (g : BitVec 31) (x : Byte) : BitVec 31 × Byte :=
  (List.range 8).foldl (fun r i => (genStep 31 28 r.1, setBit r.2 i (bit r.2 i ^^ r.1.getLsbD 30))) (g, x)

/-- The marker that a physical lane of a sub-link sends (R259). -/
def markerBytes (l : SubLink) (lane : Nat) (node : BitVec 12) (seq : BitVec 16) (quiet retrain : Bool) : List Byte :=
  let body : List Byte := [BitVec.ofNat 8 (lane % 8 + 8 * l.sub.val), BitVec.ofNat 8 l.port.val] ++ toBytes (node.setWidth 16) 2 ++
    toBytes seq 2 ++ [BitVec.ofNat 8 (b2n quiet + 2 * b2n retrain), 0, 0, 0]
  [0x1E#8, 0xC5#8, 0x69#8, 0xB2#8] ++ body ++ toBytes (crc16 body) 2
/-- The sixteen symbol times of a marker on every lane in use. -/
def Sub.markerCols (u : Sub) (l : SubLink) (node : BitVec 12) (quiet retrain : Bool) : List (List Byte) :=
  let ms := (laneList u.lanes).map (fun i => markerBytes l i node u.markerSeq quiet retrain)
  (List.range 16).map (fun j => ms.map (fun m => nth m j 0))
/-- After a marker: the count, sixteen symbols of the period, every generator reseeded. -/
def Sub.marked (u : Sub) : Sub :=
  { u with markerSeq := u.markerSeq + 1, sym := 16, gens := (List.range (laneCount u.lanes)).map laneSeed }
/-- One symbol time of data: byte k goes scrambled to logical lane k. -/
def Sub.column (u : Sub) (xs : List Byte) : Sub × List Byte :=
  let r := List.zipWith scramble u.gens xs
  ({ u with gens := r.map (fun x => x.1), sym := (u.sym + 1) % 16384 }, r.map (fun x => x.2))
/-- Bytes on the lanes: byte i on logical lane i mod W, a marker at the start of every 16,384 symbols, which may fall inside a flit. -/
def Sub.stripe (l : SubLink) (node : BitVec 12) : Nat → Sub → List Byte → Sub × List (List Byte)
  | 0, u, _ => (u, [])
  | n + 1, u, bs =>
    if bs.isEmpty then (u, [])
    else
      let m := if u.sym = 0 then (u.marked, u.markerCols l node false false) else (u, [])
      let w := laneCount u.lanes
      let c := m.1.column (bs.take w)
      let r := Sub.stripe l node n c.1 (bs.drop w)
      (r.1, m.2 ++ c.2 :: r.2)

/-- Give a flit to the lanes of a sub-link. -/
def State.sendFlit (s : State) (l : SubLink) (f : BitVec 2048) : State :=
  let r := Sub.stripe l s.fab.nodeId 256 (s.subAt l) (toBytes f 256)
  let s := (s.emit (.flit l f)).modSub l (fun u => { u with sym := r.1.sym, gens := r.1.gens, markerSeq := r.1.markerSeq })
  { s with wires := .symbols l r.2 :: s.wires }

/-- Send a marker out of turn on a sub-link (R259). -/
def State.sendMarker (s : State) (l : SubLink) (quiet retrain : Bool) : State :=
  let cols := (s.subAt l).markerCols l s.fab.nodeId quiet retrain
  let s := s.modSub l (fun u => { u.marked with quietTx := u.quietTx || quiet })
  { s with wires := .symbols l cols :: s.wires }

/-! The sending side of a link (R274-R284). -/

/-- A sub-link by its byte: [7:2] port, [1:0] sub-link. -/
def subOfByte (b : Nat) : SubLink := { port := ⟨b / 4 % 64, Nat.mod_lt _ (by decide)⟩, sub := ⟨b % 4, Nat.mod_lt _ (by decide)⟩ }
/-- The byte of a sub-link. -/
def byteOfSub (l : SubLink) : Nat := 4 * l.port.val + l.sub.val
/-- All sub-links in port and then sub-link order. -/
def allSubs : List SubLink := (List.range 256).map subOfByte

/-- A sub-link is up for routing (R293). -/
def subUp (u : Sub) : Bool :=
  (u.lstate = .active || u.lstate = .recovery) && (u.ll = .run || u.ll = .replay || u.ll = .resync) && !u.detachRx && !u.detachTx
/-- A sub-link still carries messages: up, or detached with its link layer running (R304). -/
def subCarries (u : Sub) : Bool :=
  (u.lstate = .active || u.lstate = .recovery) && (u.ll = .run || u.ll = .replay || u.ll = .resync || u.ll = .detaching)

/-- Return freed slots of one virtual channel: at most 255 between two link words (R282). -/
def Vc.giveBack (v : Vc) : Vc :=
  let k := min 255 v.pend.toNat
  { v with issued := v.issued + BitVec.ofNat 16 k, pend := v.pend - BitVec.ofNat 16 k }
/-- Return freed slots of every virtual channel. -/
def Sub.giveBack (u : Sub) : Sub := { u with vc := u.vc.map Vc.giveBack }

/-- ACK_SEQ of this end (R275): the latest MSG flit received in order. `rxSeq` is the expected SEQ. -/
def Sub.ackSeq (u : Sub) : BitVec 12 := if u.rxAny then u.rxSeq - 1 else 0xFFF#12
/-- The link word (R275). -/
def Sub.linkWord (u : Sub) : BitVec 48 :=
  let ret := fun (v : Fin 4) => (u.vc[v]).issued.setWidth 8
  (u.ackSeq : BitVec 12) ++ (BitVec.ofBool u.nakTx) ++ (BitVec.ofBool u.rsyncTx) ++ (BitVec.ofBool u.rdoneTx) ++ (0#1) ++
    (ret 3 : BitVec 8) ++ (ret 2 : BitVec 8) ++ (ret 1 : BitVec 8) ++ (ret 0 : BitVec 8)

/-- Bytes 0-247 of a flit (R274). -/
def flitBody (ty : Nat) (seq : BitVec 12) (lw : BitVec 48) (slots : List (BitVec 128)) : List Byte :=
  toBytes (BitVec.ofNat 4 ty ++ seq) 2 ++ toBytes lw 6 ++ ((List.range 15).flatMap (fun i => toBytes (nth slots i 0) 16))
/-- A whole flit with its CRC; `bad` corrupts the CRC (R309). -/
def flitBits (ty : Nat) (seq : BitVec 12) (lw : BitVec 48) (slots : List (BitVec 128)) (bad : Bool) : BitVec 2048 :=
  let b := flitBody ty seq lw slots
  ofBytes 2048 (b ++ toBytes (crc64 b ^^^ (if bad then 1#64 else 0)) 8)

/-- Send a CTRL flit with the present link word (R275). -/
def State.sendCtrl (s : State) (l : SubLink) : State :=
  let s := s.modSub l Sub.giveBack
  let u := s.subAt l
  if u.lstate = .active && subCarries u then s.sendFlit l (flitBits 0 0 u.linkWord [] false) else s

/-- Send one new MSG flit: it takes the next SEQ and enters the replay buffer (R278). -/
def State.sendMsgFlit (s : State) (l : SubLink) (slots : List (BitVec 128)) : State :=
  let s := s.modSub l Sub.giveBack
  let u := s.subAt l
  let s := s.sendFlit l (flitBits 1 u.nextSeq u.linkWord slots u.injCrc)
  s.modSub l (fun u => { u with
    nextSeq := u.nextSeq + 1, injCrc := false, replayBuf := u.replayBuf ++ [{ seq := u.nextSeq, slots := slots }],
    sinceAudit := (u.sinceAudit + 1) % 65536, auditDue := u.auditDue || decide (u.sinceAudit = 65535), flits := u.flits + 1 })

/-- Cut a slot stream into flits of 15 slots. -/
def chunk15 : Nat → List (BitVec 128) → List (List (BitVec 128))
  | 0, _ => []
  | _, [] => []
  | n + 1, xs => xs.take 15 :: chunk15 n (xs.drop 15)

/-- Send the slots of one message in flits of their own; the last is padded with NULL slots (R277). -/
def State.sendSlots (s : State) (l : SubLink) (slots : List (BitVec 128)) : State :=
  (chunk15 slots.length slots).foldl (fun s x => s.sendMsgFlit l x) s

/-- A message can start: its virtual channel's credits cover it and the replay buffer has room (R277, R278). -/
def Sub.canStart (u : Sub) (m : Msg) : Bool :=
  let n := (msgSlots m).length
  decide (u.replayBuf.length + (n + 14) / 15 ≤ 512) &&
  (match vcOf (hTy m.hdr) with | some v => decide (n ≤ (u.vc[v]).held.toNat) | none => true)

/-- The first waiting message that can start and that no earlier message of its virtual channel precedes (R296). -/
def Sub.nextTx (u : Sub) : List (Option (Fin 4)) → List Msg → Option Msg
  | _, [] => none
  | seen, m :: rest =>
    let v := vcOf (hTy m.hdr)
    if !seen.contains v && u.canStart m then some m else u.nextTx (v :: seen) rest

/-- Send waiting messages while they can start. Nothing starts while an AUDIT is due, in resynchronisation
(R284) or while the lanes do not run (R266). -/
def State.pump : Nat → State → SubLink → State
  | 0, s, _ => s
  | n + 1, s, l =>
    let u := s.subAt l
    if u.lstate ≠ .active || u.rsyncTx || u.auditDue || !subCarries u then s
    else match u.nextTx [] u.tx with
      | none => s
      | some m =>
        let k := (msgSlots m).length
        let s := s.modSub l (fun u => { u with
          tx := u.tx.erase m,
          vc := match vcOf (hTy m.hdr) with
            | some v => vmod u.vc v (fun c => { c with held := c.held - BitVec.ofNat 16 k, sent := c.sent + BitVec.ofNat 16 k })
            | none => u.vc })
        State.pump n (s.sendSlots l (msgSlots m)) l

/-- Send everything that can go on a sub-link. -/
def State.pumpAll (s : State) (l : SubLink) : State := s.pump ((s.subAt l).tx.length) l

/-- Give a message to a sub-link. -/
def State.sendOn (s : State) (l : SubLink) (m : Msg) : State :=
  (s.modSub l (fun u => { u with tx := u.tx ++ [m] })).pumpAll l

/-- A received message is handled: its slots are freed (R282) and the returns go out. -/
def State.freeRx (s : State) (l : SubLink) (m : Msg) : State :=
  let u := s.subAt l
  if !u.rx.contains m then s
  else
    let k := BitVec.ofNat 16 (msgSlots m).length
    let s := s.modSub l (fun u => { u with
      rx := u.rx.erase m,
      vc := match vcOf (hTy m.hdr) with
        | some v => vmod u.vc v (fun c => { c with occ := c.occ - k, pend := c.pend + k })
        | none => u.vc })
    s.sendCtrl l

/-! Routing (R292-R295). -/

/-- Where a request leaves (R293). -/
inductive Egress where
  | here
  | sub (l : SubLink)
  | down
deriving DecidableEq, Repr

def rtValid (e : W64) : Bool := bit e 63
def rtAlt (e : W64) : Bool := bit e 62
def rtPrimary (e : W64) : SubLink := subOfByte (fieldN e 48 8)
def rtAlternate (e : W64) : SubLink := subOfByte (fieldN e 40 8)

/-- The egress of a request for a node, and the reroute it counts (R293). -/
def State.route (s : State) (d : BitVec 12) : State × Egress :=
  if d = s.fab.nodeId then (s, .here)
  else
    let e := smGetD s.fab.route d.toNat 0
    if rtValid e then
      if subUp (s.subAt (rtPrimary e)) then (s, .sub (rtPrimary e))
      else if rtAlt e && subUp (s.subAt (rtAlternate e)) then
        ({ s with fab := { s.fab with reroutes := satAdd s.fab.reroutes 1 } }, .sub (rtAlternate e))
      else (s, .down)
    else match s.fab.parent with
      | some l => if subUp (s.subAt l) then (s, .sub l) else (s, .down)
      | none => (s, .down)

/-- Byte h of the PATH of a source-routed message (R288). -/
def pathByte (m : Msg) (h : Nat) : Nat := fieldN (nth m.slots (h / 16) 0) (8 * (h % 16)) 8
/-- PLEN of a source-routed message. -/
def pathLen (m : Msg) : Nat := fieldN m.hdr 64 6

/-- The egress of a message that has arrived: the PATH byte at this node's hop count, which is one above HOPS on
arrival, or the route to its node (R293, R288). -/
def State.egress (s : State) (m : Msg) : State × Egress :=
  if hSr m.hdr then
    if pathLen m ≤ hHops m.hdr + 1 then (s, .here)
    else
      let l := subOfByte (pathByte m (hHops m.hdr + 1))
      if subUp (s.subAt l) then (s, .sub l) else (s, .down)
  else s.route (hNode m.hdr)

/-- The transit entry of a request (R295). -/
def State.transitOf (s : State) (m : MasterId) (tag : BitVec 16) : Option Transit :=
  s.fab.transit.find? (fun t => t.master = m && t.tag = tag)
/-- Make a transit entry. -/
def State.addTransit (s : State) (h : Hdr) (i e : Option SubLink) : State :=
  { s with fab := { s.fab with transit := s.fab.transit ++
      [{ master := hMaster h, tag := hTag h, hdr := h, ingress := i, egress := e }] } }
/-- Free a transit entry. -/
def State.dropTransit (s : State) (t : Transit) : State := { s with fab := { s.fab with transit := s.fab.transit.erase t } }
/-- The Plaza holds 16,384 entries (R295). -/
def State.transitFull (s : State) : Bool := decide (16384 ≤ s.fab.transit.length)

/-- Count a completion made for want of a route (R293). -/
def State.noRoute (s : State) : State := { s with fab := { s.fab with noRoute := satAdd s.fab.noRoute 1 } }
/-- Count a discarded late completion (R248). -/
def State.lateCmp (s : State) : State := { s with glb := { s.glb with lateCmp := satAdd s.glb.lateCmp 1 } }

/-- The master port at which a request is outstanding. -/
def State.outstPort (s : State) (m : MasterId) (tag : BitVec 16) : Option (Fin 140 × Outst) :=
  (fins 140).findSome? (fun j =>
    ((s.mports[j].outst).find? (fun o => o.req.master = m && o.req.tag = tag)).map (fun o => (j, o)))

/-- Deliver a completion message to the local port that waits for it (R291, R295). -/
def State.deliverCmp (s : State) (m : Msg) : State :=
  match s.outstPort (hMaster m.hdr) (hTag m.hdr) with
  | none => s.lateCmp
  | some (j, o) =>
    let give := fun (s : State) (st : CStatus) (data : List (BitVec 512)) =>
      s.giveCmp j .plaza { req := o.req, status := st, data := data, lineStatus := if hTy m.hdr = mtCmpRow then hLineStatus m.hdr else 0,
                           epoch := hEpoch m.hdr }
    let st := CStatus.ofCode (hStatus m.hdr)
    if m.slots.isEmpty then give s st []
    else if !hSealed m.hdr && s.fab.cur.isSome then give (s.sealFail m) .integrityFail []
    else match s.openMsg (hSrcNode m.hdr) 0 m with
      | .bad => give (s.sealFail m) .integrityFail []
      | .plain _ body => give s st (if hTy m.hdr = mtCmpRow then slotsRow body else [slotsLine body])

/-- Send a completion back on a sub-link; one that the link cannot carry any more is discarded (R248, R295). -/
def State.sendBack (s : State) (l : SubLink) (m : Msg) : State :=
  if subCarries (s.subAt l) then s.sendOn l m else s.lateCmp

/-- A completion leaves by the ingress of its transit entry, or is delivered, or found orphaned (R295). -/
def State.retrace (s : State) (m : Msg) : State :=
  match s.transitOf (hMaster m.hdr) (hTag m.hdr) with
  | none => s.lateCmp
  | some t =>
    let s := s.dropTransit t
    if t.orphan then s.lateCmp
    else match t.ingress with
      | some l => s.sendBack l m
      | none => s.deliverCmp m

/-- The completion message of a request that this node answers itself, with no data (R286, R293). -/
def State.answerMsg (s : State) (h : Hdr) (st : CStatus) : Msg :=
  let ty := answerTy (hTy h)
  { hdr := cmpHdr ty (hCls h) (hTag h) (hMaster h) st s.fab.nodeId,
    slots := if ty = mtRemoteReply || ty = mtEnumReply then [0] else [] }

/-- Answer a request that came in on a sub-link. -/
def State.answer (s : State) (l : SubLink) (h : Hdr) (st : CStatus) : State := s.sendBack l (s.answerMsg h st)

/-! Detaching (R304). -/

/-- Send DETACH on every sub-link in RUN of the ports chosen (R304, R255). -/
def State.sendDetach (s : State) (ports : Fin 64 → Bool) : State :=
  (allSubs.filter (fun l => ports l.port)).foldl (fun s l =>
    if (s.subAt l).ll = .run && !(s.subAt l).detachTx then
      (s.sendOn l { hdr := reqHdr mtDetach 0 0 0 0 }).modSub l (fun u => { u with ll := .detaching, detachTx := true })
    else s) s

/-- Begin to detach this node (R304): DETACHING is set and DETACH goes out everywhere. -/
def State.beginDetach (s : State) (action : Nat) : State :=
  ({ s with fab := { s.fab with detaching := true, detachAction := action } }).sendDetach (fun _ => true)

/-! Requests of local masters to other nodes (R290, R293). -/

/-- The message of a request, sealed where it bears data. The mark of a poisoned write travels in STATUS, and the
poison mask of a row write in ADDR[9:0] and [121:116] (log entry 18). -/
def State.reqMsg (s : State) (r : Req) : State × Msg :=
  let h := fun (ty : Nat) (hi : W64) (st : Nat) => reqHdr ty r.cls r.tag r.master hi false st
  let a := r.addr / 64 * 64
  match r.kind with
  | .lineRead => (s, { hdr := h mtLineRd (globalHi r.node a) 0 })
  | .rowRead _ => (s, { hdr := h mtRowRd (globalHi r.node (r.addr / 1024 * 1024)) 0 })
  | .lineWrite d p => s.sealed (h mtLineWr (globalHi r.node a) (b2n p)) [] (lineSlots d)
  | .partialWrite d k => s.sealed (h mtPartWr (globalHi r.node a) 0) [k.setWidth 128] (lineSlots d)
  | .rowWrite d p =>
    let hi := globalHi r.node (r.addr / 1024 * 1024)
    let mark : W64 := if p = 0 then 0 else (p.extractLsb' 0 10).setWidth 64 ||| ((p.extractLsb' 10 6).setWidth 64 <<< 52)
    s.sealed (h mtRowWr (hi ||| mark) (if p = 0 then 0 else 1)) [] ((List.range 16).flatMap (fun i => lineSlots (nth d i 0)))
  | .opDispatch q d => s.sealed (h mtOpDispatch (globalHi r.node (q.setWidth 40)) 0) []
      (lineSlots (d.setWidth 512) ++ lineSlots (d.extractLsb' 512 512))

/-- A row of FW_PUSH: a row write of CC0 into another node's boot window (R301). -/
def State.isPush (s : State) (r : Req) : Bool :=
  r.master == s.self agentCC0 && r.cls == 15#4 && decide (r.addr.toNat < 4194304) && (match r.kind with | .rowWrite _ _ => true | _ => false)
/-- Its message, in the clear: R291 lets a node in the boot state take it, which may hold no key set. DEDUCED (log entry 95). -/
def State.pushMsg (_s : State) (r : Req) : Msg :=
  let d := match r.kind with | .rowWrite d _ => d | _ => []
  { hdr := reqHdr mtRowWr r.cls r.tag r.master (globalHi r.node (r.addr / 1024 * 1024)),
    slots := 0 :: (List.range 16).flatMap (fun i => lineSlots (nth d i 0)) }

/-- Send a local master's request to its node: PATH_DOWN where no route is up or this node detaches (R293, R304). -/
def State.sendRequest (s : State) (r : Req) : State :=
  let e := s.route r.node
  match (if s.fab.detaching then Egress.down else e.2) with
  | .sub l =>
    let x := if e.1.isPush r then (e.1, e.1.pushMsg r) else e.1.reqMsg r
    ((x.1.countFwd [portSpot (portLink l.port)]).addTransit x.2.hdr none (some l)).sendOn l x.2
  | _ => e.1.noRoute.complete { req := r, status := .pathDown }

end Sys2Proof.Machine
end

