-- ==== Sys2Proof/Machine/Kerb.lean ====
section
/-! DEFINITION. Master ports and Kerbs: issue, class queues, buckets, forwarding, fences, and the return of
completions (R207, R208, R221-R227 of 08_bandwidth_regulation, R232-R245 of 09_ordering_conservation). -/

namespace Sys2Proof.Machine

/-! Ports (R221, R229). -/

/-- The link port of a master port, if it is one. -/
def portOfLink (j : Fin 140) : Option (Fin 64) :=
  if 8 ≤ j.val && j.val < 72 then some ⟨(j.val - 8) % 64, Nat.mod_lt _ (by decide)⟩ else none

/-! Tokens (R222, R223). -/

/-- Cost of a request in tokens (R222). -/
def kerbCost : ReqKind → Nat
  | .lineRead | .lineWrite _ _ | .partialWrite _ _ | .opDispatch _ _ => 1
  | .rowRead _ | .rowWrite _ _ => 16

/-- The level lets a head request pass (R223, R227). -/
def KClass.open_ (c : KClass) (lifted : Bool) : Bool := lifted || c.rate == 0 || decide (0 < c.level)
/-- The head may pass: by its level, or because the queue is full (R225). -/
def KClass.mayPass (c : KClass) (lifted : Bool) : Bool := c.open_ lifted || decide (64 ≤ c.queue.length)
/-- The class is held (R223, R227). -/
def KClass.isHeld (c : KClass) (lifted : Bool) : Bool := !c.queue.isEmpty && !c.mayPass lifted

/-- The charge for a request that passes (R223, R227). -/
def KClass.charge (c : KClass) (lifted : Bool) (cost : Nat) : KClass :=
  if lifted || c.rate == 0 then c else { c with level := max (-65536) (c.level - (cost : Int)) }

/-- The refill of one strobe (R223). -/
def KClass.refill (c : KClass) : KClass :=
  if c.rate = 0 then c
  else
    let x := c.frac + c.rate.toNat
    { c with level := min (c.burst.toNat : Int) (c.level + ((x / 16 : Nat) : Int)), frac := x % 16 }

/-- New values take effect after the refill of a strobe (R226). -/
def KClass.apply (c : KClass) : KClass :=
  match c.next with
  | none => c
  | some (r, b) =>
    { c with rate := r, burst := b, frac := 0, next := none,
             level := if c.rate = 0 then (b.toNat : Int) else min c.level (b.toNat : Int) }

/-- The refill strobe of a Kerb (R223, R226). -/
def Kerb.refill (k : Kerb) : Kerb := { k with cls := k.cls.map (fun c => c.refill.apply) }

/-! Entry and forwarding (R208, R221, R224, R225). -/

/-- A control-island agent: 0x50-0x5B (R208). -/
def isMgmtAgent (m : MasterId) : Bool := decide (0x50 ≤ (MasterId.agent m).toNat) && decide ((MasterId.agent m).toNat ≤ 0x5B)

/-- Line or row number of a request's address, for the comparison of lines. -/
def reqLines (r : Req) : Nat × Nat :=
  if isRow r.kind then (r.addr.toNat / 1024 * 16, r.addr.toNat / 1024 * 16 + 16) else (r.addr.toNat / 64, r.addr.toNat / 64 + 1)
/-- Two requests name a common line of one node. -/
def sameLine (a b : Req) : Bool :=
  a.node == b.node && decide ((reqLines a).1 < (reqLines b).2) && decide ((reqLines b).1 < (reqLines a).2)

/-- A head waits behind an earlier request of its master to the same line in another class queue (R224). -/
def Kerb.blocked (k : Kerb) (q : KReq) : Bool :=
  k.cls.toList.any (fun c => c.queue.any (fun x => x.num < q.num && x.req.master = q.req.master && sameLine x.req q.req))

/-- The Kerb of a control core lets a request of a class pass now (R223). -/
def State.coreOpen (s : State) (n : Fin 4) (cls : Fin 16) : Bool :=
  let k := s.kerbs[portCore n]
  (k.cls[cls]).open_ k.lifted
/-- Charge the Kerb of a control core for a request that passes it (R223). -/
def State.coreCharge (s : State) (n : Fin 4) (cls : Fin 16) (cost : Nat) : State :=
  s.modKerb (portCore n) (fun k => { k with cls := vmod k.cls cls (fun c => c.charge k.lifted cost) })

/-- Cost of a queued request: a FENCE on its way to another node costs nothing (R222). -/
def KReq.cost (q : KReq) : Nat :=
  match q.msg with
  | some m => if hTy m.hdr = mtFence then 0 else kerbCost q.req.kind
  | none => kerbCost q.req.kind

/-- The request stays on this node. -/
def State.staysHere (s : State) (q : KReq) : Bool := q.msg.isNone && decide (q.req.node = s.fab.nodeId)
/-- An OP_DISPATCH whose ring is full waits at its Kerb until a descriptor is consumed (R358). -/
def State.ringRoom (s : State) (r : Req) : Bool :=
  match r.kind with
  | .opDispatch q _ =>
    (match smGet? s.cmd.queues (q.toNat % 32768) with
     | some x => decide (x.st ≠ .active) || decide (s.ownerId x.owner ≠ r.master) ||
         decide ((x.tail - x.head).toNat + countIf s.reqPlane (fun c => isDispatch c.load.req.kind) < 2 ^ x.log2)
     | none => true)
  | _ => true
/-- The next hop has room for a request (R224, R233): credits of the REQ plane of the Kerb's own switch for every entry; a request that a
link port took in, or that leaves for another node, also needs a transit entry (R295). -/
def State.hasRoom (s : State) (j : Fin 140) (q : KReq) : Bool :=
  decide (reqEntries q.req.kind ≤ s.credits.req[(portSpot j).ix]) && ((s.staysHere q && (portOfLink j).isNone) || !s.transitFull) &&
  (!s.staysHere q || s.ringRoom q.req)

/-- Forward a message towards another node: hop count, route, transit entry (R293, R294). -/
def State.forwardMsg (s : State) (l : SubLink) (m : Msg) : State :=
  if hHops m.hdr = 63 then
    let s := s.logAddr evHopLimit (m.hdr.extractLsb' 64 52).toNat acLink (hMaster m.hdr) CStatus.pathDown.code
    s.noRoute.answer l m.hdr .pathDown
  else
    let e := s.egress m
    match e.2 with
    | .sub o =>
      let m' : Msg := { m with hdr := hWithHops m.hdr (hHops m.hdr + 1) }
      ((e.1.countFwd [portSpot (portLink o.port)]).addTransit m.hdr (some l) (some o)).sendOn o m'
    | _ => e.1.noRoute.answer l m.hdr .pathDown

/-- The hops of a request that stays on this node: to its slice's switch, or to the Plaza, which joins the dispatcher (R232). -/
def State.reqPath (s : State) (j : Fin 140) (r : Req) : List Spot :=
  spotPath (portSpot j) (if isDispatch r.kind then .plaza else .sw (distOf (s.decodeAddr r.addr.toNat).ch))

/-- A request leaves its Kerb: into the REQ plane towards its slice, or through its switch and the Plaza to another node; there it waits
at its sub-link for the credits of the link (log entry 62). -/
def State.afterKerb (s : State) (j : Fin 140) (q : KReq) : State :=
  match q.msg with
  | some m =>
    match q.req.origin with
    | .port _ sub => (s.countFwd (spotPath (portSpot j) .plaza)).forwardMsg { port := ⟨(j.val - 8) % 64, Nat.mod_lt _ (by decide)⟩, sub := sub } m
    | .stack => s
  | none =>
    if q.req.node = s.fab.nodeId then
      let s := match portOfLink j, q.req.origin with
        | some p, .port _ sub => s.addTransit (reqHdr 0 q.req.cls q.req.tag q.req.master 0) (some { port := p, sub := sub }) none
        | _, _ => s
      let n := reqEntries q.req.kind
      { s with
        reqPlane := s.reqPlane ++ [{ load := { req := q.req, ingress := j }, spot := some (portSpot j), todo := (s.reqPath j q.req).drop 1 }],
        credits := { s.credits with req := takeCredit s.credits.req (portSpot j) n } }
    else (s.countFwd (spotPath (portSpot j) .plaza)).sendRequest q.req

/-- The head of class `c` passes: charge, spill count and time in the queue (R223, R225). -/
def State.passHead (s : State) (j : Fin 140) (c : Fin 16) : State :=
  let k := s.kerbs[j]
  let x := k.cls[c]
  match x.queue with
  | [] => s
  | q :: rest =>
    let t := s.strobe - q.since
    let spill := !x.open_ k.lifted
    let x := x.charge k.lifted q.cost
    let x := { x with
      queue := rest, maxHeld := if x.maxHeld.toNat < t then satAdd 0 t else x.maxHeld,
      spill := if spill then satAdd x.spill 1 else x.spill }
    (s.modKerb j (fun k => { k with cls := vput k.cls c x, rr := if c.val = 15 then k.rr else c.val })).afterKerb j q

/-- The head of a class can be chosen now (R224). -/
def State.canPass (s : State) (j : Fin 140) (c : Fin 16) : Bool :=
  let k := s.kerbs[j]
  let x := k.cls[c]
  match x.queue with
  | [] => false
  | q :: _ => x.mayPass k.lifted && !k.blocked q && s.hasRoom j q

/-- The class that the Kerb forwards next: CL15, else round-robin (R224). -/
def State.kerbChoice (s : State) (j : Fin 140) : Option (Fin 16) :=
  if s.canPass j 15 then some 15
  else ((List.range 16).map (fun i => (⟨(s.kerbs[j].rr + 1 + i) % 16, Nat.mod_lt _ (by decide)⟩ : Fin 16))).find? (s.canPass j)

/-- A request enters its class queue (R221); a class-15 request of a foreign agent completes at once (R208). -/
def State.kerbEnter (s : State) (j : Fin 140) (r : Req) (msg : Option Msg) : State :=
  if r.cls = 15#4 && !isMgmtAgent r.master then
    let s := s.log evClassInvalid (detail j.val r.cls.toNat) (accessOf r.kind) r.master CStatus.notPermitted.code
    match msg, r.origin with
    | some m, .port _ sub => s.answer { port := ⟨(j.val - 8) % 64, Nat.mod_lt _ (by decide)⟩, sub := sub } m.hdr .notPermitted
    | _, _ => s.complete { req := r, status := .notPermitted }
  else
    let c : Fin 16 := ⟨r.cls.toNat % 16, Nat.mod_lt _ (by decide)⟩
    s.started.modKerb j (fun k => { k with
      count := k.count + 1,
      cls := vmod k.cls c (fun x => { x with queue := x.queue ++ [{ req := r, since := s.strobe, num := k.count, msg := msg }] }) })

/-- A class queue can take a request: it holds fewer than 64; the head of a full one passes at its next turn (R221, R225). -/
def State.kerbTakes (s : State) (k : Fin 140) (cls : BitVec 4) : Bool :=
  decide ((s.kerbs[k].cls[(⟨cls.toNat % 16, Nat.mod_lt _ (by decide)⟩ : Fin 16)]).queue.length < 64)

/-- The first of some issued requests that has not entered its Kerb. -/
def firstUnentered (os : List Outst) : Option Outst := os.find? (fun o => !o.entered)

/-- KERB_ENTRY (R208, R221, R234): the request that its port issued first among those that have not entered the Kerb enters its class
queue, or waits at the port while the queue is full. -/
def execKerbEntry (k : Fin 140) (req : Req) (s : State) : Res :=
  match firstUnentered (s.mports[k]).outst with
  | none => .next s
  | some o =>
    if o.req = req && s.kerbTakes k req.cls then
      .next ((s.modMport k (fun p => { p with outst := p.outst.map (fun x => if x = o then { x with entered := true } else x) })).kerbEnter
        k req none)
    else .next s

/-- KERB_FORWARD (R224): the Kerb forwards one request. -/
def execKerbForward (k : Fin 140) (s : State) : Res :=
  match s.advance.kerbChoice k with
  | some c => .next (s.advance.passHead k c)
  | none => .next s.advance

/-! Issue (R234, R239). -/

/-- A request to another node conflicts with an outstanding-line entry of its master, the table is full, or its
tag is in use (R239, R297). -/
def State.issueBlocked (s : State) (p : MPort) (r : Req) : Bool :=
  p.outst.any (fun o => o.req.master = r.master && o.req.tag = r.tag) ||
  (r.node != s.fab.nodeId &&
    (decide (4096 ≤ countIf p.outst (fun o => o.table)) ||
     p.outst.any (fun o => o.table && o.req.master = r.master && sameLine o.req r)))

/-- Requests that came before `r` at the port and wait. -/
def waitingBefore (r : Req) : List Req → List Req
  | [] => []
  | x :: xs => if x = r then [] else x :: waitingBefore r xs

/-- Issue a request at a port, or let it wait there (R239). -/
def State.portIssue (s : State) (j : Fin 140) (r : Req) : State :=
  let p := s.mports[j]
  let ahead := waitingBefore r p.waiting
  if s.issueBlocked p r || ahead.any (fun x => x.master = r.master && sameLine x r) then
    if p.waiting.contains r then s else s.modMport j (fun p => { p with waiting := p.waiting ++ [r] })
  else
    s.started.modMport j (fun p => { p with
      waiting := p.waiting.erase r, outst := p.outst ++ [{ req := r, table := r.node != s.fab.nodeId }] })

/-- Requests that wait at a port are issued in their order as soon as nothing holds them (R239). -/
def State.reissue (s : State) (j : Fin 140) : State := (s.mports[j].waiting).foldl (fun s r => s.portIssue j r) s

/-- MASTER_REQUEST_ISSUE (R234, R239): the port of the request's origin issues it, or holds it. -/
def execMasterRequestIssue (req : Req) (s : State) : Res :=
  match req.origin with
  | .port j _ => .next (s.portIssue j req)
  | .stack => .next s

/-! Fences (R242-R245). -/

/-- Requests of a master to a node that a fence covers: outstanding at the port or waiting there (R242). -/
def MPort.covered (p : MPort) (m : MasterId) (node : BitVec 12) : List (MasterId × BitVec 16) :=
  (p.outst.filter (fun o => o.req.master = m && o.req.node = node)).map (fun o => (o.req.master, o.req.tag)) ++
  (p.waiting.filter (fun r => r.master = m && r.node = node)).map (fun r => (r.master, r.tag))

/-- The fence is complete. -/
def State.fenceEnd (s : State) (j : Fin 140) (f : FenceSt) : State :=
  match f.msg with
  | none => s.emit (.fenceDone j f.master f.err)
  | some (_, h) =>
    s.retrace { hdr := cmpHdr mtCmp (hCls h) (hTag h) (hMaster h) .ok s.fab.nodeId 0 0 f.err }

/-- A fence at a port: complete at once where it covers nothing (R242). -/
def State.fenceAt (s : State) (j : Fin 140) (f : FenceSt) : State :=
  if f.covers.isEmpty then s.fenceEnd j f else s.modMport j (fun p => { p with fences := p.fences ++ [f] })

/-- FENCE (R242). -/
def execFence (master : MasterId) (port : Fin 140) (node : BitVec 12) (s : State) : Res :=
  .next (s.fenceAt port { master := master, node := node, covers := (s.mports[port]).covered master node })

/-- FENCE_COMPLETE (R242): the first fence of the port whose covered requests have all completed completes. -/
def execFenceComplete (port : Fin 140) (s : State) : Res :=
  match (s.mports[port].fences).find? (fun f => f.covers.isEmpty) with
  | none => .next s
  | some f => .next ((s.modMport port (fun p => { p with fences := p.fences.erase f })).fenceEnd port f)

/-! Completions at their port (R234, R248). -/

/-- A completed request leaves the fences that cover it (R242). -/
def MPort.settle (p : MPort) (m : MasterId) (tag : BitVec 16) (st : CStatus) : MPort :=
  { p with fences := p.fences.map (fun f =>
      if f.covers.contains (m, tag) then { f with covers := f.covers.erase (m, tag), err := f.err || st != .ok } else f) }

/-- The message of a completion that leaves for another node (R286, R290). -/
def State.cmpMsg (s : State) (c : Completion) : State × Msg :=
  let r := c.req
  let h := fun (ty : Nat) (ls : BitVec 16) => cmpHdr ty r.cls r.tag r.master c.status s.fab.nodeId c.epoch ls
  match r.kind with
  | .lineRead =>
    if c.status = .ok then s.sealed (h mtCmpData 0) [] (lineSlots (nth c.data 0 0)) else (s, { hdr := h mtCmpData 0 })
  | .rowRead _ =>
    if c.status = .ok || c.status = .poisoned then
      s.sealed (h mtCmpRow c.lineStatus) [] ((List.range 16).flatMap (fun i => lineSlots (nth c.data i 0)))
    else (s, { hdr := h mtCmpRow c.lineStatus })
  | _ => (s, { hdr := h mtCmp 0 })

/-- A program block's line that the dispatcher reads from another node (R169). -/
def Checking.take (x : Checking) (c : Completion) : Checking :=
  { x with reads := x.reads.map (fun r => if r.1 = c.req.tag && r.2.isNone then (r.1, some (c.status, nth c.data 0 0)) else r) }

/-- A completion reaches a control core's port: a line of a program block, or a request of a command or of firmware, which keeps it. -/
def State.coreTakes (s : State) (j : Fin 140) (c : Completion) : State :=
  if !isMgmtAgent c.req.master && s.engs.checking.any (fun x => x.reads.any (fun r => r.1 == c.req.tag && r.2.isNone)) then
    { s with engs := { s.engs with checking := s.engs.checking.map (fun x => x.take c) } }
  else s.modMport j (fun p => { p with delivered := p.delivered ++ [c] })

/-- A completion is handed to its master: a host port keeps it for the response (R327) or discards it (R330), a link
port sends it back the way its request came, another port delivers it. -/
def State.handOver (s : State) (j : Fin 140) (c : Completion) : State :=
  match portOfLink j with
  | some _ =>
    let m := s.cmpMsg c
    m.1.retrace m.2
  | none =>
    if j.val < 8 then
      let h : Fin 8 := ⟨j.val % 8, Nat.mod_lt _ (by decide)⟩
      let lost := (s.hosts[h].pend).any (fun x => x.req == c.req.tag && x.lost)
      if lost || !s.hosts[h].linkUp then
        s.modHost h (fun x => { x with
          pend := x.pend.filter (fun y => y.req != c.req.tag), discarded := satAdd x.discarded 1 })
      else s.modMport j (fun p => { p with delivered := p.delivered ++ [c] })
    else if 72 ≤ j.val && j.val < 136 then
      let e : Fin 64 := ⟨(j.val - 72) % 64, Nat.mod_lt _ (by decide)⟩
      if (s.engs.eng[e].io).any (fun x => x.tag == c.req.tag) then
        s.modEng e (fun x => { x with io := x.io.map (fun i =>
          if i.tag = c.req.tag then { i with got := some { status := c.status, data := c.data, lines := c.lines } } else i) })
      else s.emit (.completion j c)
    else s.coreTakes j c

/-- A completion at the end of its hops reaches its port: it frees the reservation and the outstanding-line entry, and is delivered;
one that nothing waits for is late (R234, R248). -/
def State.returnOne (s : State) (port : Fin 140) (x : Car Completion) (rest : List (Car Completion)) : State :=
  let c := x.load
  let k := s.credits
  let s := { s with credits := { k with cmp := giveSpot k.cmp x.spot (reqEntries c.req.kind) } }
  let s := s.countFwd x.spot.toList
  let s := s.modMport port (fun p => { p with inflight := rest })
  let s := { s with mports := s.mports.map (fun p : MPort => p.settle c.req.master c.req.tag c.status) }
  match (s.mports[port].outst).find? (fun o => o.req.master = c.req.master && o.req.tag = c.req.tag) with
  | none => s.lateCmp
  | some o =>
    let s := s.modMport port (fun p => { p with outst := p.outst.erase o })
    let s := { s with dist := s.dist.map (fun d : District => { d with accepted := d.accepted.erase (c.req.master, c.req.tag) }) }
    (s.handOver port c).reissue port

end Sys2Proof.Machine
end

