-- ==== Sys2Proof/Machine/Reply.lean ====
section
/-! DEFINITION. Carrying out a command packet: the common checks, the identity of the control core, the reply,
and commands that reply later (13_command_interface, R336-R345, R350, R351). -/

namespace Sys2Proof.Machine

/-- What a command answers: a reply now, a reply later, or OK and then the detach of this node (R304). -/
inductive CmdOut where
  | done (st : CmdStatus) (result : W64)
  | wait (k : WaitKind)
  | thenDetach (action : Nat)
deriving DecidableEq, Repr

/-- Where a command carries out: a function of the state that changes it and answers. -/
abbrev CmdFn := State → State × CmdOut

/-- A refusal that changes nothing. -/
def State.refuse (s : State) (st : CmdStatus) : State × CmdOut := (s, .done st 0)
/-- OK with a result. -/
def State.okay (s : State) (r : W64 := 0) : State × CmdOut := (s, .done .ok r)
/-- A result from a number. -/
def res64 (n : Nat) : W64 := BitVec.ofNat 64 n

/-! Identities (R339, R151). -/

/-- The control core that carries a command out: CC(r mod 4) for ring r, CC0 otherwise (R339). -/
def coreOf (c : CmdCtx) : Nat := match c.src with | .ring r => r.val % 4 | _ => 0
/-- The identity of that core. -/
def State.coreId (s : State) (c : CmdCtx) : MasterId := s.self (0x50 + coreOf c)
/-- The identity of the issuer (R151, R345): the ring's OWNER, the writer of GO, the MASTER of a REMOTE_CMD. -/
def State.issuer (s : State) (c : CmdCtx) : MasterId :=
  match c.src with
  | .ring r => s.ownerId (s.cmd.rings[r]).owner
  | .direct _ m => m
  | .remote m _ _ _ => s.ownerId m

/-! Rings (R336, R337, R339, R340). -/

/-- Local address of ring pair r. -/
def ringBase (r : Fin 32) : Nat := 0x1000000 + r.val * 0x80000
/-- Packets are taken: DIE is up, and no warm-reset sequence runs (R351). -/
def State.cmdUp (s : State) : Bool := s.dieUp && (match s.boot.phase with | .warm _ => false | _ => true)
/-- A ring takes a packet now (R339): served, no command of it running, not stopped. -/
def State.ringFree (s : State) (r : Fin 32) : Bool :=
  let x := s.cmd.rings[r]
  s.cmdUp && s.cmd.ringsReady && x.en && !x.busy && !x.failed && !x.stale

/-- A ring stops (R350): CMD_RING_FAIL once. -/
def State.ringFail (s : State) (r : Fin 32) : State :=
  if (s.cmd.rings[r]).failed then s
  else (s.modRing r (fun x => { x with failed := true, busy := false })).log evCmdRingFail (detail 0 r.val) acCommand
    (s.self (0x50 + r.val % 4))

/-- The 16 bytes of a reply (R342). -/
def replyBytes (tag : W32) (st : CmdStatus) (phase : Bool) (result : W64) : List Byte :=
  toBytes tag 4 ++ [BitVec.ofNat 8 st.code, 0, 0, if phase then 0x80#8 else 0] ++ toBytes result 8

/-- REPLY_WRITE (R340): the reply goes to its slot, DONE rises, and the interrupt follows (R359). -/
def State.ringReply (s : State) (r : Fin 32) (c : CmdCtx) (st : CmdStatus) (result : W64) : State :=
  let x := s.cmd.rings[r]
  if x.failed || x.stale then s.modRing r (fun x => { x with stale := false })
  else
  let n := x.done.toNat
  let sz := 2 ^ x.log2
  let a := ringBase r + 0x40000 + 16 * (n % sz)
  let w := s.writeBytesNow (s.self (0x50 + r.val % 4)) a acCommand 15 (replyBytes c.tag st (n / sz % 2 == 0) result)
  if w.2 ≠ .ok then w.1.ringFail r
  else
    let s := w.1.modRing r (fun x => { x with done := x.done + 1, busy := false })
    if c.irq && x.vector ≠ 0 then s.msix x.hostPort x.vector else s

/-- The reply of the direct slot (R345). -/
def State.directReply (s : State) (c : CmdCtx) (st : CmdStatus) (result : W64) : State :=
  { s with cmd := { s.cmd with
      go := false, done := true,
      reply := Vector.ofFn (fun i : Fin 4 => ofBytes 32 ((replyBytes c.tag st false result).drop (4 * i.val) |>.take 4)) } }

/-- A ring is set up again: TAIL, HEAD and DONE restart at 0 and FAILED clears (R337, R363). A failed ring may still have a command in
execution, whose late reply is dropped (DESIGN CHOICE, log entry 99). -/
def State.ringRestart (s : State) (r : Fin 32) : State :=
  let left := s.cmd.waits.any (fun w => w.ctx.src == .ring r)
  s.modRing r (fun x => { x with tail := 0, head := 0, done := 0, failed := false, stale := left })

/-- Reply to a command with a given RESULT. -/
def State.replyRaw (s : State) (c : CmdCtx) (st : CmdStatus) (result : W64) : State :=
  match c.src with
  | .ring r => s.ringReply r c st result
  | .direct _ _ => s.directReply c st result
  | .remote m _ _ t =>
    s.retrace { hdr := cmpHdr mtRemoteReply 15 t m .ok s.fab.nodeId, slots := [ofBytes 128 (replyBytes c.tag st false result)] }

/-- Reply to a command: RESULT is 0 unless the status is OK (R342). -/
def State.reply (s : State) (c : CmdCtx) (st : CmdStatus) (result : W64) : State :=
  s.replyRaw c st (if st = .ok then result else 0)

/-- What a command has answered. -/
def State.conclude (s : State) (c : CmdCtx) : CmdOut → State
  | .done st r => s.reply c st r
  | .wait k => { s with cmd := { s.cmd with waits := s.cmd.waits ++ [{ ctx := c, kind := k }] } }
  | .thenDetach a => (s.reply c .ok 0).beginDetach a

/-- A waiting command ends. -/
def State.finish (s : State) (w : CmdWait) (st : CmdStatus) (result : W64) : State :=
  ({ s with cmd := { s.cmd with waits := s.cmd.waits.erase w } }).reply w.ctx st result

/-- Every command in execution ends with INTERNAL and RESULT 1 (R351). -/
def State.endCommands (s : State) : State :=
  s.cmd.waits.foldl (fun s w =>
    ({ s with cmd := { s.cmd with waits := s.cmd.waits.erase w } }).replyRaw w.ctx .internal 1) s

/-! The common checks (R344). -/

/-- An opcode runs in the boot state (R31). -/
def bootOpcode (op : Nat) : Bool := op == 0x0001 || op == 0x0002 || op == 0x0101 || op == 0x0102 || op == 0x0103 || op == 0x0801

/-- The assigned opcodes (R346). -/
def assignedOpcodes : List Nat :=
  [0x0001, 0x0002, 0x0003, 0x0004, 0x0005, 0x0101, 0x0102, 0x0103, 0x0201, 0x0202, 0x0203, 0x0301, 0x0302, 0x0303,
   0x0304, 0x0305, 0x0306, 0x0307, 0x0310, 0x0311, 0x0401, 0x0402, 0x0403, 0x0501, 0x0502, 0x0601, 0x0602, 0x0603,
   0x0604, 0x0605, 0x0606, 0x0607, 0x0608, 0x0701, 0x0702, 0x0703, 0x0801, 0x0802, 0x0803, 0x0804, 0x0901, 0x0902,
   0x0903, 0x0904, 0x0A01, 0x0A02, 0x0A03, 0x0A04]

/-- The carrier allows an opcode's group (R344, R345, R300). -/
def State.groupAllowed (s : State) (c : CmdCtx) (op : Nat) : Bool :=
  match c.src with
  | .ring r => bit (s.cmd.rings[r]).groups (op / 256)
  | .direct _ _ => op / 256 == 0 || op / 256 == 1 || op == 0x0801
  | .remote _ _ _ _ => true

/-- PACKET_CHECK (R344): the first check that fails. `resOk`: the reserved bytes and bits of the packet are 0. -/
def State.packetCheck (s : State) (c : CmdCtx) (op : Nat) (resOk : Bool) : Option CmdStatus :=
  if !s.fwRunning && !bootOpcode op then some .busy
  else if !assignedOpcodes.contains op then some .badOpcode
  else if !s.groupAllowed c op then some .notPermitted
  else if !resOk then some .badParam
  else none

/-- A carrier begins a command (R339, R345, R363): `none` where it cannot take one now. A REMOTE_CMD holds its transit entry until its
reply retraces it (R295). -/
def State.begin (s : State) (c : CmdCtx) (op : Nat) : Option State :=
  match c.src with
  | .ring r =>
    if s.ringFree r then some (s.modRing r (fun x => { x with head := x.head + 1, busy := true, opcode := BitVec.ofNat 16 op })) else none
  | .direct _ m =>
    if s.cmdUp && !s.cmd.go then some { s with cmd := { s.cmd with go := true, done := false, issuer := m } } else none
  | .remote m p u t =>
    if s.cmdUp then some (s.addTransit (reqHdr mtRemoteCmd 15 t m 0) (some { port := p, sub := u }) none) else none

/-- Check and carry out a command that its carrier has begun. -/
def State.carry (s : State) (c : CmdCtx) (op : Nat) (resOk : Bool) (f : CmdFn) : State :=
  match s.packetCheck c op resOk with
  | some st => s.reply c st 0
  | none =>
    let r := f s
    r.1.conclude c r.2

/-- A command from its carrier to its reply; nothing where the carrier cannot take a command now. -/
def State.command (s : State) (c : CmdCtx) (op : Nat) (resOk : Bool) (f : CmdFn) : State :=
  match s.begin c op with
  | none => s
  | some s => s.carry c op resOk f

/-- The first failing entry of a check list decides. -/
def firstFail : List (Bool × CmdStatus) → Option CmdStatus
  | [] => none
  | (bad, st) :: rest => if bad then some st else firstFail rest

/-- Run a command body behind its own checks, in their order. -/
def checked (cs : List (Bool × CmdStatus)) (f : CmdFn) : CmdFn := fun s =>
  match firstFail cs with
  | some st => s.refuse st
  | none => f s

/-- A page of the part (R2). -/
def State.pageOk (s : State) (page : W32) : Bool := decide (page.toNat < s.glb.variant.pages)
/-- A page of the tree store. -/
def State.treePage (s : State) (page : Nat) : Bool := s.inTree (page * 131072)

end Sys2Proof.Machine
end

