-- ==== Sys2Proof/Machine/Walker.lean ====
section
/-! DEFINITION. The integrity tree walker's commands, and the build of the tree (R136-R143). -/

namespace Sys2Proof.Machine

/-- COUNTER_WALK_FETCH (R141, R143): the walker fetches the next missing line of its oldest walk; with no walk, it fetches
ahead of the engines (CTR_PREFETCH, R154), and a counter line that it cannot obtain is left. A fetch from a held channel waits (R58). -/
def execCounterWalkFetch (s : State) : Res :=
  match s.sec.walks with
  | [] =>
    match s.sec.ahead with
    | [] => .next s
    | i :: rest =>
      match s.highestMissing 8 1 i with
      | none => .next { s with sec := { s.sec with ahead := rest } }
      | some (k, x) =>
        if s.heldAt (s.ctrAt k x) then .next s else
        let r := s.fetchCtr k x
        .next (if r.2 ≠ .ok || k = 1 then { r.1 with sec := { r.1.sec with ahead := rest } } else r.1)
  | w :: _ =>
    match s.highestMissing 8 1 w.idx with
    | none => .next (s.endWalk w .ok)
    | some (k, i) =>
      if s.heldAt (s.ctrAt k i) then .next s else
      let r := s.fetchCtr k i
      if r.2 ≠ .ok then .next (r.1.failWalks k i r.2)
      else if k = 1 then .next (r.1.endWalk w .ok)
      else .next r.1

/-- The parent counter of a line about to be written rises by 1 (R140); the new value. -/
def State.bumpParent (s : State) (k i : Nat) : State × W64 :=
  if k = s.levels then
    let v := smGetD s.sec.roots i 0 + 1
    ({ s with sec := { s.sec with roots := smPut s.sec.roots i v } }, v)
  else match s.ctrCached (k + 1) (i / 8) with
    | none => (s, 0)
    | some c =>
      let v := c.at i + 1
      let s := s.setCtr (k + 1) (i / 8) { c with ctrs := c.ctrs.setIfInBounds (i % 8) v, dirty := true }
      let key := s.ctrAt (k + 1) (i / 8) / 64
      (if c.dirty then s else { s with sec := { s.sec with dirty := s.sec.dirty ++ [key] } }, v)

/-- The eight counters of a line as its 64 data bytes (R138). -/
def ctrData (c : CtrLine) : BitVec 512 :=
  (List.range 8).foldl (fun acc i => acc ||| ((c.at i).setWidth 512 <<< (64 * i))) 0

/-- Write back one dirty counter line (R142), unless its channel is offline or its District off, or it is
held for ever (R145). -/
def State.writeBack (s : State) (key : Nat) : State :=
  let a := key * 64
  match ctrOfAddr s.glb.variant s.sec.capCode a, smGet? s.sec.cache key with
  | some (k, i), some c =>
    let l := s.decodeAddr a
    if c.sealHeld then { s with sec := { s.sec with dirty := s.sec.dirty.erase key } }
    else if s.chs[l.ch].tsv.offline || !s.distPowered (distOf l.ch) then s
    else
      let b := s.bumpParent k i
      let ln := mkLine (ctrData c) (tagOf b.1.sec.treeKey b.1.sec.treeHash (ctrData c) key b.2 4#8) 4#8
      let s := (b.1.enqueue l.ch { key := l.key, line := ln, cls := 15 } none).1
      let s := s.setCtr k i { c with dirty := false, sealHeld := b.2 == ctrEnd }
      { s with sec := { s.sec with dirty := s.sec.dirty.erase key } }
  | _, _ => s

/-- A dirty line can be written back now. -/
def State.canWriteBack (s : State) (key : Nat) : Bool :=
  let l := s.decodeAddr (key * 64)
  !s.chs[l.ch].tsv.offline && s.distPowered (distOf l.ch) &&
  (match smGet? s.sec.cache key with | some c => !c.sealHeld | none => false)

/-- COUNTER_WRITE_BACK (R142): above DIRTY_LIMIT, or for an eviction, the oldest dirty line goes back. -/
def execCounterWriteBack (s : State) : Res :=
  if s.sec.ctrCfg.toNat < s.sec.dirty.length || 262144 < s.sec.cache.length then
    match s.sec.dirty.find? s.canWriteBack with
    | none => .next s
    | some k => .next ((s.writeBack k).evictCtr k)
  else .next s

/-- Flush the dirty lines that satisfy `p`, lowest level first (R142). A write-back makes its parent dirty,
so each level is taken after the one below it. -/
def State.flushCtrs (s : State) (p : State → Nat → Bool) : State :=
  (List.range 7).foldl (fun s j =>
    let keys := s.sec.dirty.filter (fun k =>
      p s k && (match ctrOfAddr s.glb.variant s.sec.capCode (k * 64) with | some (lv, _) => lv = j + 1 | none => false))
    keys.foldl State.writeBack s) s

/-- Set up the protected region (R136): code 0 completes at once; codes 1-3 draw keys, build every counter
line and zero the root counters. Built lines replace whatever the tree store held. -/
def State.buildTree (s : State) (code : Nat) : State :=
  if code = 0 then { s with sec := { s.sec with configured := true, capCode := 0 } }
  else
    let tk := (Config.random384 s.free).setWidth 256
    let th := (Config.random384 (s.free + 1)).setWidth 64
    let base := treeBasePage s.glb.variant code * 131072
    let out := fun (c : Nat) (cell : Nat) =>
      decide (s.addrOf c (cell / 16) (cell % 16) < base)
    let s := { s with
      dram := s.dram.filter (fun c => out (c.1 / 80 / 67108864) (c.1 / 80 % 67108864)),
      free := s.free + 2,
      sec := { s.sec with configured := true, capCode := code, treeKey := tk, treeHash := th, roots := [],
                          cache := [], dirty := [] } }
    s.mapChs (fun n c => { c with
      ctl := { c.ctl with
        rc := c.ctl.rc.filter (fun r => out n.val (r.row * 16)),
        wq := c.ctl.wq.filter (fun w => out n.val w.key) },
      ecc := { c.ecc with remap := c.ecc.remap.map (fun kv =>
        if out n.val (kv.2.row * 16 + kv.2.line) then kv else (kv.1, { kv.2 with content := none })) } })

end Sys2Proof.Machine
end

