-- ==== Sys2Proof/Machine/RowPath.lean ====
section
/-! DEFINITION. The row path: parity, walking steps, dead connections, spares, erasures, the offline
channel, command-word recovery and drift (02_row_path, and R85-R87 of 03_channel_control). -/

namespace Sys2Proof.Machine

/-- Every VALID page of a channel gets reason ERASURE when the channel enters erasure mode (R113). -/
def State.erasureReasons (s : State) (ch : Fin 64) : State :=
  s.sec.pat.foldl (fun s kv =>
    if peValid kv.2 && (decodePage s.glb.variant s.glb.mapOrder kv.1).1 = ch then s.retireReason kv.1 4 else s) s

/-- The symbol of a data connection with no spare is erased (R39, R54), or the channel goes offline (R55). -/
def State.erase (s : State) (ch : Fin 64) (c : Nat) : State :=
  let b := c / 8
  let line := b / 80
  let sym := b % 80
  let er := s.chs[ch].tsv.erased line
  let s := s.modTsv ch (fun t => { t with dead := c :: t.dead })
  if er.contains sym then s.goOffline ch 1
  else if 3 ≤ er.length then s.goOffline ch 2
  else
    let first := s.chs[ch].tsv.erasedCount = 0
    let s := s.modTsv ch (fun t => { t with erase := smPut t.erase line (er ++ [sym]) })
    let s := s.bumpEpoch ch
    let s := s.log (evTsvErasure ch.val) (detail ch.val s.chs[ch].tsv.deadLast.toNat) acSequencer
    if first then s.erasureReasons ch else s

/-- A spare of a group carries a position from now on; a dead spare that carried it is steered out (R52, R62). -/
def Tsv.steerIn (t : Tsv) (k pos : Nat) : Tsv :=
  let out := t.spares.map (fun x =>
    if 160 ≤ x.1 && x.1 < 164 && x.1 / 2 = k / 2 && x.2.failed && x.2.pos = pos then (x.1, { x.2 with used := false }) else x)
  { t with spares := smPut out k { used := true, inService := true, pos := pos } }

/-- Steer a spare in, in service (R47, R52). -/
def State.steer (s : State) (ch : Fin 64) (k pos : Nat) : State :=
  let s := s.modTsv ch (fun t => t.steerIn k pos)
  let s := s.bumpEpoch ch
  s.log (evTsvSpareUsed ch.val) (detail ch.val s.chs[ch].tsv.deadLast.toNat) acSequencer

/-- Mark a spare FAILED. -/
def State.spareDies (s : State) (ch : Fin 64) (k : Nat) : State :=
  s.modTsv ch (fun t => { t with spares := smPut t.spares k { t.spare k with failed := true } })

/-- A parity connection is dead (R52). -/
def State.parityDies (s : State) (ch : Fin 64) (p : Nat) : State :=
  if s.chs[ch].tsv.spareFree 162 then s.steer ch 162 p
  else if s.chs[ch].tsv.spareFree 163 then s.steer ch 163 p
  else
    let s := s.modTsv ch (fun t => { t with parityLost := p :: t.parityLost })
    s.log (evTsvParityLost ch.val) (detail ch.val s.chs[ch].tsv.deadLast.toNat) acSequencer

/-- A command and address connection is dead (R52): a free spare waits for the full retrain that steers it
in; with none left the channel goes offline. -/
def State.caDies (s : State) (ch : Fin 64) (p : Nat) : State :=
  let t := s.chs[ch].tsv
  let free := fun k => t.spareFree (160 + k) && !(t.caPending.any (fun x => x.1 == k))
  if free 0 || free 1 then
    let k := if free 0 then 0 else 1
    let s := s.modTsv ch (fun t => { t with caPending := t.caPending ++ [(k, p)], retrainDue := some .full })
    s.log (evTsvSpareUsed ch.val) (detail ch.val s.chs[ch].tsv.deadLast.toNat) acSequencer
  else s.goOffline ch 3

/-- A connection is already accounted for: dead without a spare, or already replaced. -/
def Tsv.known (t : Tsv) (c : Conn) : Bool :=
  match c.kind with
  | .data => t.dead.contains c.idx || ((t.spare (c.idx / 64)).used && (t.spare (c.idx / 64)).pos == c.idx % 64)
  | .dataSpare => (t.spare c.idx).failed
  | .ca => (t.caPending.any (fun x => x.2 == c.idx)) || ((t.spare 160).used && (t.spare 160).pos == c.idx) ||
      ((t.spare 161).used && (t.spare 161).pos == c.idx)
  | .caSpare => (t.spare (160 + c.idx)).failed
  | .parity => t.parityLost.contains c.idx || ((t.spare 162).used && (t.spare 162).pos == c.idx) ||
      ((t.spare 163).used && (t.spare 163).pos == c.idx)
  | .paritySpare => (t.spare (162 + c.idx)).failed
  | .clock => false

/-- A connection is declared dead and handled (R52, R53). `auto` overrides AUTO_SPARE in the post-bond
connection test (R61). A connection already accounted for changes nothing. -/
def State.declareDead (s : State) (ch : Fin 64) (auto : Bool) (c : Conn) : State :=
  let t := s.chs[ch].tsv
  if t.offline || t.known c then s
  else
    let s := s.modTsv ch (fun t => { t with deadLast := deadWord c })
    match c.kind with
    | .data =>
      let g := c.idx / 64
      if t.spareFree g && (auto || t.autoSpare) then s.steer ch g (c.idx % 64) else s.erase ch c.idx
    | .dataSpare =>
      let s := s.spareDies ch c.idx
      if (t.spare c.idx).used then s.erase ch (64 * c.idx + (t.spare c.idx).pos)
      else s.log (evTsvSpareFailed ch.val) (detail ch.val s.chs[ch].tsv.deadLast.toNat) acSequencer
    | .parity => s.parityDies ch c.idx
    | .paritySpare =>
      let s := s.spareDies ch (162 + c.idx)
      if (t.spare (162 + c.idx)).used then s.parityDies ch (t.spare (162 + c.idx)).pos
      else s.log (evTsvSpareFailed ch.val) (detail ch.val s.chs[ch].tsv.deadLast.toNat) acSequencer
    | .ca => s.caDies ch c.idx
    | .caSpare =>
      let s := s.spareDies ch (160 + c.idx)
      if (t.spare (160 + c.idx)).used then s.caDies ch (t.spare (160 + c.idx)).pos
      else match t.caPending.find? (fun x => x.1 == c.idx) with
      | some x => (s.modTsv ch (fun t => { t with caPending := t.caPending.erase x })).caDies ch x.2
      | none => s.log (evTsvSpareFailed ch.val) (detail ch.val s.chs[ch].tsv.deadLast.toNat) acSequencer
    | .clock => s.clockFault ch

/-- Connections declared dead from one step, in the order data, data spare, parity, parity spare, and ascending within each kind (R51);
then dead command and address spares, so that none of them is steered in, and dead connections (an order that the spec leaves open:
DESIGN CHOICE, log entry 82). -/
def orderDead (cs : List Conn) : List Conn :=
  [ConnKind.data, .dataSpare, .parity, .paritySpare, .caSpare, .ca, .clock].flatMap (fun k =>
    (cs.filter (fun c => c.kind = k)).mergeSort (fun a b => a.idx ≤ b.idx))

/-- Declare connections dead, or defer them to the end of an incremental hold (R55). -/
def State.declareAll (s : State) (ch : Fin 64) (auto : Bool) (cs : List Conn) : State :=
  match s.chs[ch].tsv.hold with
  | some { kind := .incremental, .. } => s.modTsv ch (fun t => { t with deferred := t.deferred ++ cs })
  | _ => (orderDead cs).foldl (fun s c => s.declareDead ch auto c) s

/-! Walking steps (R50, R51). -/

/-- WALK_STEP_DUE (R50): a background step falls due after WALK_INTERVAL revolutions; a sweep that WALK_SWEEP forced goes on whatever
WALK_EN says (log entry 79). -/
def execWalkStepDue (ch : Fin 64) (s : State) : Res :=
  let t := s.chs[ch].tsv
  if (t.walkEn || t.sweepForced) && !t.offline && decide (t.walkInterval ≤ t.walkRevs) then
    .next (s.modTsv ch (fun t => { t with walkDue := true, walkRevs := 0 }))
  else .next s

/-- The next walking step: the one in progress, else that of the first targeted sweep, else the background step that is due (R50). -/
def Tsv.nextWalk (t : Tsv) : Option WalkRun :=
  t.walk.or (match t.targeted with
    | (layer, p) :: _ => some { layer := layer, pattern := p, targeted := true }
    | [] => if t.walkDue then some { layer := t.sweepPos / 16, pattern := t.sweepPos % 16, targeted := false } else none)

/-- A walking step has ended: its sweep moves on (R50). -/
def Tsv.walkEnds (t : Tsv) (w : WalkRun) (layers : Nat) : Tsv :=
  if w.targeted then
    { t with walk := none, targeted := match t.targeted with
        | (layer, p) :: rest => if p = 15 then rest else (layer, p + 1) :: rest
        | [] => [] }
  else
    let n := 16 * layers
    { t with
      walk := none, sweepPos := (t.sweepPos + 1) % n, sweepForced := t.sweepForced && decide (t.sweepPos + 1 ≠ n),
      sweeps := if t.sweepPos + 1 = n then t.sweeps + 1 else t.sweeps }

/-- The connections that mismatched, with the runs in which each did. -/
def addMisses (ms : List WalkMiss) (cs : List Conn) : List WalkMiss :=
  cs.eraseDups.foldl (fun ms c =>
    if ms.any (fun m => m.conn.kind = c.kind && m.conn.idx = c.idx) then
      ms.map (fun m => if m.conn.kind = c.kind && m.conn.idx = c.idx then { m with runs := m.runs + 1 } else m)
    else ms ++ [{ conn := c, runs := 1 }]) ms

/-- What a step finds (R51): dead at two or more of three runs, else one transient each. -/
def State.walkOutcome (s : State) (ch : Fin 64) (misses : List WalkMiss) : State :=
  let tr := countIf misses (fun m => m.runs == 1)
  let s := s.modTsv ch (fun t => { t with transients := satAdd t.transients tr })
  s.declareAll ch false ((misses.filter (fun m => 2 ≤ m.runs)).map (fun m => m.conn))

/-- A read-back is compared (R51): a step without a mismatch ends; one with a mismatch runs three times. -/
def State.walkCompare (s : State) (ch : Fin 64) (misses : List Conn) : State :=
  match s.chs[ch].tsv.walk with
  | none => s
  | some w =>
    let ms := addMisses w.misses misses
    if ms.isEmpty || 2 ≤ w.run then
      (s.modTsv ch (fun t => t.walkEnds w s.glb.variant.layers)).walkOutcome ch ms
    else s.modTsv ch (fun t => { t with walk := some { w with run := w.run + 1, tlw := none, tlr := none, misses := ms } })

/-! Command-word recovery (R87). -/

/-- Layers that are in lockout. -/
def Ctl.lockedLayers (c : Ctl) : List Nat := (c.layers.filter (fun kv => kv.2.lockout)).map (fun kv => kv.1)

/-- An undriven strobe starts command-word recovery (R86, R87 step 1): the channel holds and takes its next epoch. Commands that were
chosen are chosen again after it, but for REFs. -/
def State.startRecovery (s : State) (ch : Fin 64) : State :=
  if s.chs[ch].ctl.recovery || s.chs[ch].tsv.offline then s
  else
    let s := s.bumpEpoch ch
    let s := s.modCh ch (fun c => c.cancelAll s.glb.variant.layers (fun x => !isRef x))
    let s := s.modCtl ch (fun c => { c with
      state := if c.state = .run then .hold else c.state,
      recovery := true, recSts := 0, recGot := 0, recAln := false, recChecked := false, locked := [], caCheckDue := true,
      lockouts := satAdd c.lockouts 1 })
    s.log (evCaLockout ch.val) (detail ch.val s.chs[ch].ctl.epoch.toNat) acSequencer

/-- A rewrite of a line that the stack makes itself (R241): dropped where the queue holds the line. -/
def State.rewrite (s : State) (ch : Fin 64) (key : Nat) (l : SLine) (scrub : Bool) : State × Bool :=
  let c := s.chs[ch].ctl
  if (c.queued? key).isSome || c.lineWaits key then (s, false)
  else
    let w : WqLine := { key := key, line := l, cls := 15, rewrite := scrub }
    (s.modCtl ch (fun c =>
      if c.canEnter key then c.enter w else { c with wqWait := c.wqWait ++ [{ wline := w, req := none }] }), true)

/-- The rows of write log entries, oldest first, each with all its logged lines. -/
def logRows (log : List WLog) : List (Nat × BitVec 16) :=
  log.foldl (fun l w =>
    if l.any (fun x => x.1 == w.row) then l.map (fun x => if x.1 = w.row then (x.1, x.2 ||| w.mask) else x)
    else l ++ [(w.row, w.mask)]) []

/-- One row of lost lines: each becomes poisoned and counts, and the row is logged once (R87 step 4). -/
def State.poisonRow (s : State) (ch : Fin 64) (row : Nat) (mask : BitVec 16) : State :=
  let r := (List.range 16).foldl (fun (acc : State × Bool) i =>
    if bit mask i then
      let x := acc.1.rewrite ch (row * 16 + i) poisonLine false
      if x.2 then (x.1.modCtl ch (fun c => { c with lostLines := satAdd c.lostLines 1 }), true) else acc
    else acc) (s, false)
  if r.2 then r.1.log (evWriteLost ch.val) (s.addrOf ch.val row 0) acRewrite else r.1

/-- Step 4 of R87: every line of every logged WM to a locked-out layer becomes poisoned. -/
def State.poisonLost (s : State) (ch : Fin 64) : State :=
  let c := s.chs[ch].ctl
  let s := (logRows (c.log.filter (fun w => c.locked.contains (rowOfKey w.row).layer))).foldl (fun s w => s.poisonRow ch w.1 w.2) s
  s.modCtl ch (fun c => { c with log := c.log.filter (fun w => !c.locked.contains (rowOfKey w.row).layer), locked := [] })

/-- Steps 4 and 5 of R87: lost writes are poisoned, and the hold ends. -/
def State.endRecovery (s : State) (ch : Fin 64) : State :=
  let s := (s.poisonLost ch).modCtl ch (fun c => { c with
    recovery := false, recChecked := false, state := if c.state = .hold && !c.fill then .run else c.state })
  s.drainWaiting ch

/-- A hold of a channel has begun: RETRAIN commands that wait for one now wait for its end (R349, R350). -/
def State.retrainBegun (s : State) (ch : Fin 64) : State :=
  { s with cmd := { s.cmd with waits := s.cmd.waits.map (fun (w : CmdWait) =>
      match w.kind with
      | .retrain c _ => if c = ch then { w with kind := .retrain c true } else w
      | _ => w) } }

/-- CA_CHECK may run: in a recovery after its ALN, else in the maintenance slot that it was given (R87; DEDUCED, log entry 110). -/
def Ctl.mayCheck (c : Ctl) (now : Nat) : Bool :=
  if c.recovery then c.recAln && !c.recChecked && decide (c.cmdFrom ≤ now) else c.caCheckDue && c.caCheckRun

/-- CA_CHECK (R87, R88): dead command and address connections are found and handled; in a recovery the lost writes are poisoned and
the hold ends, once a full retrain that a spare's use asks for has ended. -/
def execCaCheck (ch : Fin 64) (dead : List (Fin 40)) (s : State) : Res :=
  if s.chs[ch].tsv.offline || !s.chs[ch].ctl.mayCheck s.strobe then .next s
  else
    let rec0 := s.chs[ch].ctl.recovery
    let t := s.chs[ch].tsv
    let conn := fun (i : Fin 40) => (
      if (t.spare 160).used && (t.spare 160).pos == i.val && !(t.spare 160).failed then { kind := .caSpare, idx := 0 }
      else if (t.spare 161).used && (t.spare 161).pos == i.val && !(t.spare 161).failed then { kind := .caSpare, idx := 1 }
      else { kind := .ca, idx := i.val } : Conn)
    let s := s.modCtl ch (fun c => { c with caCheckDue := false, caCheckRun := false, lastStsConn := none })
    let s := (orderDead (dead.map conn)).foldl (fun s c => s.declareDead ch false c) s
    if !rec0 || s.chs[ch].tsv.offline then .next s
    else if s.chs[ch].tsv.retrainDue = some .full then .next (s.modCtl ch (fun c => { c with recChecked := true }))
    else .next (s.endRecovery ch)

/-- What an STS reads of its layer: the layer's latches are cleared (R84), entries of WMs issued before it leave the write log (R87;
log entry 83), and the write-parity latches of the layer are handled as one set (R49, R53; log entry 84). -/
def State.takeStatus (s : State) (ch : Fin 64) (layer slot : Nat) : State :=
  let l := s.chs[ch].ctl.layer layer
  let n := l.corrected.toNat
  let cn := l.lastConn.toNat
  let again := n ≠ 0 && s.chs[ch].ctl.lastStsConn = some cn
  let s := s.modCtl ch (fun c => { c.modLayer layer (fun l => { l with corrected := 0, wparity := 0 }) with
    caCount := satAdd c.caCount n,
    caLastConn := if n = 0 then c.caLastConn else BitVec.ofNat 6 cn,
    caLastLayer := if n = 0 then c.caLastLayer else BitVec.ofNat 4 layer,
    lastStsConn := if n = 0 then none else some cn,
    caCheckDue := c.caCheckDue || again,
    log := c.log.filter (fun w => (rowOfKey w.row).layer != layer || decide (slot ≤ w.slot)) })
  s.parityCheck ch layer true l.wparity

/-- The status of a layer crosses in an STS's data strobe, or the strobe is undriven: the layer is locked out, and outside a recovery
one starts (R84-R87). -/
def State.statusReturns (s : State) (ch : Fin 64) (layer slot : Nat) (mid : BitVec 14) (parity : BitVec 20) : State :=
  let rec0 := s.chs[ch].ctl.recovery
  let s := s.modCtl ch (fun c => { c with recGot := if rec0 then c.recGot + 1 else c.recGot })
  if s.undriven ch layer mid then
    if rec0 then s.modCtl ch (fun c => { c with locked := c.locked ++ [layer] }) else s.startRecovery ch
  else
    let s := s.takeStatus ch layer slot
    if s.chs[ch].tsv.offline then s else s.parityCheck ch layer false parity

/-! Drift and retraining (R56, R57). -/

/-- DRIFT_CHECK (R56): the ratio of the monitors against the baseline, in units of 1/4,096 of it. Whether drift is a rise only the rule
does not say: a fall counts like a rise (DESIGN CHOICE, log entry 101). -/
def driftExceeds (base now : W32) (limit : Nat) : Bool :=
  let sb := (base.extractLsb' 16 16).toNat
  let rb := (base.extractLsb' 0 16).toNat
  let sn := (now.extractLsb' 16 16).toNat
  let rn := (now.extractLsb' 0 16).toNat
  let x := sn * rb
  let y := sb * rn
  let d := if y ≤ x then x - y else y - x
  limit ≠ 0 && decide (limit * y < 4096 * d)

def execDriftCheck (ch : Fin 64) (counts : AgeCounts) (s : State) : Res :=
  let now := at32 16 counts.stress.toNat ||| at32 0 counts.ref.toNat
  let s := s.modTsv ch (fun t => { t with ageNow := now })
  let t := s.chs[ch].tsv
  if t.offline || !driftExceeds t.ageBase now t.driftLimit || !t.autoRetrain then .next s
  else
    let recent := match t.lastDrift with | some k => decide (s.strobe < k + 1048576) | none => false
    if recent then .next (s.log (evTsvDrift ch.val) (detail ch.val t.deadLast.toNat) acSequencer)
    else .next (s.modTsv ch (fun t => { t with
      retrainDue := some (t.retrainDue.getD .incremental), lastDrift := some s.strobe }))

/-- STROBE_LIMIT_REACHED (R56): an incremental retrain is forced at 2^30 strobes. -/
def execStrobeLimitReached (ch : Fin 64) (s : State) : Res :=
  if 1073741824 ≤ s.chs[ch].tsv.sinceTrain && !s.chs[ch].tsv.offline then
    .next (s.modTsv ch (fun t => { t with retrainDue := some (t.retrainDue.getD .incremental) }))
  else .next s

/-- A retrain that is due may begin: the channel runs, or its recovery waits for a full retrain, or it drains. -/
def Channel.mayRetrain (c : Channel) : Bool :=
  match c.ctl.state with
  | .run => !c.ctl.recovery && !c.ctl.fill
  | .hold => c.ctl.recovery && c.ctl.recChecked
  | .draining => !c.ctl.recovery || c.ctl.recChecked
  | _ => false

/-- The strobe from which a hold can begin: row transfers that have been issued cross first (R58, step 1; DEDUCED, log entry 108). -/
def Ctl.holdFrom (c : Ctl) (now : Nat) : Nat := (c.issued.filter SlotCmd.moves).foldl (fun a x => max a (x.slot + 1)) now

/-- A retrain hold begins: transfers chosen for requests are chosen again after it; a full retrain puts the layers in self-refresh (R58). -/
def State.beginHold (s : State) (ch : Fin 64) (k : RetrainKind) : State :=
  let n := s.glb.variant.layers
  let s := s.modCh ch (fun c => c.cancelAll n (fun x => k = .full || !isRef x))
  let start := s.chs[ch].ctl.holdFrom s.strobe
  let s := (s.modTsv ch (fun t => { t with retrainDue := none, hold := some { kind := k, start := start } })).retrainBegun ch
  s.modCtl ch (fun c =>
    let c := { c with state := if c.state = .run then .hold else c.state }
    match k with
    | .full => c.allLayers n RowCmd.sre
    | .incremental => c)

/-- RETRAIN_HOLD_START (R56, R58): the hold begins once no other channel of the District is held. -/
def execRetrainHoldStart (ch : Fin 64) (s : State) : Res :=
  match s.chs[ch].tsv.retrainDue with
  | none => .next s
  | some k =>
    let others := (fins 64).any (fun n => n ≠ ch && distOf n = distOf ch && (s.chs[n].tsv.hold).isSome)
    if others || !(s.chs[ch]).mayRetrain || (s.chs[ch].ctl.recovery && k = .incremental) then .next s
    else .next (s.beginHold ch k)

/-- The retrain of a channel ends (R55-R57): the epoch of a full retrain, the spares it steers in, the baseline, its divider alignment
and the exit from self-refresh, and the connections whose handling the hold deferred. -/
def State.endHold (s : State) (ch : Fin 64) (h : Hold) (failed : Bool) (found : List Conn) (age : AgeCounts) : State :=
  let w := at32 16 age.stress.toNat ||| at32 0 age.ref.toNat
  let full := h.kind = .full
  let late := s.chs[ch].tsv.deferred ++ found
  let n := s.glb.variant.layers
  let s := s.modTsv ch (fun t =>
    { (if full then t.caPending.foldl (fun t x => t.steerIn (160 + x.1) x.2) t else t) with
      hold := none, sinceTrain := 0, ageNow := w, ageBase := if full then w else t.ageBase, deferred := [],
      caPending := if full then [] else t.caPending, aligned := t.aligned || full })
  let s := s.modCtl ch (fun c =>
    { (if full then (c.layerDo n .aln).allLayers n RowCmd.srx else c) with
      state := if c.state = .hold && !c.fill && !c.recovery then .run else c.state,
      rowFrom := if full then s.strobe + 64 else c.rowFrom })
  let s := if full then s.bumpEpoch ch else s
  let s := if failed then s.clockFault ch else s
  let s := (orderDead late).foldl (fun s c => s.declareDead ch false c) s
  if s.chs[ch].ctl.recovery && full && !s.chs[ch].tsv.offline && s.chs[ch].tsv.retrainDue ≠ some .full then s.endRecovery ch
  else s.drainWaiting ch

/-! Injections (R62, R91, R120, R154). -/

/-- TSV_PARITY_INJECT (R62). -/
def execTsvParityInject (p : Path) (m : MasterId) (ch : Fin 64) (s : State) : Res :=
  .next (s.guardWrite p m (offChs ch 0x008) (fun s => s.modTsv ch (fun t => { t with injParity := true })))

/-- A background sweep starts, or restarts, at once, whatever WALK_EN says (R62, log entry 79). -/
def Tsv.forceSweep (t : Tsv) : Tsv :=
  { t with sweepPos := 0, walkDue := true, walkRevs := 0, sweepForced := true, walk := t.walk.filter (fun w => w.targeted) }

/-- TSV_WALK_SWEEP (R62). -/
def execTsvWalkSweep (p : Path) (m : MasterId) (ch : Fin 64) (s : State) : Res :=
  .next (s.guardWrite p m (offChs ch 0x008) (fun s => s.modTsv ch Tsv.forceSweep))

/-- An incremental retrain is asked for (R56, R62). -/
def Tsv.askRetrain (t : Tsv) (k : RetrainKind) : Tsv :=
  if t.offline then t
  else { t with retrainDue := some (match t.retrainDue, k with | some .full, _ => .full | _, k => k) }

/-- TSV_RETRAIN_INC (R62). -/
def execTsvRetrainInc (p : Path) (m : MasterId) (ch : Fin 64) (s : State) : Res :=
  .next (s.guardWrite p m (offChs ch 0x008) (fun s => s.modTsv ch (fun t => t.askRetrain .incremental)))

/-- CA_UNCORR_INJECT (R91). -/
def execCaUncorrInject (p : Path) (m : MasterId) (ch : Fin 64) (s : State) : Res :=
  .next (s.guardWrite p m (offChs ch 0x434) (fun s => s.modCtl ch (fun c => { c with injUncorr := true })))

/-- CA_CORR_INJECT (R91). -/
def execCaCorrInject (p : Path) (m : MasterId) (ch : Fin 64) (s : State) : Res :=
  .next (s.guardWrite p m (offChs ch 0x434) (fun s => s.modCtl ch (fun c => { c with injCorr := true })))

/-- Arm an injection of ECC_INJECT (R120): 1-5 symbols; other counts have no effect. -/
def Ecc.arm (e : Ecc) (v : W32) : Ecc :=
  let n := fieldN v 0 3
  if n = 0 || 5 < n then e else if bit v 3 then { e with injScrub := n } else { e with injReq := n }

/-- ECC_INJECT (R120). -/
def execEccInject (p : Path) (m : MasterId) (ch : Fin 64) (value : W32) (s : State) : Res :=
  .next (s.guardWrite p m (offChs ch 0x838) (fun s => s.modEcc ch (fun e => e.arm value)))

/-- CTR_TAG_INJECT (R154). -/
def execCtrTagInject (p : Path) (m : MasterId) (ch : Fin 64) (s : State) : Res :=
  .next (s.guardWrite p m (offChs ch 0xC1C) (fun s => s.modCry ch (fun c => { c with injCtr := true })))

/-- DATA_TAG_INJECT (R154). -/
def execDataTagInject (p : Path) (m : MasterId) (ch : Fin 64) (s : State) : Res :=
  .next (s.guardWrite p m (offChs ch 0xC1C) (fun s => s.modCry ch (fun c => { c with injData := true })))

end Sys2Proof.Machine
end

