-- ==== Sys2Proof/Machine/CmdDev.lean ====
section
/-! DEFINITION. The Device and Faults commands, POWER_CAP_SET and the unassigned opcodes (R337, R346, R347, R446,
R460). -/

namespace Sys2Proof.Machine

/-- STATE of ENUM_REPLY (R288): 0 boot ROM, 1 verifying, 2 firmware starting, 3 ready, 4 FUSE_ALARM. -/
def stateCode : Phase → Nat
  | .held | .released | .strapped | .sensed | .tested | .boot => 0
  | .verifying => 1
  | .starting => 2
  | .ready | .warm _ => 3
  | .fuseAlarm => 4

/-- The VARIANT byte (R288, R347). -/
def variantByte : Variant → Nat
  | .kv9216 => 0x16
  | .kv9208 => 0x08

/-- User capacity in GiB (R135, R347). -/
def State.userGib (s : State) : Nat :=
  (if s.sec.configured then treeBasePage s.glb.variant s.sec.capCode else s.glb.variant.pages) / 8192

/-- DEV_IDENTIFY (R347). -/
def cmdDevIdentify : CmdFn := fun s =>
  s.okay (at64 51 (b2n s.fwRunning) ||| at64 50 (b2n s.sec.configured) ||| at64 48 s.sec.capCode |||
    at64 47 (b2n s.glb.mapLock) ||| at64 45 s.glb.mapOrder.toNat ||| at64 33 s.userGib |||
    at64 28 s.glb.variant.layers ||| at64 16 s.fab.nodeId.toNat ||| at64 8 0x01 ||| at64 0 (variantByte s.glb.variant))

def execDevIdentify (c : CmdCtx) (s : State) : Res := .next (s.command c 0x0001 true cmdDevIdentify)

/-- Channel n is in erasure mode (R54, R347). -/
def Tsv.erasureMode (t : Tsv) : Bool := !t.offline && t.erasedCount != 0
/-- A 64-bit mask from a test of channel, engine or port numbers. -/
def mask64 (p : Fin 64 → Bool) : W64 := (fins 64).foldl (fun (v : W64) i => setBit v i.val (p i)) 0

/-- DEV_STATUS (R347). -/
def cmdDevStatus (select : BitVec 8) : CmdFn := fun s =>
  match select.toNat with
  | 0 => s.okay (at64 0 (stateCode s.boot.phase) ||| at64 3 (b2n s.boot.verifyFail) ||| at64 4 (b2n s.fuse.alarm) |||
      at64 8 ((fins 8).foldl (fun n k => n + (if s.distOn k then 2 ^ k.val else 0)) 0) ||| at64 16 (b2n (s.scrub.fn.st == .on)) |||
      at64 24 (countIf (fins 64) (fun n => s.chs[n].tsv.offline)) ||| at64 32 s.cmd.queues.length)
  | 1 => s.okay (mask64 (fun n => s.chs[n].tsv.offline))
  | 2 => s.okay (mask64 (fun n => (s.chs[n].tsv).erasureMode))
  | 3 => s.okay (if s.fwRunning then s.boot.version else 0)
  | _ => s.refuse .badParam

def execDevStatus (c : CmdCtx) (select : BitVec 8) (s : State) : Res := .next (s.command c 0x0002 true (cmdDevStatus select))

/-- RING_SET (R337): only from ring 0 and REMOTE_CMD. A failed ring may have a command in execution, whose reply is dropped (log entry 99). -/
def cmdRingSet (c : CmdCtx) (ring log2 hostPort vector : BitVec 8) (owner : BitVec 32) (groups : BitVec 16) : CmdFn := fun s =>
  let r : Fin 32 := ⟨ring.toNat % 32, Nat.mod_lt _ (by decide)⟩
  let x := s.cmd.rings[r]
  let fromOk := match c.src with | .ring i => i.val == 0 | .direct _ _ => false | .remote _ _ _ _ => true
  let issuing := match c.src with | .ring i => i == r | _ => false
  checked [
    (!fromOk, .notPermitted),
    (decide (32 ≤ ring.toNat) || !(log2 = 0 || (4 ≤ log2.toNat && log2.toNat ≤ 12)) || decide (8 ≤ hostPort.toNat) ||
      (1 ≤ vector.toNat && vector.toNat ≤ 7) || decide (1048576 ≤ owner.toNat) || decide (2048 ≤ groups.toNat), .badParam),
    (issuing || (x.tail ≠ x.done && !x.failed), .busy)]
    (fun s => ((s.ringRestart r).modRing r (fun x => { x with
      en := log2 ≠ 0, log2 := log2.toNat, hostPort := ⟨hostPort.toNat % 8, Nat.mod_lt _ (by decide)⟩,
      vector := vector, owner := owner.setWidth 20, groups := groups.setWidth 11 })).okay) s

def execRingSet (c : CmdCtx) (ring log2 hostPort vector : BitVec 8) (owner : BitVec 32) (groups : BitVec 16) (s : State) : Res :=
  .next (s.command c 0x0003 true (cmdRingSet c ring log2 hostPort vector owner groups))

/-- POWER_CAP_SET (R29, R460). -/
def cmdPowerCapSet (cap : BitVec 16) : CmdFn := fun s =>
  checked [(decide (cap.toNat < 120) || decide (s.glb.variant.maxCap < cap.toNat), .badParam)]
    (fun s => ({ s with thm := { s.thm with cap := cap.toNat } }).okay (res64 s.thm.cap)) s

def execPowerCapSet (c : CmdCtx) (cap : BitVec 16) (s : State) : Res := .next (s.command c 0x0901 true (cmdPowerCapSet cap))

/-- UNASSIGNED_OPCODE (R346): refused with BAD_OPCODE, after the boot-state check (R344). -/
def execUnassignedOpcode (c : CmdCtx) (opcode : BitVec 16) (s : State) : Res :=
  if assignedOpcodes.contains opcode.toNat then .next s
  else .next (s.command c opcode.toNat true (fun s => s.refuse .badOpcode))

/-! The Faults group (R446, R447). -/

/-- The history entry of an age: 0 is the oldest held. -/
def Flt.byAge (f : Flt) (i : Nat) : Option FaultRec :=
  if i < f.held then smGet? f.hist ((f.newest + 33 - f.held + i) % 32) else none

/-- FAULT_READ. -/
def cmdFaultRead (select quad : BitVec 8) : CmdFn := fun s =>
  let i := select.toNat
  checked [((32 ≤ i && i ≤ 0x3F) || decide (0x41 < i) || decide (3 < quad.toNat), .badParam)]
    (fun s =>
      if i = 0x41 then
        s.okay (if quad = 0 then s.flt.status.setWidth 64 ||| at64 32 s.flt.held ||| at64 40 (min 255 s.flt.histLost.toNat) else 0)
      else
        let r := if i = 0x40 then s.flt.first else s.flt.byAge i
        s.okay (match r with | some r => recQuad r quad.toNat | none => 0)) s

def execFaultRead (c : CmdCtx) (select : BitVec 8) (quad : BitVec 8) (s : State) : Res :=
  .next (s.command c 0x0801 true (cmdFaultRead select quad))

/-- FAULT_CLEAR. -/
def cmdFaultClear (what : BitVec 8) : CmdFn := fun s =>
  checked [(what = 0 || decide (64 ≤ what.toNat), .badParam)]
    (fun s =>
      let n := if bit what 1 then s.flt.held else 0
      let f := s.flt
      let f := if bit what 0 then { f with first := none, firstMultiple := false, fatalLater := false } else f
      let f := if bit what 1 then { f with hist := [], newest := 0, held := 0, histLost := 0 } else f
      let f := if bit what 2 then
          { f with countCorr := 0, countCont := 0, countFatal := 0, srcs := f.srcs.map (fun kv => (kv.1, { kv.2 with count := 0 })) }
        else f
      let f := if bit what 3 then { f with faultHold := false } else f
      let f := if bit what 4 then { f with alertPend := 0 } else f
      let f := if bit what 5 then { f with irqPend := 0 } else f
      ({ s with flt := f }).okay (res64 n)) s

def execFaultClear (c : CmdCtx) (what : BitVec 8) (s : State) : Res := .next (s.command c 0x0802 true (cmdFaultClear what))

/-- FAULT_FORCE (R447). -/
def cmdFaultForce (c : CmdCtx) (source : BitVec 16) : CmdFn := fun s =>
  checked [(decide (4096 ≤ source.toNat) || decide (fltClass source.toNat = 0), .badParam)]
    (fun s => (s.forceEvent source.toNat (s.issuer c)).okay) s

def execFaultForce (c : CmdCtx) (source : BitVec 16) (s : State) : Res := .next (s.command c 0x0803 true (cmdFaultForce c source))

/-- REACTION_SET (R442). -/
def cmdReactionSet (first count : BitVec 16) (reaction restore : BitVec 8) : CmdFn := fun s =>
  checked [(decide (4096 ≤ first.toNat) || count = 0 || decide (4096 < first.toNat + count.toNat) || decide (1 < restore.toNat), .badParam)]
    (fun s =>
      let ids := ((List.range count.toNat).map (fun i => first.toNat + i)).filter (fun id => fltClass id ≠ 0)
      let f := ids.foldl (fun (f : Flt) id => f.modSrc id (fun x =>
        { x with reaction := if bit restore 0 then fltDefault (fltClass id) else reactionFloor id reaction })) s.flt
      ({ s with flt := f }).okay (res64 ids.length)) s

def execReactionSet (c : CmdCtx) (first count : BitVec 16) (reaction restore : BitVec 8) (s : State) : Res :=
  .next (s.command c 0x0804 true (cmdReactionSet first count reaction restore))

end Sys2Proof.Machine
end

