-- ==== Sys2Proof/Machine/Keys.lean ====
section
/-! DEFINITION. Commands that change policy and complete later (R25), the key commands, key agreement, and the KEY
registers (05_encryption_integrity, R149-R155, R348). -/

namespace Sys2Proof.Machine

/-! Requests that have looked up policy (R25). -/

/-- Requests of a channel that have looked up an entry that satisfies `p` (page, entry) and have not completed. -/
def State.lookupsIn (s : State) (p : Nat → W32 → Bool) (ch : Fin 64) : List (MasterId × BitVec 16) :=
  let page := fun (r : Req) => r.addr.toNat / 131072
  let c := s.chs[ch].ctl
  ((c.rq.filter (fun q => p (page q.req) q.entry)).map (fun q => q.req) ++
   (c.wqWait.filterMap (fun w => w.req)).filter (fun r => p (page r) (s.pageEntry (page r))) ++
   s.sec.walks.flatMap (fun w => (w.waiters.filter (fun x => x.ch == ch.val && p (page x.req) x.entry)).map (fun x => x.req))).map
    (fun r => (r.master, r.tag))
/-- Tiles, positions and pages that engines work on, with their entries: each counts as one request (R171). -/
def EngRun.lookups (r : EngRun) : List (Nat × W32 × BitVec 16) :=
  ((r.tile.toList ++ r.next.toList ++ (r.gather.map (fun g => g.1)).toList).map (fun t => (t.page, t.entry, t.tag))) ++
  (r.copy.map (fun c => (c.page, c.entry, c.tag))).toList
/-- Those under an entry that satisfies `p`. -/
def State.tileLookups (s : State) (p : Nat → W32 → Bool) : List (MasterId × BitVec 16) :=
  (fins 64).flatMap (fun e =>
    ((match s.engs.eng[e].run with | some r => r.lookups | none => []).filter (fun (x : Nat × W32 × BitVec 16) => p x.1 x.2.1)).map
      (fun (x : Nat × W32 × BitVec 16) => (s.self (agentEngine e.val), x.2.2)))
/-- The same over the node. -/
def State.lookups (s : State) (p : Nat → W32 → Bool) : List (MasterId × BitVec 16) :=
  (fins 64).flatMap (s.lookupsIn p) ++ s.tileLookups p

/-- The answer of a command under R25: now, or once the requests `olds` have completed. -/
def State.afterLookups (s : State) (olds : List (MasterId × BitVec 16)) (st : CmdStatus) (result : W64) : State × CmdOut :=
  if olds.isEmpty then (s, .done st result)
  else ({ s with cmd := { s.cmd with nextPolicy := s.cmd.nextPolicy + 1 } }, .wait (.policy s.cmd.nextPolicy olds st result .none))

/-- The answer of a command whose change itself must wait for the requests `olds` (R25): what it does then is `act`. -/
def State.actLater (s : State) (olds : List (MasterId × BitVec 16)) (act : PolicyAct) : State × CmdOut :=
  ({ s with cmd := { s.cmd with nextPolicy := s.cmd.nextPolicy + 1 } }, .wait (.policy s.cmd.nextPolicy olds .ok 0 act))

/-- Requests and tiles that hold policy they have looked up (R25, R171). -/
def State.lookupsHeld (s : State) : List (MasterId × BitVec 16) :=
  (fins 64).flatMap (fun ch => (s.heldRequests ch).map (fun x => (x.master, x.tag))) ++ s.tileLookups (fun _ _ => true)

/-- A page change that waits names a key slot (R152). -/
def CmdWait.setsUnder (w : CmdWait) (slot : Nat) : Bool :=
  match w.kind with | .policy _ _ _ _ (.setPage _ e _) => peEnc e && peSlot e == slot | _ => false

/-- A slot is zeroised and EMPTY (R152). -/
def State.zeroise (s : State) (slot : Nat) : State :=
  let k := s.keySlot slot
  { s with sec := { s.sec with keys := smPut s.sec.keys slot { gen := k.gen + 1, emptyLogged := k.emptyLogged } } }

/-! Clearing a page (R128, R145). -/

/-- A change of entry clears the page (R128). -/
def clears (old new : W32) : Bool :=
  (peValid new && !peValid old) || peEnc new != peEnc old || peInt new != peInt old || (peEnc new && peSlot new != peSlot old)

/-- Write a page's entry. -/
def State.setEntry (s : State) (page : Nat) (e : W32) : State :=
  { s with sec := { s.sec with pat := if e = 0 then smDel s.sec.pat page else smPut s.sec.pat page e } }

/-- The lines of a page whose counter lines a clear needs are in the cache, or a walk brings them. -/
def State.clearWalks (s : State) (ch : Fin 64) (e : W32) (base : Nat) : State × CStatus :=
  (List.range 256).foldl (fun (acc : State × CStatus) i =>
    if acc.2 ≠ .ok then acc else acc.1.ensureCtr ch e (base + 512 * i)) (s, .ok)

/-- Write every line of a page with zero plaintext under an entry; lines that are sealed, under the old entry or the new, are left as they
are (R128, R145). -/
def State.clearLines (s : State) (ch : Fin 64) (m : MasterId) (old e : W32) (base : Nat) : State × Bool :=
  (List.range 2048).foldl (fun (acc : State × Bool) i =>
    let s := acc.1
    let a := base + 64 * i
    if s.isSealed e a || s.isSealed old a then (s, true)
    else
      let f := s.storedForm ch m acCommand e a (s.decodeAddr a).key 0 false 15
      ((f.1.enqueue ch f.2 none).1, acc.2)) (s, false)

/-- The channel that a page command needs can serve it (R350). -/
def State.channelBar (s : State) (ch : Fin 64) : Option CmdStatus :=
  if !s.distOn (distOf ch) then some .domainDown
  else if s.chs[ch].tsv.offline then some .notPermitted
  else none

/-- Give a page a new entry, with a clear where the change is one of R128: the status of PAGE_SET. -/
def State.setPageNow (s : State) (m : MasterId) (p : Nat) (entry : W32) : State × CmdStatus :=
  let old := s.patRaw p
  let ch := (s.decodeAddr (p * 131072)).ch
  if peRetired old then (s, .notPermitted)
  else if !clears old entry then (s.setEntry p entry, .ok)
  else match s.channelBar ch with
    | some st => (s, st)
    | none =>
      let w := s.clearWalks ch (entry ||| (old &&& 0x40000000#32)) (p * 131072)
      if w.2 ≠ .ok then (w.1, CmdStatus.ofCompletion w.2)
      else
        let x := (w.1.setEntry p entry).clearLines ch m old entry (p * 131072)
        (x.1, if x.2 then .sealed else .ok)

/-- What a policy change still had to do, and its reply (R25). -/
def State.actNow (s : State) (w : CmdWait) (st : CmdStatus) (result : W64) : PolicyAct → State
  | .none => s.finish w st result
  | .eraseKey slot => (s.zeroise slot).finish w st result
  | .setPage p e m =>
    let old := (s.patRaw p).setWidth 64
    let x := ({ s with cmd := { s.cmd with waits := s.cmd.waits.erase w } }).setPageNow m p e
    (x.1.reply w.ctx x.2 old).drainWaiting (s.decodeAddr (p * 131072)).ch

/-- A policy change may not act yet: an earlier one of the same page, or one whose clear uses the key slot, comes first (R128, R152). -/
def State.actBlocked (s : State) (id : Nat) (act : PolicyAct) : Bool :=
  match act with
  | .none => false
  | .eraseKey slot => s.cmd.waits.any (fun w => w.setsUnder slot)
  | .setPage p _ _ => s.cmd.waits.any (fun w => match w.kind with | .policy i _ _ _ (.setPage q _ _) => q == p && decide (i < id) | _ => false)

/-- POLICY_CHANGE_COMPLETE (R25, R324): a waiting command does what it still had to do and replies once no request that used the old
values is held. -/
def execPolicyChangeComplete (id : Nat) (s : State) : Res :=
  match s.cmd.waits.find? (fun w => match w.kind with
      | .policy i _ _ _ _ => i == id
      | .segments i _ _ => i == id
      | _ => false) with
  | some w =>
    match w.kind with
    | .policy _ olds st r act =>
      if olds.any s.lookupsHeld.contains || s.actBlocked id act then .next s else .next (s.actNow w st r act)
    | .segments _ olds r =>
      if olds.any (fun o => (s.hosts[o.1].pend).any (fun x => x.req == o.2)) then .next s else .next (s.finish w .ok r)
    | _ => .next s
  | none => .next s

/-! Key agreement (R149, R150). -/

/-- ASCII bytes. -/
def ascii (t : String) : List Byte := t.toList.map (fun c => BitVec.ofNat 8 c.toNat)
/-- The root secret of region 4 (R414). -/
def State.rootSecret (s : State) : List Byte := (List.range 8).flatMap (fun i => toBytes (s.shadowWord (848 + i)) 4)
/-- Bits [255:0] of the customer secret of region 5 (R414). -/
def State.customerSecret (s : State) : List Byte := (List.range 8).flatMap (fun i => toBytes (s.shadowWord (864 + i)) 4)
/-- The private scalar (R149). The rule does not say in which byte order the digest is read as the number that is reduced: the model reads it
big-endian (DESIGN CHOICE, log entry 6). -/
def State.agreeScalar (s : State) : Nat := beNat (sha384 (s.rootSecret ++ ascii "KALVOR-AGREE")) % (ecN - 1) + 1

/-- KEY.AGREE_PUB: X then Y, byte 0 of each in bits [31:24] of its first register (R155). -/
def pubWords (p : Nat × Nat) : Vector W32 24 :=
  Vector.ofFn (fun i : Fin 24 =>
    let v := if i.val < 12 then p.1 else p.2
    BitVec.ofNat 32 (v >>> (32 * (11 - i.val % 12))))

/-- Derive the agreement key pair (R149). -/
def State.deriveAgree (s : State) : State :=
  match ecMul s.agreeScalar ecG with
  | some p => { s with sec := { s.sec with agreeReady := true, agreePub := pubWords p } }
  | none => s

/-- The key-encryption key of a blob (R150). -/
def State.kek (s : State) (z : Nat) (sel : Bool) : List Byte :=
  (sha384 (beBytes z 48 ++ ascii "KALVOR-KEK" ++ toBytes s.serial 8 ++ (if sel then s.customerSecret else []))).take 32

/-- Unwrap a blob of 256 bytes: data key and tag key (R150, R151). -/
def State.unwrapBlob (s : State) (b : List Byte) : Except CmdStatus (BitVec 256 × BitVec 256) :=
  let sel := nth b 2 0
  let x := beNat ((b.drop 8).take 48)
  let y := beNat ((b.drop 56).take 48)
  if nth b 0 0 ≠ 1 || nth b 1 0 ≠ 0 || 1 < sel.toNat || nth b 3 0 ≠ 0 || (b.drop 176).any (fun v => v != 0) ||
     (sel = 1 && !s.regionLocked 5) then .error .badParam
  else if !ecOn (x, y) then .error .integrityFail
  else match ecMul s.agreeScalar (x, y) with
    | none => .error .integrityFail
    | some z =>
      match kwUnwrap (s.kek z.1 (sel == 1)) ((b.drop 104).take 72) with
      | none => .error .integrityFail
      | some k =>
        let tk : BitVec 256 := ofBytes 256 ((k.drop 32).take 32)
        if hashKeyOf tk = 0 then .error .integrityFail else .ok (ofBytes 256 (k.take 32), tk)

/-! The key commands. -/

/-- The class of a blob read: CL15 under the identity of a control core, CL0 under any other (R151, R208). -/
def State.blobClass (s : State) (c : CmdCtx) : Fin 16 := if s.isLocalCore (s.issuer c) then 15 else 0

/-- The blob of KEY_LOAD_WRAPPED: four line reads under the issuer's identity, which the Kerb of the carrying core admits (R151, R223). -/
def State.readBlob (s : State) (c : CmdCtx) (a : Nat) : State × CStatus × List (BitVec 512) :=
  let s := (List.range 4).foldl (fun s _ => s.coreCharge ⟨coreOf c % 4, Nat.mod_lt _ (by decide)⟩ (s.blobClass c) 1) s
  s.readLinesNow (s.issuer c) a acLineRead 4 (s.blobClass c).val

/-- KEY_LOAD_WRAPPED (R151). -/
def cmdKeyLoadWrapped (c : CmdCtx) (slot : BitVec 16) (addr : W64) : CmdFn := fun s =>
  let k := s.keySlot slot.toNat
  checked [
    (decide (4095 < slot.toNat) || addr.toNat % 64 != 0, .badParam),
    (k.loaded, .locked)]
    (fun s =>
      let r := s.readBlob c addr.toNat
      let s := r.1
      if r.2.1 ≠ .ok then s.refuse (CmdStatus.ofCompletion r.2.1)
      else
        let b := lineBytes r.2.2
        match s.unwrapBlob b with
        | .error st => s.refuse st
        | .ok (dk, tk) =>
          let k' : KeySlot := {
            loaded := true, dataKey := dk, tagKey := tk, hashKey := hashKeyOf tk, loadId := ofBytes 32 ((b.drop 4).take 4),
            kekSel := nth b 2 0 == 1, gen := k.gen + 1, emptyLogged := false }
          ({ s with sec := { s.sec with keys := smPut s.sec.keys slot.toNat k' } }).okay) s

def execKeyLoadWrapped (c : CmdCtx) (slot : BitVec 16) (addr : W64) (s : State) : Res :=
  .next (s.command c 0x0201 true (cmdKeyLoadWrapped c slot addr))

/-- KEY_ERASE (R152): requests that looked the slot up keep its keys until they have completed; for every later lookup it is EMPTY (R25). -/
def cmdKeyErase (slot : BitVec 16) : CmdFn := fun s =>
  checked [(decide (4095 < slot.toNat), .badParam)]
    (fun s =>
      let olds := s.lookups (fun _ e => peEnc e && peSlot e == slot.toNat)
      if olds.isEmpty && !s.cmd.waits.any (fun w => w.setsUnder slot.toNat) then (s.zeroise slot.toNat).okay
      else
        let k := s.keySlot slot.toNat
        ({ s with sec := { s.sec with keys := smPut s.sec.keys slot.toNat { k with erasing := true } } }).actLater olds (.eraseKey slot.toNat)) s

def execKeyErase (c : CmdCtx) (slot : BitVec 16) (s : State) : Res := .next (s.command c 0x0202 true (cmdKeyErase slot))

/-- VALID pages with ENC that name a slot (R152). -/
def State.keyRefs (s : State) (slot : Nat) : Nat := countIf s.sec.pat (fun kv => peValid kv.2 && peEnc kv.2 && peSlot kv.2 == slot)

/-- KEY_QUERY (R152). -/
def cmdKeyQuery (slot : BitVec 16) : CmdFn := fun s =>
  checked [(decide (4095 < slot.toNat), .badParam)]
    (fun s =>
      let k := s.keySlot slot.toNat
      s.okay (at64 62 (b2n k.loaded) ||| at64 61 (b2n k.kekSel) ||| at64 53 k.gen.toNat ||| at64 32 (s.keyRefs slot.toNat) |||
        (if k.loaded then k.loadId.setWidth 64 else 0))) s

def execKeyQuery (c : CmdCtx) (slot : BitVec 16) (s : State) : Res := .next (s.command c 0x0203 true (cmdKeyQuery slot))

/-! The KEY registers (R155). -/

/-- Read of a KEY register; CTR_MISSES clears when it is read. -/
def State.keyRead (s : State) (o : Nat) : W32 :=
  match o with
  | 0x00 =>
    at32 31 (b2n s.sec.agreeReady) ||| at32 30 (b2n s.sec.configured) ||| at32 28 s.sec.capCode ||| at32 25 s.levels |||
    at32 24 (b2n s.sec.stickyOverflow) ||| at32 23 (b2n s.sec.stickyLost) ||| at32 0 (countIf s.sec.keys (fun kv => kv.2.loaded))
  | 0x04 => at32 0 (rootsUsed s.glb.variant s.sec.capCode)
  | 0x08 => if s.sec.configured && s.sec.capCode != 0 then at32 0 (treeBasePage s.glb.variant s.sec.capCode) else 0
  | 0x0C => at32 0 s.sec.sticky.length
  | 0x10 => s.sec.ctrCfg.setWidth 32
  | 0x14 => at32 0 s.sec.dirty.length
  | 0x18 => s.sec.ctrMisses
  | _ =>
    if 0x100 ≤ o && o < 0x160 then s.sec.agreePub.toList.getD ((o - 0x100) / 4) 0
    else if 0x4000 ≤ o && o < 0x8000 then
      let n := (o - 0x4000) / 4
      let k := s.keySlot n
      at32 30 (b2n k.loaded) ||| at32 22 k.gen.toNat ||| at32 21 (b2n k.kekSel) ||| at32 0 (s.keyRefs n)
    else 0

/-- The clearing effect of reading KEY.CTR_MISSES. -/
def Sec.keyClear (k : Sec) (o : Nat) : Sec := if o = 0x18 then { k with ctrMisses := 0 } else k

/-- Write of a KEY register: CTR_CFG takes a DIRTY_LIMIT of 1-4,096. -/
def Sec.keyWrite (k : Sec) (o : Nat) (v : W32) : Sec :=
  let n := fieldN v 0 13
  if o = 0x10 && 1 ≤ n && n ≤ 4096 then { k with ctrCfg := v.setWidth 13 } else k

end Sys2Proof.Machine
end

