-- ==== Sys2Proof/Machine/Fabric.lean ====
section
/-! DEFINITION. The fabric master: requests of the control cores over MGT, enumeration, routes, firmware pushes, key
sets, time, detaching, and the Fabric commands (11_scezo_fabric, R298-R307). -/

namespace Sys2Proof.Machine

/-! Requests over MGT (R285, R287, R288). -/

/-- Where a management request goes: to a node by its ID, or along a source-routed path. -/
inductive Dest where
  | node (d : BitVec 12)
  | path (p : List Byte)
deriving DecidableEq, Repr

/-- The four slots of a PATH (R288). -/
def pathSlots (p : List Byte) : List (BitVec 128) := (List.range 4).map (fun i => ofBytes 128 ((p.drop (16 * i)).take 16))

/-- Send a request of this node's CC0 (class CL15) to another node; false where no route is up, with the request counted
in NO_ROUTE (R293, R304). `lo` is ADDR[39:0] of a request to a node. -/
def State.mgmtSend (s : State) (use : MgmtUse) (ty : Nat) (dest : Dest) (lo : Nat) (slots : List (BitVec 128)) : State × Bool :=
  let tag := s.fab.nextTag
  let me := s.self agentCC0
  let x : State × Egress := match dest with
    | .node d => s.route d
    | .path p => let l := subOfByte (nth p 0 0).toNat; (s, if subUp (s.subAt l) then .sub l else .down)
  let m : Msg := match dest with
    | .node d => { hdr := reqHdr ty 15 tag me (globalHi d (BitVec.ofNat 40 lo)), slots := slots }
    | .path p => { hdr := reqHdr ty 15 tag me (at64 0 p.length) true, slots := pathSlots p ++ slots }
  match (if s.fab.detaching then Egress.down else x.2) with
  | .sub l =>
    let s := { x.1 with fab := { x.1.fab with nextTag := tag + 1, mgmt := x.1.fab.mgmt ++ ([{ tag := tag, use := use }] : List MgmtReq) } }
    ((s.addTransit m.hdr none (some l)).sendOn l m, true)
  | _ => (x.1.noRoute, false)

/-- A management-window address of another node (R288). -/
def mgmtAddr (off : Nat) : Nat := 0xFF00000000 + off
/-- A 64-byte command packet as four slots (R341). -/
def packetSlots (op : Nat) (params : List (Nat × List Byte)) : List (BitVec 128) :=
  let b := params.foldl (fun (v : List Byte) p => v.take p.1 ++ p.2 ++ v.drop (p.1 + p.2.length))
    (toBytes (BitVec.ofNat 16 op) 2 ++ List.replicate 62 (0 : Byte))
  pathSlots b

/-! The node list. -/

/-- A node that the master knows. -/
def State.fabNode (s : State) (d : BitVec 12) : Option FabNode := s.fab.nodes.find? (fun n => n.id = d)
/-- The fabric master: FAB_MASTER_N sampled low (R298). -/
def State.fabMaster (s : State) : Bool := bit s.boot.straps 5
/-- The path from the master to a node. -/
def State.pathTo (s : State) (d : BitVec 12) : List Byte :=
  match s.fabNode d with
  | some n => n.path
  | none => []
/-- Update the enumeration in progress. -/
def State.modEnum (s : State) (f : EnumSt → EnumSt) : State := { s with fab := { s.fab with enum := s.fab.enum.map f } }
/-- A route entry with a primary sub-link only (R292). -/
def routeEntry (b : Byte) : W64 := at64 63 1 ||| at64 48 b.toNat
/-- Write an entry of this node's route table. -/
def State.setRoute (s : State) (d : Nat) (e : W64) : State :=
  { s with fab := { s.fab with route := if e = 0 then smDel s.fab.route d else smPut s.fab.route d e } }

/-- A running command of the Fabric group (R307). -/
def State.fabWait (s : State) (op : Nat) : Option CmdWait :=
  s.cmd.waits.find? (fun w => match w.kind with | .fabric o _ => o == op | _ => false)
/-- Another command of the Fabric group is running, or the enumeration that start-up has begun (R401). -/
def State.fabBusy (s : State) : Bool :=
  s.fab.enum.isSome || s.cmd.waits.any (fun w => match w.kind with | .fabric _ _ => true | _ => false)
/-- The running Fabric command of an opcode ends. -/
def State.fabEnd (s : State) (op : Nat) (st : CmdStatus) (result : W64) : State :=
  match s.fabWait op with
  | some w => s.finish w st result
  | none => s

/-! FAB_ENUMERATE (R298, R299). -/

/-- The lowest ID that no serial has held under the current key generation; 0xFFF is never given (R299). -/
def Fab.freeId (f : Fab) : Option (BitVec 12) :=
  ((List.range 4094).map (fun i => BitVec.ofNat 12 (i + 1))).find? (fun d => !f.heldIds.any (fun h => h.2 = d))

/-- The entries for a new node: the master's own, and one at every node of the path (R299 step 5). -/
def State.routeWrites (s : State) (id : BitVec 12) (path : List Byte) : List (BitVec 12 × W64) :=
  (List.range path.length).filterMap (fun h =>
    match s.fab.nodes.find? (fun n => n.path = path.take h) with
    | some n => if n.id = id then none else some (n.id, routeEntry (nth path h 0))
    | none => none)

/-- Record a node, and the link that led to it. -/
def State.recordNode (s : State) (n : FabNode) (from_ : BitVec 12) (b : Nat) : State :=
  { s with fab := { s.fab with
      nodes := if s.fab.nodes.any (fun x => x.id = n.id) then s.fab.nodes else s.fab.nodes ++ [n],
      heldIds := if s.fab.heldIds.contains (n.serial, n.id) then s.fab.heldIds else s.fab.heldIds ++ [(n.serial, n.id)],
      links := s.fab.links ++ [(from_, b, n.id)] } }

/-- The next node to visit: ascending ID among those known and not visited. -/
def Fab.nextVisit (f : Fab) (visited : List (BitVec 12)) : Option (BitVec 12) :=
  ((f.nodes.map (fun n => n.id)).filter (fun d => !visited.contains d)).foldl (fun (a : Option (BitVec 12)) d =>
    match a with | none => some d | some x => if d.toNat < x.toNat then some d else some x) none

/-- The next Scezo sub-link of this node in RUN from number `i` on, but for excluded ones. -/
def State.nextRun (s : State) (i : Nat) : Option Nat :=
  (List.range 256).find? (fun k => decide (i ≤ k) && (s.subAt (subOfByte k)).ll = .run && !s.fab.excluded.contains (s.fab.nodeId, k))

/-- Probe the partner on sub-link `k` of the visited node; false where the path is too long or cannot be taken (R299). -/
def State.probe (s : State) (e : EnumSt) (k : Nat) : State × Bool :=
  let p := s.pathTo e.node ++ [BitVec.ofNat 8 k]
  if 63 < p.length then (s, false)
  else (s.modEnum (fun x => { x with idx := k, path := p })).mgmtSend .enumProbe mtEnumProbe (.path p) 0 []

/-- Go on with the enumeration until it waits for an answer or ends (R299). -/
def State.enumStep : Nat → State → State
  | 0, s => s
  | n + 1, s =>
    match s.fab.enum with
    | none => s
    | some e =>
      match e.writes with
      | (d, w) :: rest =>
        let s := s.modEnum (fun x => { x with writes := rest })
        if d = s.fab.nodeId then (s.setRoute e.found.toNat w).enumStep n
        else
          let r := s.mgmtSend .enumRoute mtRouteWrite (.node d) e.found.toNat [w.setWidth 128]
          if r.2 then r.1 else r.1.enumStep n
      | [] =>
        if 256 ≤ e.idx then
          let seen := e.node :: e.visited
          match s.fab.nextVisit seen with
          | some d => (s.modEnum (fun x => { x with node := d, idx := 0, visited := seen })).enumStep n
          | none =>
            ({ s with fab := { s.fab with enum := none } }).fabEnd 0x0601 .ok
              (at64 0 s.fab.nodes.length ||| at64 16 e.newly)
        else if e.node = s.fab.nodeId then
          match s.nextRun e.idx with
          | none => (s.modEnum (fun x => { x with idx := 256 })).enumStep n
          | some k =>
            let d := (s.subAt (subOfByte k)).partner
            if s.fab.nodes.any (fun x => x.id = d) then
              ({ s.modEnum (fun x => { x with idx := k + 1 }) with fab := { (s.modEnum (fun x => { x with idx := k + 1 })).fab with
                  links := s.fab.links ++ [(e.node, k, d)] } }).enumStep n
            else
              let r := s.probe e k
              if r.2 then r.1 else (r.1.modEnum (fun x => { x with idx := k + 1 })).enumStep n
        else if s.fab.excluded.contains (e.node, e.idx) then (s.modEnum (fun x => { x with idx := e.idx + 1 })).enumStep n
        else
          let r := s.mgmtSend .enumLl mtMgmtRd (.node e.node) (mgmtAddr (offPort ⟨e.idx / 4 % 64, Nat.mod_lt _ (by decide)⟩ (0x400 + 0x100 * (e.idx % 4)))) []
          if r.2 then r.1 else (r.1.modEnum (fun x => { x with idx := 256 })).enumStep n

/-- Enough steps for one advance of the enumeration. -/
def State.enumGo (s : State) : State :=
  s.enumStep (4 * s.fab.nodes.length + 2048 + (match s.fab.enum with | some e => e.writes.length | none => 0))

/-- Leave the sub-link in hand and go on. -/
def State.enumSkip (s : State) : State := (s.modEnum (fun x => { x with idx := x.idx + 1 })).enumGo

/-- An answer to the enumeration: status, register value, slot 1 of an ENUM_REPLY. -/
def State.enumAnswer (s : State) (use : MgmtUse) (st : CStatus) (data : W32) (slot : BitVec 128) : State :=
  match s.fab.enum with
  | none => s
  | some e =>
    match use with
    | .enumLl =>
      if st ≠ .ok then (s.modEnum (fun x => { x with idx := 256 })).enumGo
      else if fieldN data 29 3 ≠ 2 then s.enumSkip
      else
        let r := s.mgmtSend .enumSub mtMgmtRd (.node e.node) (mgmtAddr (offPort ⟨e.idx / 4 % 64, Nat.mod_lt _ (by decide)⟩ (0x10 + 4 * (e.idx % 4)))) []
        if r.2 then r.1 else (r.1.modEnum (fun x => { x with idx := 256 })).enumGo
    | .enumSub =>
      if st ≠ .ok then (s.modEnum (fun x => { x with idx := 256 })).enumGo
      else
        let d : BitVec 12 := data.setWidth 12
        if s.fab.nodes.any (fun x => x.id = d) then
          ({ s with fab := { s.fab with links := s.fab.links ++ [(e.node, e.idx, d)] } }).enumSkip
        else
          let r := s.probe e e.idx
          if r.2 then r.1 else r.1.enumSkip
    | .enumProbe =>
      if st ≠ .ok then s.enumSkip
      else if bit slot 83 then
        let s := { s with fab := { s.fab with conflict := true, excluded := s.fab.excluded ++ [(e.node, e.idx)] } }
        (s.log evMasterConflict (detail (e.idx / 4) (e.idx % 4 + 65536 * fieldN slot 84 12)) acLink (s.self agentCC0)).enumSkip
      else
        let serial : W64 := slot.setWidth 64
        let nid : BitVec 12 := slot.extractLsb' 84 12
        let state := fieldN slot 80 3
        if nid ≠ 0xFFF#12 then
          (s.recordNode { id := nid, serial := serial, path := e.path, st := state } e.node e.idx).enumSkip
        else
          match ((s.fab.heldIds.find? (fun h => h.1 = serial)).map (fun h => h.2)).or s.fab.freeId with
          | none => s.enumSkip
          | some id =>
            let r := (s.modEnum (fun x => { x with found := id, serial := serial, st := state })).mgmtSend .enumAssign mtNodeAssign
              (.path e.path) 0 [id.setWidth 128]
            if r.2 then r.1 else r.1.enumSkip
    | .enumAssign =>
      if st ≠ .ok then s.enumSkip
      else
        let w := s.routeWrites e.found e.path
        let s := s.recordNode { id := e.found, serial := e.serial, path := e.path, st := e.st } e.node e.idx
        (s.modEnum (fun x => { x with newly := x.newly + 1, writes := w, idx := x.idx + 1 })).enumGo
    | _ => s.enumGo

/-- Begin an enumeration: the master takes ID 0x000 and visits itself first (R299). -/
def State.startEnum (s : State) : State :=
  let s := { s with fab := { s.fab with
    nodeId := 0, nodes := [{ id := 0, serial := s.serial, path := [], st := stateCode s.boot.phase }],
    links := [], enum := some {} } }
  s.enumGo

/-- FAB_ENUMERATE. -/
def cmdFabEnumerate : CmdFn := fun s =>
  checked [(!s.fabMaster, .notPermitted), (s.fabBusy, .busy)]
    (fun s =>
      let t := s.startEnum
      match t.fab.enum with
      | some _ => (t, .wait (.fabric 0x0601 0))
      | none => t.okay (at64 0 t.fab.nodes.length)) s

def execFabEnumerate (c : CmdCtx) (s : State) : Res := .next (s.command c 0x0601 true cmdFabEnumerate)

/-! ROUTE_SET (R292, R306). -/

/-- The entries of a list of lines. -/
def lineEntries (ls : List (BitVec 512)) (n : Nat) : List W64 :=
  (ls.flatMap (fun l => (List.range 8).map (fun i => l.extractLsb' (64 * i) 64))).take n
/-- An entry has a reserved bit set (R292). -/
def badEntry (e : W64) : Bool := fieldN e 56 6 != 0 || fieldN e 0 40 != 0

/-- Send the next entry of a ROUTE_SET to another node, or end it. -/
def State.routeNext (s : State) : State :=
  match s.fab.routeSet with
  | none => s
  | some r =>
    match r.left with
    | [] => ({ s with fab := { s.fab with routeSet := none } }).fabEnd 0x0602 .ok (res64 r.total)
    | e :: rest =>
      let x := s.mgmtSend .route mtRouteWrite (.node r.node) r.idx [e.setWidth 128]
      if x.2 then { x.1 with fab := { x.1.fab with routeSet := some { r with idx := r.idx + 1, left := rest } } }
      else ({ x.1 with fab := { x.1.fab with routeSet := none } }).fabEnd 0x0602 .pathDown 0

/-- ROUTE_SET. -/
def cmdRouteSet (c : CmdCtx) (node first count : BitVec 16) (src : W64) : CmdFn := fun s =>
  let d : BitVec 12 := node.setWidth 12
  let self := d = s.fab.nodeId
  if decide (4096 ≤ node.toNat) || decide (4096 ≤ first.toNat) || count = 0 || decide (4096 < count.toNat) ||
     decide (4096 < first.toNat + count.toNat) || src.toNat % 64 ≠ 0 then s.refuse .badParam
  else
    let r := s.readLinesNow (s.coreId c) src.toNat acCommand ((count.toNat + 7) / 8)
    let es := lineEntries r.2.2 count.toNat
    let ok := decide (r.2.1 = .ok)
    checked [
      (ok && es.any badEntry, .badParam),
      (!s.fabMaster && !self, .notPermitted),
      (s.fabBusy, .busy),
      (!self && (s.fabNode d).isNone, .pathDown),
      (!ok, CmdStatus.ofCompletion r.2.1)]
      (fun s =>
        if self then
          ((es.zipIdx.foldl (fun (s : State) x => s.setRoute (first.toNat + x.2) x.1) s)).okay (res64 count.toNat)
        else
          let x := s.mgmtSend .route mtRouteWrite (.node d) first.toNat [(nth es 0 0).setWidth 128]
          if x.2 then
            ({ x.1 with fab := { x.1.fab with routeSet := some { node := d, idx := first.toNat + 1, left := es.drop 1, total := count.toNat } } },
              .wait (.fabric 0x0602 d.toNat))
          else x.1.refuse .pathDown) r.1

def execRouteSet (c : CmdCtx) (node first count : BitVec 16) (src : W64) (s : State) : Res :=
  .next (s.command c 0x0602 true (cmdRouteSet c node first count src))

/-! NODE_DETACH (R304). -/

/-- NODE_DETACH: this node detaches itself after its reply; another node is asked to by REMOTE_CMD. -/
def cmdNodeDetach (node : BitVec 16) (action : BitVec 8) : CmdFn := fun s =>
  let d : BitVec 12 := node.setWidth 12
  let self := d = s.fab.nodeId
  checked [
    (decide (4096 ≤ node.toNat) || node = 0 || decide (2 < action.toNat), .badParam),
    (!s.fabMaster && !self, .notPermitted),
    (s.fabBusy || (self && s.fab.detaching), .busy),
    (!self && (s.fabNode d).isNone, .pathDown)]
    (fun s =>
      if self then (s, .thenDetach action.toNat)
      else
        let x := s.mgmtSend .detach mtRemoteCmd (.node d) 0
          (packetSlots 0x0603 [(8, toBytes node 2), (10, [action])])
        if x.2 then (x.1, .wait (.fabric 0x0603 d.toNat)) else x.1.refuse .pathDown) s

def execNodeDetach (c : CmdCtx) (node : BitVec 16) (action : BitVec 8) (s : State) : Res :=
  .next (s.command c 0x0603 true (cmdNodeDetach node action))

/-! TIME_SYNC (R303, R306). -/

/-- TIME_SYNC. -/
def cmdTimeSync (flags : BitVec 8) (period : BitVec 16) (time : W64) : CmdFn := fun s =>
  checked [
    (decide (1 < flags.toNat) || (period ≠ 0 && (decide (period.toNat < 100) || decide (10000 < period.toNat))), .badParam),
    (!s.fabMaster, .notPermitted),
    (s.fabBusy, .busy)]
    (fun s =>
      let s := { s with fab := { s.fab with
        time := if bit flags 0 then time else s.fab.time, period := if period = 0 then s.fab.period else period } }
      s.okay s.fab.time) s

def execTimeSync (c : CmdCtx) (flags : BitVec 8) (period : BitVec 16) (time : W64) (s : State) : Res :=
  .next (s.command c 0x0604 true (cmdTimeSync flags period time))

/-! FW_PUSH (R301). -/

/-- Update the push in progress. -/
def State.modPush (s : State) (f : PushSt → PushSt) : State := { s with fab := { s.fab with push := s.fab.push.map f } }
/-- Rows of an image. -/
def PushSt.rows (p : PushSt) : Nat := (p.size + 1023) / 1024

/-- Send the request of a node's step (R301): the rows go through the port and the Kerb of CC0, as its other row writes do (R234, R239). -/
def State.pushSend (s : State) (p : PushSt) (n : PushNode) : State × Bool :=
  if n.step = 0 then s.mgmtSend (.pushCmd n.node) mtRemoteCmd (.node n.node) 0 (packetSlots 0x0101 [(8, toBytes (BitVec.ofNat 32 p.size) 4)])
  else if n.step ≤ p.rows then
    let i := n.step - 1
    let r := s.readBytesNow (s.self agentCC0) (p.image.toNat + 1024 * i) acCommand (min 1024 (p.size - 1024 * i))
    if r.2.1 ≠ .ok then (r.1, false)
    else
      let tag := r.1.fab.nextTag
      let row := (List.range 16).map (fun k => ofBytes 512 ((r.2.2.drop (64 * k)).take 64))
      let q : Req := { master := r.1.self agentCC0, tag := tag, cls := 15, node := n.node, addr := BitVec.ofNat 40 (1024 * i),
                       kind := .rowWrite row 0, origin := .port (portCore 0) 0 }
      let s := { r.1 with fab := { r.1.fab with nextTag := tag + 1 } }
      ((s.modPush (fun p => { p with running := p.running.map (fun x => if x.node = n.node then { x with tag := tag } else x) })).portIssue
        (portCore 0) q, true)
  else if n.step = p.rows + 1 then s.mgmtSend (.pushCmd n.node) mtRemoteCmd (.node n.node) 0 (packetSlots 0x0103 [])
  else s.mgmtSend (.pushCmd n.node) mtRemoteCmd (.node n.node) 0 (packetSlots 0x0002 [(8, [0])])

/-- Begin pushes to waiting nodes while fewer than 64 run, and end the command when none is left (R301). -/
def State.pushFill : Nat → State → State
  | 0, s => s
  | k + 1, s =>
    match s.fab.push with
    | none => s
    | some p =>
      match p.waiting with
      | d :: rest =>
        if 64 ≤ p.running.length then s
        else
          let r := s.pushSend p { node := d }
          if r.2 then (r.1.modPush (fun p => { p with waiting := rest, running := p.running ++ [{ node := d }] })).pushFill k
          else (r.1.modPush (fun p => { p with waiting := rest, failed := p.failed + 1, lost := true })).pushFill k
      | [] =>
        if p.running.isEmpty then
          ({ s with fab := { s.fab with push := none } }).fabEnd 0x0605 (if p.named && p.lost then .pathDown else .ok)
            (at64 0 p.verified ||| at64 16 p.failed)
        else s
/-- As many steps as there are nodes. -/
def State.pushGo (s : State) : State := s.pushFill (match s.fab.push with | some p => p.waiting.length + 1 | none => 0)

/-- A node's push ends. -/
def State.pushDone (s : State) (d : BitVec 12) (ok lost : Bool) : State :=
  (s.modPush (fun p => { p with
    running := p.running.filter (fun n => n.node != d), verified := p.verified + b2n ok, failed := p.failed + b2n (!ok),
    lost := p.lost || lost })).pushGo

/-- An answer to a push: status of the message, status and result of the command it carried. -/
def State.pushAnswer (s : State) (d : BitVec 12) (cmd : Bool) (st : CStatus) (slot : BitVec 128) : State :=
  match s.fab.push with
  | none => s
  | some p =>
    match p.running.find? (fun n => n.node = d) with
    | none => s
    | some n =>
      if st ≠ .ok then s.pushDone d false (st = .pathDown)
      else if cmd && n.step = p.rows + 2 then
        let state := fieldN slot 64 3
        if fieldN slot 32 8 ≠ 0 || bit slot 67 || state = 0 || state = 4 then s.pushDone d false false
        else if state = 1 then
          let r := s.pushSend p n
          if r.2 then r.1 else r.1.pushDone d false true
        else s.pushDone d true false
      else if cmd && fieldN slot 32 8 ≠ 0 && n.step ≠ p.rows + 1 then s.pushDone d false false
      else
        let n' : PushNode := { n with step := n.step + 1 }
        let r := (s.modPush (fun p => { p with running := p.running.map (fun x => if x.node = d then n' else x) })).pushSend p n'
        if r.2 then r.1 else r.1.pushDone d false true

/-- FW_PUSH. -/
def cmdFwPush (c : CmdCtx) (node : BitVec 16) (image : W64) (size : W32) : CmdFn := fun s =>
  let d : BitVec 12 := node.setWidth 12
  let every := node = 0xFFF#16
  if decide (4096 ≤ node.toNat) || size = 0 || decide (4194304 < size.toNat) || image.toNat % 64 ≠ 0 then s.refuse .badParam
  else
    let r := firstFail [
      (!s.fabMaster, CmdStatus.notPermitted),
      (s.fabBusy, .busy),
      (!every && ((s.fabNode d).isNone || d = s.fab.nodeId), .pathDown)]
    match r with
    | some st => s.refuse st
    | none =>
      let x := s.readBytesNow (s.coreId c) image.toNat acCommand size.toNat
      if x.2.1 ≠ .ok then x.1.refuse (CmdStatus.ofCompletion x.2.1)
      else
        let ds := if every then ((s.fab.nodes.filter (fun n => n.st = 0 && n.id != s.fab.nodeId)).map (fun n => n.id)) else [d]
        let t := ({ x.1 with fab := { x.1.fab with push := some { image := image, size := size.toNat, named := !every, waiting := ds } } }).pushGo
        match t.fab.push, s.fab.push with
        | some _, _ => (t, .wait (.fabric 0x0605 d.toNat))
        | none, _ => if every then t.okay (at64 16 ds.length) else t.refuse .pathDown

def execFwPush (c : CmdCtx) (node : BitVec 16) (image : W64) (size : W32) (s : State) : Res :=
  .next (s.command c 0x0605 true (cmdFwPush c node image size))

/-! FAB_SEAL_INIT (R289, R302). -/

/-- Install a fabric key set: the current one becomes the previous, and the nonce counter restarts (R289). -/
def Fab.install (f : Fab) (k : FabKeys) (gen : W32) : Fab :=
  { f with prev := f.cur, cur := some k, gen := gen, kg := bit gen 0, nonce := 0 }
/-- A key set of its two keys; H_F as R130 derives H. -/
def fabKeys (dk tk : BitVec 256) : FabKeys := { dataKey := dk, tagKey := tk, hashKey := hashKeyOf tk }
/-- Draw a key set from the random bit generator (free values, log entry 4). -/
def State.drawKeys (s : State) : State × FabKeys :=
  let a := Config.random384 s.free
  let b := Config.random384 (s.free + 1)
  (s.bump.bump, fabKeys (a.setWidth 256) (b.setWidth 256))

/-- A blob of R150 with KEK_SEL 0 for a node: its public key and serial, an ephemeral scalar, a load identifier and the
64 bytes to wrap. -/
def wrapBlob (pub : Nat × Nat) (serial : W64) (eph : Nat) (loadId : W32) (plain : List Byte) : Option (List Byte) :=
  match ecMul eph ecG, ecMul eph pub with
  | some e, some z =>
    let kek := (sha384 (beBytes z.1 48 ++ ascii "KALVOR-KEK" ++ toBytes serial 8)).take 32
    some ([1, 0, 0, 0] ++ toBytes loadId 4 ++ beBytes e.1 48 ++ beBytes e.2 48 ++ kwWrap kek plain ++ List.replicate 80 0)
  | _, _ => none

/-- The point of 24 words as KEY.AGREE_PUB shows them (R155). -/
def wordsPoint (ws : List W32) : Nat × Nat :=
  let f := fun (l : List W32) => l.foldl (fun n w => n * 4294967296 + w.toNat) 0
  (f (ws.take 12), f ((ws.drop 12).take 12))

/-- Ask the next waiting node for its state, or end the command (R302 step 3). -/
def State.sealNext : Nat → State → State
  | 0, s => s
  | k + 1, s =>
    match s.fab.sealing with
    | none => s
    | some q =>
      match q.waiting with
      | [] =>
        ({ s with fab := { s.fab with sealing := none } }).fabEnd 0x0606 .ok (at64 0 q.keyed ||| at64 16 (b2n s.fab.kg))
      | d :: rest =>
        let s := { s with fab := { s.fab with sealing := some { q with waiting := rest, node := d, words := [] } } }
        let r := s.mgmtSend .sealState mtMgmtRd (.node d) (mgmtAddr 0x308) []
        if r.2 then r.1 else r.1.sealNext k
/-- As many steps as there are nodes. -/
def State.sealGo (s : State) : State := s.sealNext (match s.fab.sealing with | some q => q.waiting.length + 1 | none => 0)

/-- Read word `i` of KEY.AGREE_PUB of the node in hand. -/
def State.sealWord (s : State) (q : SealSt) (i : Nat) : State :=
  let r := s.mgmtSend .sealWord mtMgmtRd (.node q.node) (mgmtAddr (0x600100 + 4 * i)) []
  if r.2 then r.1 else r.1.sealGo

/-- Send FAB_KEY to the node in hand. -/
def State.sendKey (s : State) (q : SealSt) : State :=
  match s.fab.cur, s.fabNode q.node with
  | some k, some n =>
    let eph := (Config.random384 s.free).toNat % (ecN - 1) + 1
    match wrapBlob (wordsPoint q.words) n.serial eph s.fab.gen (toBytes k.dataKey 32 ++ toBytes k.tagKey 32) with
    | some b =>
      let r := s.bump.mgmtSend .sealKey mtFabKey (.node q.node) 0 ((List.range 16).map (fun i => ofBytes 128 ((b.drop (16 * i)).take 16)))
      if r.2 then r.1 else r.1.sealGo
    | none => s.bump.sealGo
  | _, _ => s.sealGo

/-- An answer to FAB_SEAL_INIT. -/
def State.sealAnswer (s : State) (use : MgmtUse) (st : CStatus) (data : W32) : State :=
  match s.fab.sealing with
  | none => s
  | some q =>
    if st ≠ .ok then s.sealGo
    else match use with
      | .sealState => if fieldN data 29 3 = 3 then s.sealWord q 0 else s.sealGo
      | .sealWord =>
        let q := { q with words := q.words ++ [data] }
        let s := { s with fab := { s.fab with sealing := some q } }
        if q.words.length < 24 then s.sealWord q q.words.length else s.sendKey q
      | _ => ({ s with fab := { s.fab with sealing := some { q with keyed := q.keyed + 1 } } }).sealGo

/-- FAB_SEAL_INIT. -/
def cmdFabSealInit : CmdFn := fun s =>
  checked [(!s.fabMaster, .notPermitted), (s.fabBusy, .busy)]
    (fun s =>
      let x := s.drawKeys
      let s := { x.1 with fab := x.1.fab.install x.2 (x.1.fab.gen + 1) }
      let ids := (s.fab.nodes.map (fun n => n.id)).filter (fun d => d != s.fab.nodeId)
      let s := { s with fab := { s.fab with
        heldIds := s.fab.heldIds.filter (fun h => s.fab.nodes.any (fun n => n.id = h.2)), sealing := some { waiting := ids } } }
      let t := s.sealGo
      match t.fab.sealing with
      | some _ => (t, .wait (.fabric 0x0606 0))
      | none => t.okay (at64 16 (b2n t.fab.kg))) s

def execFabSealInit (c : CmdCtx) (s : State) : Res := .next (s.command c 0x0606 true cmdFabSealInit)

/-! Answers (R287, R295). -/

/-- An answer to a request of this node's cores: status, DATA of a MGMT_CMP, slot 1 of a reply. -/
def State.mgmtDone (s : State) (q : MgmtReq) (st : CStatus) (data : W32) (slot : BitVec 128) : State :=
  let s := { s with fab := { s.fab with mgmt := s.fab.mgmt.erase q } }
  match q.use with
  | .enumLl | .enumSub | .enumProbe | .enumAssign | .enumRoute => s.enumAnswer q.use st data slot
  | .route =>
    if st = .ok then s.routeNext
    else ({ s with fab := { s.fab with routeSet := none } }).fabEnd 0x0602 (CmdStatus.ofCompletion st) 0
  | .detach =>
    let code := fieldN slot 32 8
    s.fabEnd 0x0603 (if st ≠ .ok then CmdStatus.ofCompletion st
      else if code = 0 then .ok
      else match [CmdStatus.busy, .badParam, .notPermitted, .pathDown].find? (fun x => x.code == code) with
        | some x => x
        | none => .internal) 0
  | .pushCmd d => s.pushAnswer d true st slot
  | .sealState | .sealWord | .sealKey => s.sealAnswer q.use st data

/-- A completion or answer message at this node: back to the sub-link its request came from, or to the master here that
waits for it (R295). -/
def State.returnMsg (s : State) (m : Msg) : State :=
  match s.transitOf (hMaster m.hdr) (hTag m.hdr) with
  | none => s.lateCmp
  | some t =>
    match t.orphan, t.ingress, s.fab.mgmt.find? (fun q => q.tag = hTag m.hdr) with
    | false, none, some q =>
      if (MasterId.agent (hMaster m.hdr)).toNat = agentCC0 then
        (s.dropTransit t).mgmtDone q (CStatus.ofCode (hStatus m.hdr)) (m.hdr.extractLsb' 96 32) (nth m.slots 0 0)
      else s.retrace m
    | _, _, _ => s.retrace m

/-! Completions at their port (R234, R235). -/

/-- Answers to the row writes of FW_PUSH that CC0's port has delivered go to the push (R301). -/
def State.pushRows (s : State) : State :=
  let mine := fun (c : Completion) (n : PushNode) =>
    s.isPush c.req && c.req.node == n.node && c.req.tag == n.tag && n.step != 0
  match s.fab.push with
  | none => s
  | some p =>
    match (s.mports[portCore 0].delivered).find? (fun c => p.running.any (mine c)) with
    | none => s
    | some c => (s.modMport (portCore 0) (fun p => { p with delivered := p.delivered.erase c })).pushAnswer c.req.node false c.status 0

/-- COMPLETION_RETURN (R234, R235): the oldest completion on its way to the port reaches it, once it is past its hops. -/
def execCompletionReturn (port : Fin 140) (s : State) : Res :=
  match s.advance.mports[port].inflight with
  | [] => .next s.advance
  | x :: rest => if x.todo.isEmpty then .next (s.advance.returnOne port x rest).pushRows else .next s.advance

end Sys2Proof.Machine
end

