-- ==== Sys2Proof/Machine/Fuse.lean ====
section
/-! DEFINITION. Fuse sensing, the fuse commands, the parity check of the shadows and the FUSE registers
(16_fuse_array, R410-R428). -/

namespace Sys2Proof.Machine

/-! Sensing (R410, R411). -/

/-- What sensing loads: words not listed read as they stand at both margins. -/
def State.loadShadows (s : State) (reads : List FuseSense) : State :=
  let rs := reads.filter (fun r => decide (r.word < 2048))
  let mg := (rs.filter (fun r => r.low != r.high)).map (fun r => r.word)
  { s with fuse := { s.fuse with
      sensed := true, shadow := rs.foldl (fun m r => smPut m r.word r.low) [],
      marginal := (List.range 2048).filter (fun w => mg.contains w), parityBad := [], parityRegions := 0,
      alarm := !mg.isEmpty, progLast := 0 } }

/-- Log a fuse event with its DETAIL (R436). -/
def State.fuseLog (s : State) (id unit info : Nat) : State := s.log id (detail unit info) acFuse (s.self agentFuse)

/-- The check words of every region that is locked or Yelrak's (R411). -/
def State.crcBadNow (s : State) : BitVec 8 :=
  (List.range 7).foldl (fun (v : BitVec 8) r =>
    setBit v r ((r = 0 || r = 1 || r = 2 || r = 4 || s.regionLocked r) &&
      s.shadowWord (regionLast r) != regionCrc s.shadowWord r)) 0

/-- FUSE_SENSING (R410, R411). -/
def execFuseSensing (reads : List FuseSense) (s : State) : Res :=
  if s.boot.phase ≠ .strapped then .next s
  else
    let s := s.loadShadows reads
    let s := match s.fuse.marginal with
      | [] => s
      | w :: _ => s.fuseLog evFuseAlarm 0 w
    let bad := s.crcBadNow
    let s := { s with fuse := { s.fuse with crcBad := bad }, boot := { s.boot with phase := .sensed } }
    .next ((List.range 8).foldl (fun s r => if bit bad r then s.fuseLog evFuseCrc r 0 else s) s)

/-! Shadow parity (R412). -/

/-- A shadow fails parity: FUSE_PARITY once per word. -/
def State.parityFails (s : State) (w : Nat) : State :=
  if 2048 ≤ w || s.fuse.parityBad.contains w || !s.fuse.sensed then s
  else
    let s := { s with fuse := { s.fuse with parityBad := w :: s.fuse.parityBad, parityRegions := setBit s.fuse.parityRegions (regionOf w) true } }
    s.fuseLog evFuseParity 0 w

/-- SHADOW_PARITY_CHECK (R412): the words that fail. -/
def execShadowParityCheck (bad : List Nat) (s : State) : Res := .next (bad.foldl State.parityFails s)

/-! Programming (R416, R417). -/

/-- The base die is above 85 °C (R417, R452, R454). -/
def State.baseDieHot (s : State) : Bool := s.thm.dies[32].a85

/-- The outcome of programming a word: last normal reading, marginal, retries, passed. -/
structure ProgOut where
  read : W32
  marginal : Bool
  retries : Nat
  ok : Bool
deriving DecidableEq, Repr

/-- Attempts and retries (R416): readings at the two margins after each attempt; an attempt not listed reads the target. -/
def progAttempts (target : W32) (attempts : List (W32 × W32)) : ProgOut :=
  let a := fun i => nth attempts i (target, target)
  match (List.range 9).find? (fun i => (a i).1 == target && (a i).2 == target) with
  | some i => { read := target, marginal := false, retries := i, ok := true }
  | none => { read := (a 8).1, marginal := (a 8).1 != (a 8).2, retries := 8, ok := false }

/-- Program a word: fuses, shadow and marginal mark as the last attempt leaves them (R416). No event falls between the pulses of a command,
so a power failure during one (R418) is left out (DESIGN CHOICE, log entry 111). -/
def State.progWord (s : State) (w : Nat) (target : W32) (attempts : List (W32 × W32)) : State × ProgOut :=
  let o := progAttempts target attempts
  let mg := s.fuse.marginal.filter (fun x => x != w)
  ({ s with fuse := { s.fuse with
      blown := smPut s.fuse.blown w o.read, shadow := smPut s.fuse.shadow w o.read,
      parityBad := s.fuse.parityBad.filter (fun x => x != w),
      marginal := if o.marginal then (List.range 2048).filter (fun x => x == w || mg.contains x) else mg } }, o)

/-- The outcome in FUSE.PROG_LAST (R416, R428). -/
def State.noteProg (s : State) (w : Nat) (st : CmdStatus) (o : Option ProgOut) : State :=
  let v : W32 := at32 24 st.code ||| at32 20 ((o.map (fun x => x.retries)).getD 0) |||
    at32 19 (b2n ((o.map (fun x => x.marginal)).getD false)) ||| at32 0 (w % 2048)
  { s with fuse := { s.fuse with progLast := v } }

/-- End a fuse command with a refusal, noted in PROG_LAST (log entry 30). -/
def State.fuseRefuse (s : State) (w : Nat) (st : CmdStatus) : State × CmdOut := ((s.noteProg w st none), .done st 0)

/-- FUSE_PROGRAM_WORD (R416, R417). -/
def cmdFuseProgramWord (word : BitVec 16) (value : W32) (attempts : List (W32 × W32)) : CmdFn := fun s =>
  let w := word.toNat
  let r := regionOf w
  let secret := r = 4 || r = 5
  let old := s.shadowWord w
  match firstFail [
    (decide (2047 < w), .badParam),
    (s.baseDieHot, .busy),
    (r = 7, .notPermitted),
    (w = 863 || (s.regionLocked r && w ≠ 832), .locked),
    (!secret && old &&& ~~~value ≠ 0, .badParam),
    (w = 832 && !((List.range 4).any (fun i => s.digestProgrammed i && !revokedBy value i)), .notPermitted)] with
  | some st => s.fuseRefuse w st
  | none =>
    let p := s.progWord w (if secret then old ||| value else value) attempts
    let st : CmdStatus := if p.2.ok then .ok else .fuseVerifyFail
    let s := p.1.noteProg w st (some p.2)
    let s := if p.2.ok then s else s.fuseLog evFuseProgFail 0 w
    (s, .done st (at64 0 (if secret then 0 else p.2.read.toNat) ||| at64 32 p.2.retries ||| at64 36 (b2n p.2.marginal)))

def execFuseProgramWord (c : CmdCtx) (word : BitVec 16) (value : W32) (attempts : List (W32 × W32)) (s : State) : Res :=
  .next (s.command c 0x0701 true (cmdFuseProgramWord word value attempts))

/-- The check of FUSE_LOCK_REGION over a region (R421). -/
def State.lockCheckFails (s : State) (r : Nat) : Bool :=
  s.shadowWord (regionLast r) != regionCrc s.shadowWord r || s.regionMarginal r || s.fuse.parityBad.any (fun w => regionOf w == r)

/-- FUSE_LOCK_REGION (R421). -/
def cmdFuseLockRegion (region : BitVec 8) (attemptsA attemptsB : List (W32 × W32)) : CmdFn := fun s =>
  let r := region.toNat
  let w := 960 + r
  if 7 ≤ r then s.fuseRefuse 0 .badParam
  else if s.baseDieHot then s.fuseRefuse w .busy
  else if s.regionLocked r then
    let s := s.noteProg w .ok none
    s.okay (at64 0 (b2n (s.lockFuses r).1) ||| at64 1 (b2n (s.lockFuses r).2))
  else if s.lockCheckFails r then s.fuseRefuse w .lockCheckFail
  else
    let a := s.progWord w (s.shadowWord w ||| 0x1#32) attemptsA
    let b := a.1.progWord w (a.1.shadowWord w ||| 0x10000#32) attemptsB
    -- a lock fuse holds where the last attempt for it read it at both margins
    let heldA := a.2.ok || (bit a.2.read 0 && !a.2.marginal)
    let heldB := b.2.ok || (bit b.2.read 16 && !b.2.marginal)
    let st : CmdStatus := if heldA || heldB then .ok else .fuseVerifyFail
    ((b.1.noteProg w st (some b.2)), .done st (at64 0 (b2n heldA) ||| at64 1 (b2n heldB)))

def execFuseLockRegion (c : CmdCtx) (region : BitVec 8) (attemptsA attemptsB : List (W32 × W32)) (s : State) : Res :=
  .next (s.command c 0x0702 true (cmdFuseLockRegion region attemptsA attemptsB))

/-- FUSE_READ_SHADOW (R427). -/
def cmdFuseReadShadow (word : BitVec 16) : CmdFn := fun s =>
  let w := word.toNat
  checked [
    (decide (2047 < w), .badParam),
    (regionOf w = 4 || regionOf w = 5, .notPermitted),
    (s.fuse.parityBad.contains w, .internal)]
    (fun s => s.okay (at64 0 (s.shadowWord w).toNat ||| at64 32 (b2n (s.fuseMarginal w)) ||| at64 33 (b2n (s.regionLocked (regionOf w))))) s

def execFuseReadShadow (c : CmdCtx) (word : BitVec 16) (s : State) : Res := .next (s.command c 0x0703 true (cmdFuseReadShadow word))

/-! The FUSE registers (R428). -/

/-- Read of a FUSE register; all are read-only. -/
def State.fuseRead (s : State) (o : Nat) : W32 :=
  if o < 0x2000 then
    let w := o / 4
    if regionOf w = 4 || regionOf w = 5 || s.fuse.parityBad.contains w then 0 else s.shadowWord w
  else if o = 0x2000 then
    at32 31 (b2n s.fuse.sensed) ||| at32 30 (b2n s.fuse.alarm) |||
    at32 16 ((List.range 8).foldl (fun n r => n + (if s.regionMarginal r then 2 ^ r else 0)) 0) |||
    at32 8 s.fuse.crcBad.toNat ||| at32 0 s.fuse.parityRegions.toNat
  else if o = 0x2004 then
    (List.range 7).foldl (fun (v : W32) r =>
      v ||| at32 (16 + r) (b2n (s.regionLocked r)) ||| at32 (2 * r) (b2n (s.lockFuses r).1) ||| at32 (2 * r + 1) (b2n (s.lockFuses r).2)) 0
  else if o = 0x2008 then s.fuse.progLast
  else if 0x2100 ≤ o && o < 0x2200 then
    (List.range 32).foldl (fun (v : W32) j => setBit v j (s.marginalShown (32 * ((o - 0x2100) / 4) + j))) 0
  else 0

end Sys2Proof.Machine
end

