-- ==== Sys2Proof/Machine/Lanes.lean ====
section
/-! DEFINITION. The serial lanes: modes, training, detectors, recovery, margining, and what a lost link brings about
(10_serial_lanes, R254-R273; R295, R304, R305 of 11_scezo_fabric). -/

namespace Sys2Proof.Machine

/-! Modes and widths (R254, R267). -/

/-- Lanes of a sub-link in a mode, numbered as in `TrainRes`: those of a PAIRED port belong to the port before it (R254). -/
def modeLanes (mode : Nat) (sub : Nat) : BitVec 16 :=
  match mode with
  | 1 => if sub = 0 then 0xFF#16 else 0
  | 2 => if sub < 2 then 0x0F#16 <<< (4 * sub) else 0
  | 3 => 0x03#16 <<< (2 * sub)
  | 4 => if sub = 0 then 0xFFFF#16 else 0
  | 6 => if sub = 0 then 0xFF#16 else 0
  | _ => 0
/-- A Scezo mode (R254). -/
def scezoMode (mode : Nat) : Bool := 1 ≤ mode && mode ≤ 3
/-- A mode in which P(8k) carries a host port (R254). -/
def cxlMode (mode : Nat) : Bool := mode == 4 || mode == 6
/-- The narrower groups of a set of lanes, in the order of R267. -/
def laneGroups (m : BitVec 16) : List (BitVec 16) :=
  [0x0F#16, 0xF0#16, 0x03#16, 0x0C#16, 0x30#16, 0xC0#16].filter (fun g => g &&& m == g && g != m)
/-- The lowest-numbered group in which every lane locked. -/
def bestGroup (target locked : BitVec 16) : Option (BitVec 16) := (laneGroups target).find? (fun g => g &&& locked == g)
/-- The widest group to which a host link trains, x16 to x1, from lane 0 or, its lanes reversed, from the top lane (R310; the rules of
PCIe are PRESUMED, log entry 97). -/
def hostGroup (target locked : BitVec 16) : Option (BitVec 16) :=
  let n := laneCount target
  ([16, 8, 4, 2, 1].filter (fun w => decide (w ≤ n))).findSome? (fun w =>
    [BitVec.ofNat 16 (2 ^ w - 1), BitVec.ofNat 16 (2 ^ w - 1) <<< (n - w)].find? (fun g => g &&& locked == g))
/-- Lanes that locked with a skew that the receiver absorbs, 20 ns at most (R260). -/
def trainGood (r : TrainRes) : BitVec 16 :=
  (List.range 16).foldl (fun m i => if decide (80 < (nth r.skew i 0).toNat) then setBit m i false else m) r.locked
/-- The worst skew among lanes (R260). -/
def trainWorst (r : TrainRes) (m : BitVec 16) : BitVec 8 :=
  BitVec.ofNat 8 ((laneList m).foldl (fun w i => max w (nth r.skew i 0).toNat) 0)
/-- The highest rate of a mode that both ends allow (R257). -/
def rateFor (mode limit : Nat) : Nat :=
  if cxlMode mode then (if limit = 3 then 2 else if limit = 5 then 4 else limit) else limit

/-- The sub-link of a port that a lane belongs to. -/
def State.subOfLane (s : State) (p : Fin 64) (lane : Fin 8) : Option SubLink :=
  ((fins 4).find? (fun i => bit (modeLanes s.ports[p].mode i.val) lane.val)).map (fun i => { port := p, sub := i })

/-! Lost links (R266, R295, R304 step 6, R305). -/

/-- Complete with PATH_DOWN a request that had left by a lost sub-link (R33, R295). -/
def State.synthesise (s : State) (t : Transit) : State :=
  let s := { s.dropTransit t with glb := { s.glb with synthCmp := satAdd s.glb.synthCmp 1 } }
  if t.orphan then s.lateCmp
  else match t.ingress with
    | some i => s.sendBack i (s.answerMsg t.hdr .pathDown)
    | none =>
      match s.fab.mgmt.find? (fun q => q.tag = t.tag && (MasterId.agent t.master).toNat = agentCC0) with
      | some q => s.mgmtDone q .pathDown 0 0
      | none =>
        match s.outstPort t.master t.tag with
        | some (j, o) => s.giveCmp j .plaza { req := o.req, status := .pathDown, synthesised := true }
        | none => s

/-- Every entry whose egress is the lost sub-link completes, and every entry whose ingress it is becomes an orphan (R295). -/
def State.loseLink (s : State) (l : SubLink) : State :=
  let s := { s with fab := { s.fab with transit := s.fab.transit.map (fun (t : Transit) => if t.ingress = some l then { t with orphan := true } else t) } }
  (s.fab.transit.filter (fun (t : Transit) => t.egress = some l)).foldl State.synthesise s

/-- A link-port Kerb lifts its limits while its port carries nothing (R227). -/
def State.liftKerb (s : State) (p : Fin 64) : State :=
  let down := s.ports[p].subs.toList.all (fun u => u.ll == .down)
  s.modKerb (portLink p) (fun k => { k with lifted := down })

/-- A sub-link as DOWN leaves it: nothing sent or partly received remains; credits and sequence wait for the next
initialisation (R304, R305). -/
def Sub.lost (u : Sub) : Sub :=
  { u with
    lstate := .down, rate := 0, lanes := 0, reversed := false, failed := 0, full := false, narrow := false, bad := 0,
    rateDone := false, quietRx := false, quietTx := false, ll := .down, detachRx := false, detachTx := false, nakTx := false,
    nakRx := false, rsyncTx := false, rsyncRx := false, rdoneTx := false, rdoneRx := false, auditDue := false,
    partialRx := [], rx := [], tx := [] }

/-- Completions that a lost link still held (R248). -/
def Sub.heldCmps (u : Sub) : Nat := countIf u.tx (fun m => isCmpTy (hTy m.hdr))

/-- A Scezo sub-link that was up goes DOWN (R266): its epoch increments, an unclean loss logs LINK_DOWN, and R295 applies. -/
def State.linkDown (s : State) (l : SubLink) (orderly : Bool) : State :=
  let u := s.subAt l
  match u.lstate with
  | .active | .recovery | .quiet =>
    let s := s.bumpLinkEpoch l
    let s := s.modPort l.port (fun p => if orderly then { p with downsOrd := satAdd p.downsOrd 1 } else { p with downsUnc := satAdd p.downsUnc 1 })
    let width := if u.lstate = .recovery then u.before else u.lanes
    let s := if orderly then s else s.log (evLinkDown l.port.val) (detail l.port.val (l.sub.val + 256 * laneCount width)) acLink
    let s := { s with glb := { s.glb with lateCmp := satAdd s.glb.lateCmp u.heldCmps } }
    ((s.modSub l Sub.lost).loseLink l).liftKerb l.port
  | _ => s.modSub l Sub.lost

/-- SUBLINK_DOWN (R295, R304 step 6, R305): the sub-link goes DOWN after QUIET, or uncleanly. -/
def execSublinkDown (l : SubLink) (orderly : Bool) (s : State) : Res := .next (s.linkDown l orderly)

/-! Orderly stops. -/

/-- Send a QUIET marker on every ACTIVE Scezo sub-link of the ports chosen, and take them DOWN (R255, R268, R304). -/
def State.quietLinks (s : State) (ports : Fin 64 → Bool) : State :=
  (allSubs.filter (fun l => ports l.port && scezoMode s.ports[l.port].mode)).foldl (fun s l =>
    match (s.subAt l).lstate with
    | .active | .recovery => (s.sendMarker l true false).linkDown l true
    | .quiet => s.linkDown l true
    | _ => s.modSub l Sub.lost) s

/-! Recovery (R266-R268). -/

/-- Lanes whose margining a recovery aborts (R270). -/
def Lane.abort (x : Lane) : Lane := if x.result = 1 then { x with result := 3, margin := setBit x.margin 31 false } else x
/-- Abort margining on lanes of a port. -/
def Port.abortMargin (p : Port) (m : BitVec 16) : Port :=
  { p with lane := Vector.ofFn (fun i : Fin 8 => if bit m i.val then (p.lane[i]).abort else p.lane[i]) }

/-- Count an attempt that begins (R273). -/
def Port.countAttempt (p : Port) (full : Bool) : Port :=
  if full then { p with retrFull := satAdd p.retrFull 1 } else { p with retrQuick := satAdd p.retrQuick 1 }

/-- An ACTIVE Scezo sub-link enters RECOVERY (R266): at full width where forced, else at its present width. -/
def State.enterRecovery (s : State) (l : SubLink) (full : Bool) : State :=
  let u := s.subAt l
  if u.lstate ≠ .active || !scezoMode s.ports[l.port].mode then s
  else
    let target := if full then modeLanes s.ports[l.port].mode l.sub.val else u.lanes
    let s := s.modSub l (fun u => { u with
      lstate := .recovery, failed := 0, full := false, narrow := false, bad := 0, before := u.lanes, target := target })
    let s := (s.bumpLinkEpoch l).log (evLaneRetrain l.port.val) (detail l.port.val (l.sub.val + 256 * laneCount u.lanes)) acLink
    (s.modPort l.port (fun p => (p.abortMargin u.lanes).countAttempt false)).sendMarker l false true

/-- RECOVERY_ENTER (R266). -/
def execRecoveryEnter (l : SubLink) (full : Bool) (s : State) : Res := .next (s.enterRecovery l full)

/-- Store what equalisation agreed on, for the lanes trained; the port's lane 0 is lane `base` of the result (R263, R273). -/
def Port.storeEq (p : Port) (base : Nat) (m : BitVec 16) (r : TrainRes) : Port :=
  { p with lane := Vector.ofFn (fun i : Fin 8 =>
      let n := base + i.val
      if bit m n then { p.lane[i] with rxEq := nth r.rxEq n (p.lane[i]).rxEq, txEq := nth r.txEq n (p.lane[i]).txEq } else p.lane[i]) }
/-- The port after another: P(8k+1) for P(8k). -/
def pairOf (p : Fin 64) : Fin 64 := ⟨(p.val + 1) % 64, Nat.mod_lt _ (by decide)⟩
/-- Store it in the port, and in the port paired with it (R254). -/
def State.storeEq (s : State) (p : Fin 64) (m : BitVec 16) (r : TrainRes) : State :=
  let s := s.modPort p (fun x => x.storeEq 0 m r)
  if s.ports[p].mode = 4 then s.modPort (pairOf p) (fun x => x.storeEq 8 m r) else s
/-- Store the worst skew of a sub-link (R260). -/
def Port.storeSkew (p : Port) (sub : Nat) (v : BitVec 8) : Port :=
  { p with skew := (p.skew &&& ~~~(0xFF#32 <<< (8 * sub))) ||| (v.setWidth 32 <<< (8 * sub)) }

/-- Log LINK_DEGRADED where ACTIVE is reached at a narrower width than before (R267). -/
def State.logDegraded (s : State) (l : SubLink) (before now : BitVec 16) : State :=
  if laneCount now < laneCount before then
    s.log (evLinkDegraded l.port.val) (detail l.port.val (l.sub.val + 256 * laneCount before)) acLink
  else s

/-- The next attempt after one that failed (R267). -/
def Sub.nextAttempt (u : Sub) (locked : BitVec 16) (degrade : Bool) : Sub :=
  let again : Sub := { u with full := true, bad := 0 }
  if locked = 0 || (u.narrow && !u.full) || !degrade then again
  else match bestGroup u.target locked with
    | some g => { u with target := g, narrow := true, bad := 0 }
    | none => again

/-- RECOVERY_ATTEMPT_END (R266, R267). -/
def execRecoveryAttemptEnd (l : SubLink) (result : TrainRes) (degradeBoth : Bool) (s : State) : Res :=
  let u := s.subAt l
  if u.lstate ≠ .recovery then .next s
  else
    let locked := trainGood result &&& u.target &&& ~~~u.bad
    if locked = u.target then
      let s := s.modSub l (fun u => { u with
        lstate := .active, lanes := u.target, failed := 0, full := false, narrow := false, bad := 0, partner := result.partner, sym := 0,
        rate := if u.full then BitVec.ofNat 3 (min result.rate.val s.ports[l.port].maxRate) else u.rate })
      let s := (if u.full then s.storeEq l.port u.target result else s).modPort l.port (fun p => p.storeSkew l.sub.val (trainWorst result u.target))
      .next ((s.logDegraded l u.before u.target).pumpAll l)
    else if 2 ≤ u.failed then .next (s.linkDown l false)
    else
      let n := u.nextAttempt locked (degradeBoth && s.ports[l.port].degradeEn)
      let s := s.modSub l (fun _ => { n with failed := u.failed + 1 })
      .next (s.modPort l.port (fun p => p.countAttempt n.full))

/-! Training (R262-R264, R280). -/

/-- The INIT slot (R280). -/
def State.initSlot (s : State) (l : SubLink) : BitVec 128 :=
  let u := s.subAt l
  let adv := fun (v : Fin 4) => (advertised v).setWidth 128
  (s.fab.nodeId.setWidth 128) ||| (BitVec.ofNat 128 l.port.val <<< 12) ||| (BitVec.ofNat 128 l.sub.val <<< 18) |||
    (BitVec.ofNat 128 (b2n u.peerSeen) <<< 20) ||| (adv 0 <<< 32) ||| (adv 1 <<< 48) ||| (adv 2 <<< 64) ||| (adv 3 <<< 80)
/-- Send an INIT flit (R280). -/
def State.sendInit (s : State) (l : SubLink) : State :=
  let u := s.subAt l
  (s.sendFlit l (flitBits 2 0 u.linkWord [s.initSlot l] false)).modSub l (fun u => { u with sentSeen := u.sentSeen || u.peerSeen })

/-- A link begins to initialise when its sub-link reaches ACTIVE by training (R280). -/
def State.linkInit (s : State) (l : SubLink) : State :=
  let s := s.bumpLinkEpoch l
  (s.modSub l (fun u => { u with
    ll := .init, nextSeq := 0, acked := 0xFFF#12, rxSeq := 0, rxAny := false, nakTx := false, nakRx := false, rsyncTx := false,
    rsyncRx := false, rdoneTx := false, rdoneRx := false, peerSeen := false, peerSaw := false, sentSeen := false,
    detachRx := false, detachTx := false, replayBuf := [], sinceAudit := 0, flits := 0, episodes := [], lastReplay := none,
    sameReplay := 0, auditDue := false, partialRx := [], rx := [], tx := [], vc := Vector.replicate 4 {} })).sendInit l

/-- The host port that a sub-link carries: sub-link 0 of P(8k) in a CXL mode (R254). -/
def State.hostOfSub (s : State) (l : SubLink) : Option (Fin 8) :=
  if cxlMode s.ports[l.port].mode && l.sub = 0 && l.port.val % 8 = 0 then some ⟨l.port.val / 8 % 8, Nat.mod_lt _ (by decide)⟩ else none

/-- A sub-link reaches ACTIVE by training: a Scezo link initialises, a host link is in L0 (R262, R333). -/
def State.trained (s : State) (l : SubLink) (result : TrainRes) : State :=
  let u := s.subAt l
  let before := u.before
  let s := s.modSub l (fun u => { u with lstate := .active, lanes := u.target, before := u.target, bad := 0, rateDone := false, sym := 0 })
  let s := (s.storeEq l.port u.target result).modPort l.port (fun p => p.storeSkew l.sub.val (trainWorst result u.target))
  match s.hostOfSub l with
  | some h =>
    ((s.modSub l (fun u => { u with partner := 0 })).modKerb (portHost h) (fun k => { k with lifted := false })).modHost h (fun x => { x with
      linkUp := true, accepting := true, width := BitVec.ofNat 5 (laneCount u.target), rate := (s.subAt l).rate, linkGen := x.linkGen + 1 })
  | none => (s.logDegraded l before u.target).linkInit l

/-- A training attempt fails and detection starts again (R264). -/
def State.trainFail (s : State) (l : SubLink) : State :=
  s.modSub l (fun u => { u with lstate := .detect, lanes := 0, rate := 0, rateDone := false, bad := 0 })

/-- The sub-link exists and may train: its port is ON in a mode with links, and no host reset holds it (R255, R329). -/
def State.mayTrain (s : State) (l : SubLink) : Bool :=
  let p := s.ports[l.port]
  p.fn.st = .on && p.fn.deferred ≠ some false && modeLanes p.mode l.sub.val != 0 &&
  !s.tap.instr.takesLanes &&
  (match s.hostOfSub l with
   | some h => !(s.hosts[h]).perst && !(s.hosts[h]).hotReset && !(s.hosts[h]).linkDisabled
   | none => true)

/-- DETECT_TIMER (R262): a DOWN or DETECT sub-link of an ON port tries receiver detection. -/
def execDetectTimer (l : SubLink) (found : Bool) (s : State) : Res :=
  let u := s.subAt l
  if s.mayTrain l && (u.lstate = .down || u.lstate = .detect) then
    .next (s.modSub l (fun u => { u with
      lstate := if found then .poll else .detect, target := modeLanes s.ports[l.port].mode l.sub.val, rateDone := false, bad := 0,
      quietRx := false, quietTx := false }))
  else .next s

/-- TRAINING_STAGE_END (R262-R264): POLL, CONFIG, the rate change or EQ ends. -/
def execTrainingStageEnd (l : SubLink) (result : TrainRes) (s : State) : Res :=
  let u := s.subAt l
  let p := s.ports[l.port]
  if !s.mayTrain l then .next s
  else match u.lstate with
  | .poll =>
    let locked := trainGood result &&& u.target
    if locked = u.target then .next (s.modSub l (fun u => { u with lstate := .config }))
    else match (if cxlMode p.mode then hostGroup u.target locked else if p.degradeEn then bestGroup u.target locked else none) with
      | some g => .next (s.modSub l (fun u => { u with lstate := .config, target := g }))
      | none => .next (s.trainFail l)
  | .config =>
    if result.reversed && !p.reversalEn then .next (s.trainFail l)
    else .next (s.modSub l (fun u => { u with lstate := .eq, reversed := result.reversed, partner := result.partner, rateDone := false, bad := 0 }))
  | .eq =>
    if !u.rateDone then
      let rate := rateFor p.mode (min result.rate.val p.maxRate)
      let s := s.modSub l (fun u => { u with rateDone := true, rate := BitVec.ofNat 3 rate })
      .next (if rate = 0 then s.trained l result else s)
    else if trainGood result &&& u.target &&& ~~~u.bad = u.target then .next (s.trained l result)
    else .next (s.trainFail l)
  | _ => .next s

/-- TRAINING_TIMEOUT (R264). -/
def execTrainingTimeout (l : SubLink) (s : State) : Res :=
  match (s.subAt l).lstate with
  | .poll | .config | .eq => .next (s.trainFail l)
  | _ => .next s

/-! Markers received and detectors (R259, R265, R266, R268). -/

/-- SYNC and CRC of a marker (R259). -/
def markerOk (m : BitVec 128) : Bool :=
  let b := toBytes m 16
  b.take 4 == [0x1E#8, 0xC5#8, 0x69#8, 0xB2#8] && crc16 ((b.drop 4).take 10) == m.extractLsb' 112 16

/-- ALIGNMENT_MARKER (R259, R266). -/
def execAlignmentMarker (l : SubLink) (lane : Fin 8) (marker : BitVec 128) (s : State) : Res :=
  if !markerOk marker then
    .next (s.modPort l.port (fun p => { p with lane := vmod p.lane lane (fun x => { x with amErr := satAdd x.amErr 1 }) }))
  else
    let s := s.modSub l (fun u => { u with partner := marker.extractLsb' 48 12 })
    let s := if bit marker 80 then
        (s.modSub l (fun u => { u with quietRx := true })).modPort l.port (fun p => { p with quietSeen := true })
      else s
    .next (if bit marker 81 then s.enterRecovery l false else s)

/-- The port no longer looks at the detectors of a sub-link: in STOPPING, after its QUIET marker (R268). -/
def State.deaf (s : State) (l : SubLink) : Bool := s.ports[l.port].fn.st = .stopping && (s.subAt l).quietTx

/-- What a detector that fires on a lane brings about (R266, R268). -/
def State.detectorFires (s : State) (p : Fin 64) (lane : Fin 8) (los : Bool) : State :=
  match s.subOfLane p lane with
  | none => s
  | some l =>
    let u := s.subAt l
    if s.deaf l || !scezoMode s.ports[p].mode then s
    else match u.lstate with
      | .active =>
        if !bit u.lanes lane.val then s
        else if los && u.quietRx then s.modSub l (fun u => { u with lstate := .quiet })
        else s.enterRecovery l false
      | .recovery =>
        if los && u.quietRx then s.modSub l (fun u => { u with lstate := .quiet })
        else s.modSub l (fun u => { u with bad := setBit u.bad lane.val true })
      | .eq => s.modSub l (fun u => { u with bad := setBit u.bad lane.val true })
      | _ => s

/-- LOS asserts or clears on a lane. -/
def State.setLos (s : State) (port : Fin 64) (lane : Fin 8) (on : Bool) : State :=
  let s := s.modPort port (fun p => { p with los := setBit p.los lane.val on, losSeen := if on then setBit p.losSeen lane.val true else p.losSeen })
  if on then s.detectorFires port lane true else s
/-- LOL asserts or clears on a lane. -/
def State.setLol (s : State) (port : Fin 64) (lane : Fin 8) (on : Bool) : State :=
  let s := s.modPort port (fun p => { p with lol := setBit p.lol lane.val on, lolSeen := if on then setBit p.lolSeen lane.val true else p.lolSeen })
  if on then s.detectorFires port lane false else s

/-- FORCE holds a detector asserted on a lane for 1 µs, 250 strobes (R273). -/
def State.forceDetector (s : State) (port : Fin 64) (lane : Fin 8) (los : Bool) : State :=
  let s := s.modPort port (fun p => { p with
    forces := (lane, los, s.strobe + 250) :: p.forces.filter (fun f => f.1 != lane || f.2.1 != los),
    losSeen := if los then setBit p.losSeen lane.val true else p.losSeen,
    lolSeen := if los then p.lolSeen else setBit p.lolSeen lane.val true })
  s.detectorFires port lane los
/-- Lanes whose detector FORCE holds asserted. -/
def Port.forced (p : Port) (los : Bool) : BitVec 8 :=
  (p.forces.filter (fun f => f.2.1 == los)).foldl (fun m f => setBit m f.1.val true) 0
/-- LANE_LIVE (R265, R273). -/
def Port.losNow (p : Port) : BitVec 8 := p.los ||| p.forced true
def Port.lolNow (p : Port) : BitVec 8 := p.lol ||| p.forced false

/-- LOS (R265, R266). -/
def execLos (port : Fin 64) (lane : Fin 8) (asserted : Bool) (s : State) : Res := .next (s.setLos port lane asserted)
/-- LOL (R265, R266). -/
def execLol (port : Fin 64) (lane : Fin 8) (asserted : Bool) (s : State) : Res := .next (s.setLol port lane asserted)

/-- LOS_ALL_LANES_TIMEOUT (R266): LOS on every lane for 10 µs with no QUIET marker received. -/
def execLosAllLanesTimeout (l : SubLink) (s : State) : Res :=
  let u := s.subAt l
  let lanes := if u.lstate = .recovery then u.before else u.lanes
  if !s.deaf l && !u.quietRx && scezoMode s.ports[l.port].mode && (u.lstate = .active || u.lstate = .recovery) &&
     (s.ports[l.port].losNow).setWidth 16 &&& lanes == lanes then .next (s.linkDown l false)
  else .next s

/-! PORT.FORCE and margining (R270, R273). -/

/-- Every ACTIVE sub-link of a port enters RECOVERY at full width. -/
def State.forceRetrain (s : State) (p : Fin 64) : State := (fins 4).foldl (fun s i => s.enterRecovery { port := p, sub := i } true) s

/-- PORT_FORCE_RETRAIN (R266, R273): reserved to CC0-CC3. -/
def execPortForceRetrain (p : Path) (m : MasterId) (port : Fin 64) (s : State) : Res :=
  .next (s.guardCore p m (offPort port 0x040) (fun s => s.forceRetrain port))
/-- LOS_INJECT (R273). -/
def execLosInject (p : Path) (m : MasterId) (port : Fin 64) (lane : Fin 8) (s : State) : Res :=
  .next (s.guardCore p m (offPort port 0x040) (fun s => s.forceDetector port lane true))
/-- LOL_INJECT (R273). -/
def execLolInject (p : Path) (m : MasterId) (port : Fin 64) (lane : Fin 8) (s : State) : Res :=
  .next (s.guardCore p m (offPort port 0x040) (fun s => s.forceDetector port lane false))

/-- A lane is ACTIVE: in use on a sub-link in ACTIVE, those of a PAIRED port on the host link of the port before it. -/
def State.laneActive (s : State) (p : Fin 64) (lane : Fin 8) : Bool :=
  if s.ports[p].mode = 5 then
    let u := s.subAt { port := ⟨p.val - 1, by omega⟩, sub := 0 }
    u.lstate == .active && bit u.lanes (8 + lane.val)
  else (s.ports[p].subs.toList).any (fun u => u.lstate == .active && bit u.lanes lane.val)

/-- Write MARGIN_CTL; START starts or restarts a measurement on an ACTIVE lane (R270). -/
def State.marginWrite (s : State) (p : Fin 64) (lane : Fin 8) (v : W32) : State :=
  let go := bit v 31 && s.laneActive p lane
  let v := v &&& 0xFFFF8000#32
  s.modPort p (fun q => { q with lane := vmod q.lane lane (fun x =>
    if go then { x with margin := v, result := 1, errors := 0 }
    else { x with margin := setBit v 31 (bit x.margin 31) }) })

/-- MARGIN_START (R270, R273): reserved to CC0-CC3. -/
def execMarginStart (p : Path) (m : MasterId) (port : Fin 64) (lane : Fin 8) (value : W32) (s : State) : Res :=
  .next (s.guardCore p m (offPort port (0x108 + 16 * lane.val)) (fun s => s.marginWrite port lane value))

/-- MARGIN_END (R270). -/
def execMarginEnd (port : Fin 64) (lane : Fin 8) (errors : BitVec 30) (aborted : Bool) (s : State) : Res :=
  .next (s.modPort port (fun p => { p with lane := vmod p.lane lane (fun x =>
    if x.result = 1 then { x with result := if aborted then 3 else 2, errors := errors, margin := setBit x.margin 31 false } else x) }))

/-! The port function (R255, R256). -/

/-- PORT_STARTING_END (R255): the port enters ON and its generation increments. -/
def execPortStartingEnd (port : Fin 64) (s : State) : Res :=
  if s.ports[port].fn.st = .starting then
    .next ((s.modPort port (fun p => { p with fn := { p.fn with st := .on }, gen := p.gen + 1 })).liftKerb port)
  else .next s

/-! Lane registers (R273). -/

/-- SUB_STATUS[s]: an unused sub-link reads 0. -/
def State.subStatus (s : State) (l : SubLink) : W32 :=
  let u := s.subAt l
  let mode := s.ports[l.port].mode
  if modeLanes mode l.sub.val = 0 then 0
  else
    let width := match s.hostOfSub l with
      | some h => if u.lstate = .active then ((s.hosts[h]).width).toNat else 0
      | none => laneCount u.lanes
    at32 29 u.lstate.code ||| at32 26 u.rate.toNat ||| at32 21 width ||| at32 20 (b2n u.reversed) ||| at32 12 (fieldN u.lanes 0 8) |||
      (if cxlMode mode then 0 else u.partner.setWidth 32)

/-- Read of a lane register of a port. -/
def State.laneRead (s : State) (p : Fin 64) (o : Nat) : W32 :=
  let x := s.ports[p]
  let lane := fun (i : Nat) => x.lane.toList.getD i {}
  match o with
  | 0x000 => at32 30 x.fn.st.code ||| at32 27 x.mode ||| x.gen.setWidth 32
  | 0x004 => at32 29 x.cfgMode ||| at32 26 x.maxRate ||| at32 25 (b2n x.degradeEn) ||| at32 24 (b2n x.reversalEn)
  | 0x020 => at32 8 x.lolNow.toNat ||| at32 0 x.losNow.toNat
  | 0x024 => at32 16 (b2n x.quietSeen) ||| at32 8 x.lolSeen.toNat ||| at32 0 x.losSeen.toNat
  | 0x028 => at32 16 x.retrFull.toNat ||| at32 0 x.retrQuick.toNat
  | 0x02C => at32 16 x.downsOrd.toNat ||| at32 0 x.downsUnc.toNat
  | 0x030 => x.skew
  | 0x300 => x.testCtl
  | _ =>
    if 0x010 ≤ o && o < 0x020 then s.subStatus { port := p, sub := ⟨(o - 0x010) / 4 % 4, Nat.mod_lt _ (by decide)⟩ }
    else if 0x100 ≤ o && o < 0x180 then
      let l := lane ((o - 0x100) / 16)
      match o % 16 with
      | 0 => l.rxEq
      | 4 => at32 16 l.amErr.toNat ||| at32 0 l.prbsErr.toNat
      | 8 => l.margin
      | _ => at32 30 l.result.toNat ||| l.errors.setWidth 32
    else if 0x200 ≤ o && o < 0x220 then (lane ((o - 0x200) / 4)).txEq
    else 0

/-- The clearing effect of reading an RC lane register. -/
def Port.laneClear (p : Port) (o : Nat) : Port :=
  match o with
  | 0x028 => { p with retrFull := 0, retrQuick := 0 }
  | 0x02C => { p with downsOrd := 0, downsUnc := 0 }
  | _ =>
    if 0x100 ≤ o && o < 0x180 && o % 16 = 4 then
      let i := (o - 0x100) / 16
      { p with lane := p.lane.setIfInBounds i { p.lane.toList.getD i {} with amErr := 0, prbsErr := 0 } }
    else p

/-- Powers of the generator of a TEST pattern (R271). -/
def prbsPoly (pattern : Nat) : Nat × Nat :=
  match pattern with
  | 1 => (7, 6) | 2 => (15, 14) | 3 => (23, 18) | _ => (31, 28)
/-- TEST_CTL is written: the generators start anew, all ones (the spec gives no seed: DESIGN CHOICE, log entry 96). -/
def Port.startTest (p : Port) (v : W32) : Port :=
  { p with testCtl := v &&& 0xFFFF0000#32, prbs := Vector.replicate 8 (BitVec.ofNat 31 (2 ^ (prbsPoly (fieldN v 29 3)).1 - 1)) }
/-- Bits that a lane carries in one strobe at a rate (R257). -/
def bitsPerStrobe (rate : Nat) : Nat :=
  match rate with
  | 0 => 10 | 1 => 32 | 2 => 64 | 3 => 100 | 4 => 128 | _ => 192
/-- The next bits of a pattern: the clock pattern 0b1010 sends its bit 0 first (R271). -/
def patternBits (pattern : Nat) : Nat → BitVec 31 → BitVec 31 × List Bool
  | 0, g => (g, [])
  | n + 1, g =>
    let q := prbsPoly pattern
    if pattern = 5 then
      let r := patternBits pattern n (g ^^^ 1)
      (r.1, (!g.getLsbD 0) :: r.2)
    else
      let r := patternBits pattern n (genStep q.1 q.2 g)
      (r.1, g.getLsbD (q.1 - 1) :: r.2)
/-- A lane sends its pattern in TEST: far-end loopback sends what it receives instead (R271). A pattern looped back inside the stack
arrives without errors. -/
def Port.sends (p : Port) (lane : Fin 8) : Bool :=
  p.mode == 7 && p.fn.st == .on && decide (fieldN p.testCtl 29 3 ≠ 0) && decide (fieldN p.testCtl 27 2 ≠ 2) && bit p.testCtl (16 + lane.val)
/-- One strobe of a port's lanes on their own: forced detectors end, patterns run on. -/
def State.laneStrobe (s : State) (p : Fin 64) : State :=
  let x := s.ports[p]
  let s := if x.forces.isEmpty then s else s.modPort p (fun q => { q with forces := q.forces.filter (fun f => decide (s.strobe < f.2.2)) })
  (fins 8).foldl (fun s i =>
    if x.sends i && !s.tap.instr.takesLanes then
      let r := patternBits (fieldN x.testCtl 29 3) (bitsPerStrobe (fieldN x.testCtl 24 3)) x.prbs[i]
      { s.modPort p (fun q => { q with prbs := vmod q.prbs i (fun _ => r.1) }) with wires := .pattern p i r.2 :: s.wires }
    else s) s

/-- A TEST_CTL value with no reserved code (R273). -/
def testCtlOk (v : W32) : Bool := fieldN v 29 3 ≤ 5 && fieldN v 27 2 ≤ 2 && fieldN v 24 3 ≤ 5

/-- Write of a lane register; `core`: the writer is one of CC0-CC3 (R273). -/
def State.laneWrite (s : State) (core : Bool) (p : Fin 64) (o : Nat) (v : W32) : State :=
  if o = 0x024 then
    s.modPort p (fun x => { x with
      quietSeen := x.quietSeen && !bit v 16, lolSeen := x.lolSeen &&& ~~~(v.extractLsb' 8 8), losSeen := x.losSeen &&& ~~~(v.extractLsb' 0 8) })
  else if !core then s
  else if o = 0x040 then
    let lane : Fin 8 := ⟨fieldN v 8 3 % 8, Nat.mod_lt _ (by decide)⟩
    let s := if bit v 2 then s.forceDetector p lane false else s
    let s := if bit v 1 then s.forceDetector p lane true else s
    if bit v 0 then s.forceRetrain p else s
  else if o = 0x300 then (if testCtlOk v then s.modPort p (fun x => x.startTest v) else s)
  else if 0x100 ≤ o && o < 0x180 && o % 16 = 8 then s.marginWrite p ⟨(o - 0x100) / 16 % 8, Nat.mod_lt _ (by decide)⟩ v
  else s

end Sys2Proof.Machine
end

