-- ==== Sys2Proof/Machine/Link.lean ====
section
/-! DEFINITION. The Scezo link layer and the forwarding of messages: flits, acknowledgement, replay, initialisation,
audits, credit resynchronisation, routing and retracing, and the link-layer registers (R274-R297, R309). -/

namespace Sys2Proof.Machine

/-! Fields of a flit (R274, R275). -/

def fType (f : BitVec 2048) : Nat := fieldN f 12 4
def fSeq (f : BitVec 2048) : BitVec 12 := f.extractLsb' 0 12
def fLink (f : BitVec 2048) : BitVec 48 := f.extractLsb' 16 48
def fSlot (f : BitVec 2048) (i : Nat) : BitVec 128 := f.extractLsb' (64 + 128 * i) 128
/-- The CRC of a flit verifies (R276). -/
def fCrcOk (f : BitVec 2048) : Bool := crc64 (toBytes f 248) == f.extractLsb' 1984 64

/-! Replay (R278, R279). -/

/-- A replay episode: every unacknowledged flit is sent again from the oldest onwards; the link epoch increments and
LINK_REPLAY is logged; too many ask for lane recovery. -/
def State.startReplay (s : State) (l : SubLink) : State :=
  let u := s.subAt l
  match u.replayBuf with
  | [] => s
  | first :: _ =>
    if u.lstate ≠ .active then s
    else
      let s := u.replayBuf.foldl (fun (s : State) x => s.sendFlit l (flitBits 1 x.seq u.linkWord x.slots false)) s
      let again := if u.lastReplay = some first.seq then u.sameReplay + 1 else 1
      let eps := u.flits :: u.episodes.filter (fun c => decide (u.flits - c < 65536))
      let s := s.modSub l (fun u => { u with
        ll := if u.ll = .resync then .resync else .replay,
        replays := satAdd u.replays 1, replayFlits := satAdd u.replayFlits u.replayBuf.length,
        lastReplay := some first.seq, sameReplay := again, episodes := eps })
      let s := (s.bumpLinkEpoch l).log (evLinkReplay l.port.val) (detail l.port.val (l.sub.val + 65536 * first.seq.toNat)) acLink
      if u.errLimit.toNat < eps.length || 4 ≤ again then s.enterRecovery l false else s

/-- ACK_TIMEOUT (R278): ACK_SEQ has not advanced for 4 µs while flits remain unacknowledged. -/
def execAckTimeout (l : SubLink) (s : State) : Res := .next (if subCarries (s.subAt l) then s.startReplay l else s)

/-- What the state of the link layer is when no replay or resynchronisation runs. -/
def Sub.settled (u : Sub) : LlState := if u.detachTx then .detaching else .run

/-- Apply ACK_SEQ: covered flits leave the replay buffer (R278). -/
def Sub.applyAck (u : Sub) (a : BitVec 12) : Sub :=
  let u := { u with acked := a }
  if u.replayBuf.any (fun x => x.seq = a) then
    { u with
      replayBuf := (u.replayBuf.dropWhile (fun x => x.seq != a)).drop 1, sameReplay := 0, lastReplay := none,
      ll := if u.ll = .replay then u.settled else u.ll }
  else u

/-! Credits (R282-R284). -/

/-- Apply a credit return count (R282). -/
def Vc.applyRet (v : Vc) (r : BitVec 8) : Vc :=
  let n := (r - v.rseen.setWidth 8).setWidth 16
  { v with held := v.held + n, rseen := v.rseen + n }
/-- Apply the four return bytes of a link word. -/
def Sub.applyRets (u : Sub) (w : BitVec 48) : Sub :=
  { u with vc := Vector.ofFn (fun v : Fin 4 => (u.vc[v]).applyRet (w.extractLsb' (8 * v.val) 8)) }

/-- Credit counts restart (R284 step 4). -/
def Vc.restart (v : Vc) : Vc := { init := v.init, held := v.init }

/-- Both ends have exchanged RSYNC_DONE: credits restart, the epoch increments, traffic resumes (R284). -/
def State.resyncEnd (s : State) (l : SubLink) : State :=
  let u := s.subAt l
  if u.rsyncTx && u.rdoneTx && u.rdoneRx then
    let s := s.modSub l (fun u => { u with
      rsyncTx := false, rdoneTx := false, rdoneRx := false, vc := u.vc.map Vc.restart, ll := u.settled })
    ((s.bumpLinkEpoch l).sendCtrl l).pumpAll l
  else s

/-- This end sets RSYNC_DONE once its receive buffers are empty and it sees RSYNC_REQ (R284 step 3). -/
def State.resyncReady (s : State) (l : SubLink) : State :=
  let u := s.subAt l
  if u.rsyncTx && u.rsyncRx && !u.rdoneTx && u.rx.isEmpty && u.partialRx.isEmpty then
    ((s.modSub l (fun u => { u with rdoneTx := true })).sendCtrl l).resyncEnd l
  else s.resyncEnd l

/-- RSYNC_DONE (R284). -/
def execRsyncDone (l : SubLink) (s : State) : Res := .next (s.resyncReady l)

/-- Set RSYNC_REQ: no new message starts (R284). -/
def State.startResync (s : State) (l : SubLink) : State :=
  if (s.subAt l).rsyncTx then s
  else (s.modSub l (fun u => { u with rsyncTx := true, ll := .resync })).sendCtrl l

/-- The three counts of a virtual channel in an AUDIT message (R283): SENT, RSEEN, HELD. -/
def auditCounts (m : Msg) (v : Nat) : BitVec 16 × BitVec 16 × BitVec 16 :=
  let x := nth m.slots (v / 2) 0
  let o := 48 * (v % 2)
  (x.extractLsb' o 16, x.extractLsb' (o + 16) 16, x.extractLsb' (o + 32) 16)
/-- Checks (a) to (d) of R283 that fail for a virtual channel. -/
def auditFails (c : Vc) (adv : BitVec 16) (x : BitVec 16 × BitVec 16 × BitVec 16) : BitVec 4 :=
  let sent := x.1
  let rseen := x.2.1
  let held := x.2.2
  setBit (setBit (setBit (setBit 0#4 0 (sent != c.rcvd)) 1 (held != adv - sent + rseen)) 2 (decide (adv.toNat < (c.issued - rseen).toNat)))
    3 (c.occ + c.pend != c.rcvd - c.issued)

/-- Check an AUDIT against this end's counts (R283). -/
def State.auditCheck (s : State) (l : SubLink) (m : Msg) : State :=
  let u := s.subAt l
  let bad := ((fins 4).map (fun v => (v, auditFails (u.vc[v]) (advertised v) (auditCounts m v.val)))).filter (fun x => x.2 != 0)
  match bad.getLast? with
  | none => s.modSub l (fun u => { u with auditPass := u.auditPass + 1 })
  | some last =>
    let s := s.modSub l (fun u => { u with auditFail := satAdd u.auditFail 1, auditVc := BitVec.ofNat 2 last.1.val, auditCheck := last.2 })
    let s := bad.foldl (fun (s : State) x =>
      s.log (evCreditResync l.port.val) (detail l.port.val (l.sub.val + 16 * x.1.val + 256 * x.2.toNat)) acLink) s
    s.startResync l

/-- AUDIT (R283): an AUDIT message is received. -/
def execAudit (l : SubLink) (msg : Msg) (s : State) : Res := .next ((s.freeRx l msg).auditCheck l msg)

/-- The AUDIT message of this end (R283). -/
def Sub.auditMsg (u : Sub) : Msg :=
  let f := fun (v : Fin 4) => (u.vc[v].held ++ u.vc[v].rseen ++ u.vc[v].sent : BitVec 48)
  { hdr := BitVec.ofNat 128 mtAudit,
    slots := [(f 0).setWidth 128 ||| ((f 1).setWidth 128 <<< 48), (f 2).setWidth 128 ||| ((f 3).setWidth 128 <<< 48)] }

/-- AUDIT_SEND (R283, R309): a due AUDIT goes out at the message boundary. -/
def execAuditSend (l : SubLink) (s : State) : Res :=
  let u := s.subAt l
  if u.auditDue && u.lstate = .active && subCarries u && !u.rsyncTx && u.replayBuf.length < 512 then
    .next (((s.modSub l (fun u => { u with auditDue := false })).sendSlots l (msgSlots u.auditMsg)).pumpAll l)
  else .next s

/-! Receiving flits (R274-R278). -/

/-- A flit is discarded for its CRC: NAK is set (R276, R278). -/
def State.crcFail (s : State) (l : SubLink) : State :=
  (s.modSub l (fun u => { u with crcErr := satAdd u.crcErr 1, nakTx := true })).sendCtrl l

/-- Take the complete messages from the slots received (R277): padding is dropped, an AUDIT is checked in its place in the
stream, every other message waits in the receive buffer; the rest is the part of a message. -/
def State.takeMsgs : Nat → State → SubLink → List (BitVec 128) → State
  | 0, s, _, _ => s
  | n + 1, s, l, xs =>
    match xs with
    | [] => s.modSub l (fun u => { u with partialRx := [] })
    | h :: rest =>
      if hTy h = 0 then s.takeMsgs n l rest
      else match msgLen h with
        | none => s.modSub l (fun u => { u with partialRx := [] })
        | some k =>
          if xs.length < k then s.modSub l (fun u => { u with partialRx := xs })
          else
            let m : Msg := { hdr := h, slots := rest.take (k - 1) }
            let s := if hTy h = mtAudit then s.auditCheck l m
              else s.modSub l (fun u => { u with
                rx := u.rx ++ [m],
                vc := match vcOf (hTy h) with
                  | some v => vmod u.vc v (fun c => { c with rcvd := c.rcvd + BitVec.ofNat 16 k, occ := c.occ + BitVec.ofNat 16 k })
                  | none => u.vc })
            s.takeMsgs n l (xs.drop k)

/-- A message with a reserved type begins in the slots: the flit counts as a CRC failure (R287). -/
def reservedIn : Nat → List (BitVec 128) → Bool
  | 0, _ => false
  | _, [] => false
  | n + 1, h :: rest => match msgLen h with | none => true | some k => reservedIn n ((h :: rest).drop k)

/-- Apply the link word of a good flit (R275, R278, R282, R284). -/
def State.applyLink (s : State) (l : SubLink) (w : BitVec 48) : State :=
  let u := s.subAt l
  let nak := bit w 35
  let req := bit w 34
  let seen := bit w 33 || (u.rsyncRx && !req && u.rdoneTx)
  let s := s.modSub l (fun u => { u.applyAck (w.extractLsb' 36 12) with nakRx := nak, rsyncRx := req, rdoneRx := u.rsyncTx && (u.rdoneRx || seen) })
  let s := if nak && !u.nakRx then s.startReplay l else s
  let s := if req && !u.rsyncRx then s.startResync l else s
  let s := s.resyncReady l
  if req && !(s.subAt l).rsyncTx then s else s.modSub l (fun u => u.applyRets w)

/-- A MSG flit with a good CRC (R278). -/
def State.takeMsgFlit (s : State) (l : SubLink) (f : BitVec 2048) : State :=
  let u := s.subAt l
  if fSeq f ≠ u.rxSeq then s
  else
    let xs := u.partialRx ++ (List.range 15).map (fSlot f)
    if reservedIn 128 xs then s.crcFail l
    else
      let s := s.modSub l (fun u => { u with rxSeq := u.rxSeq + 1, rxAny := true, nakTx := false })
      ((s.takeMsgs 128 l xs).sendCtrl l)

/-- An INIT flit in link initialisation (R280). -/
def State.takeInit (s : State) (l : SubLink) (f : BitVec 2048) : State :=
  if (s.subAt l).ll ≠ .init then s
  else
    let x := fSlot f 0
    let s := s.modSub l (fun u => { u with
      peerSeen := true, peerSaw := u.peerSaw || bit x 20,
      vc := Vector.ofFn (fun v : Fin 4 => { u.vc[v] with init := x.extractLsb' (32 + 16 * v.val) 16, held := x.extractLsb' (32 + 16 * v.val) 16 }) })
    let s := s.sendInit l
    let u := s.subAt l
    if u.peerSaw && u.sentSeen then (s.modSub l (fun u => { u with ll := .run })).liftKerb l.port else s

/-- FLIT_RECEIVE (R274-R278). -/
def execFlitReceive (l : SubLink) (flit : BitVec 2048) (s : State) : Res :=
  let u := s.subAt l
  if u.ll = .down || u.lstate ≠ .active then .next s
  else if !fCrcOk flit then .next (s.crcFail l)
  else match fType flit with
    | 0 => .next (if u.ll = .init then s else (s.applyLink l (fLink flit)).pumpAll l)
    | 1 => .next (if u.ll = .init then s else ((s.applyLink l (fLink flit)).takeMsgFlit l flit).pumpAll l)
    | 2 => .next (s.takeInit l flit)
    | _ => .next (s.modSub l (fun u => { u with crcErr := satAdd u.crcErr 1 }))

/-- INIT_FLIT (R280). -/
def execInitFlit (l : SubLink) (flit : BitVec 2048) (s : State) : Res :=
  if (s.subAt l).ll ≠ .init then .next s
  else if !fCrcOk flit then .next (s.crcFail l)
  else if fType flit = 2 then .next (s.takeInit l flit)
  else .next s

/-! Injections and link-layer registers (R309). -/

/-- Window offset of a link-layer register. -/
def offLl (l : SubLink) (o : Nat) : Nat := offPort l.port (0x400 + 0x100 * l.sub.val + o)

/-- Write LL_FORCE. -/
def State.llForce (s : State) (l : SubLink) (v : W32) : State :=
  s.modSub l (fun u => { u with
    auditDue := u.auditDue || bit v 2,
    vc := if bit v 1 then vmod u.vc 0 (fun c => { c with held := if c.held = 0 then 0 else c.held - 1 }) else u.vc,
    injCrc := u.injCrc || bit v 0 })

/-- AUDIT_NOW (R309): reserved to CC0-CC3. -/
def execAuditNow (p : Path) (m : MasterId) (l : SubLink) (s : State) : Res := .next (s.guardCore p m (offLl l 0x28) (fun s => s.llForce l 4))
/-- CREDIT_SKEW (R309). -/
def execCreditSkew (p : Path) (m : MasterId) (l : SubLink) (s : State) : Res := .next (s.guardCore p m (offLl l 0x28) (fun s => s.llForce l 2))
/-- CRC_INJECT (R309). -/
def execCrcInject (p : Path) (m : MasterId) (l : SubLink) (s : State) : Res := .next (s.guardCore p m (offLl l 0x28) (fun s => s.llForce l 1))

/-- Read of a link-layer register. -/
def Sub.llRead (u : Sub) (o : Nat) : W32 :=
  match o with
  | 0x00 => at32 29 u.ll.code ||| at32 28 (b2n u.detachRx) ||| at32 16 u.nextSeq.toNat ||| u.acked.setWidth 32
  | 0x04 => u.epoch.setWidth 32
  | 0x08 => at32 24 u.errLimit.toNat
  | 0x0C => at32 16 u.replays.toNat ||| at32 0 u.replayFlits.toNat
  | 0x10 => u.crcErr
  | 0x14 => at32 16 u.auditPass.toNat ||| at32 8 u.auditFail.toNat ||| at32 6 u.auditVc.toNat ||| at32 2 u.auditCheck.toNat
  | _ =>
    if 0x18 ≤ o && o < 0x28 then
      let c := u.vc.toList.getD ((o - 0x18) / 4) {}
      at32 16 c.init.toNat ||| at32 0 c.held.toNat
    else 0

/-- The clearing effect of reading an RC link-layer register. -/
def Sub.llClear (u : Sub) (o : Nat) : Sub :=
  match o with
  | 0x0C => { u with replays := 0, replayFlits := 0 }
  | 0x10 => { u with crcErr := 0 }
  | _ => u

/-- Write of a link-layer register by CC0-CC3: an ERR_LIMIT of 0 changes nothing. -/
def State.llWrite (s : State) (l : SubLink) (o : Nat) (v : W32) : State :=
  match o with
  | 0x08 => if fieldN v 24 8 = 0 then s else s.modSub l (fun u => { u with errLimit := v.extractLsb' 24 8 })
  | 0x28 => s.llForce l v
  | _ => s

/-! Requests that arrive (R291, R293-R297). -/

/-- Class of a message for the Kerb: VC3 messages pass it at cost 0 (R222, R287). -/
def onMgt (ty : Nat) : Bool := decide (0x20 ≤ ty)
/-- A request type (R287). -/
def isReqTy (ty : Nat) : Bool := !isCmpTy ty && ty != 0 && ty != mtTsyncReq && ty != mtTsyncRsp && ty != mtDetach && ty != mtAudit

/-- The request of a message, with its payload opened. -/
def msgReq (l : SubLink) (h : Hdr) (mask body : List (BitVec 128)) : Req :=
  let poison := hStatus h % 2 == 1
  { master := hMaster h, tag := hTag h, cls := hCls h, node := hNode h,
    addr := if hTy h = mtRowWr || hTy h = mtRowRd then hAddr h / 1024 * 1024 else hAddr h,
    origin := .port (portLink l.port) l.sub,
    kind :=
      if hTy h = mtLineWr then .lineWrite (slotsLine body) poison
      else if hTy h = mtPartWr then .partialWrite (slotsLine body) ((nth mask 0 0).setWidth 64)
      else if hTy h = mtRowRd then .rowRead false
      else if hTy h = mtRowWr then
        .rowWrite (slotsRow body) (if poison then (h.extractLsb' 116 6 : BitVec 6) ++ (h.extractLsb' 64 10 : BitVec 10) else 0)
      else if hTy h = mtOpDispatch then .opDispatch (hAddr h |>.setWidth 16) (slotsDesc body)
      else .lineRead }

/-- The type bears data and a seal slot (R290). -/
def bearsData (ty : Nat) : Bool := ty == mtLineWr || ty == mtPartWr || ty == mtRowWr || ty == mtOpDispatch

/-- A ROW_WR into the boot window in the boot state, which may come unsealed (R291). -/
def State.bootRow (s : State) (h : Hdr) : Bool := s.inBoot && hTy h == mtRowWr && decide ((hAddr h).toNat < 4194304)

/-- A request for this node enters the port's Kerb, which makes its transit entry when it passes (R208, R221, R295). -/
def State.admitReq (s : State) (l : SubLink) (h : Hdr) (r : Req) : State :=
  if r.cls = 15#4 && !isMgmtAgent r.master then
    (s.log evClassInvalid (detail (portLink l.port).val 15) (accessOf r.kind) r.master CStatus.notPermitted.code).answer l h .notPermitted
  else
    (s.modMport (portLink l.port) (fun p => { p with outst := p.outst ++ [{ req := r, table := false, entered := true }] })).kerbEnter
      (portLink l.port) r none

/-- Requests of a master to this node that the link ports have taken in and that have not completed (R244). -/
def State.arrivedOf (s : State) (m : MasterId) : List (MasterId × BitVec 16) :=
  (fins 64).flatMap (fun p => (s.mports[portLink p]).covered m s.fab.nodeId)

/-- A memory or dispatch request for this node: the seal is checked (R291), and the request enters the Kerb. -/
def State.arriveReq (s : State) (l : SubLink) (m : Msg) : State :=
  let h := m.hdr
  let nm := if hTy h = mtPartWr then 1 else 0
  if hTy h = mtFence then
    let port := portLink l.port
    let node := s.fab.nodeId
    (s.addTransit h (some l) none).fenceAt port
      { master := hMaster h, node := node, covers := s.arrivedOf (hMaster h), msg := some (l, h) }
  else if bearsData (hTy h) then
    if !hSealed h && s.fab.cur.isSome && !s.bootRow h then s.answer l h .notPermitted
    else match s.openMsg (MasterId.node (hMaster h)) nm m with
      | .bad => (s.sealFail m).answer l h .integrityFail
      | .plain mask body => s.admitReq l h (msgReq l h mask body)
  else s.admitReq l h (msgReq l h [] [])

/-- Items of the MGT plane between a link port and the control island or the fabric router pass its switch and the Plaza (R232). -/
def State.countMgt (s : State) (p : Fin 64) : State := s.countFwd (spotPath (portSpot (portLink p)) .plaza)

/-- A request message that has arrived: for this node, or onwards (R293). -/
def State.takeRequest (s : State) (l : SubLink) (m : Msg) : State :=
  match (s.egress m).2 with
  | .here => if onMgt (hTy m.hdr) then s else s.arriveReq l m
  | _ => if onMgt (hTy m.hdr) then (s.countMgt l.port).forwardMsg l m else s.kerbEnter (portLink l.port) (msgReq l m.hdr [] []) (some m)

/-- A message that ends at the partner (R287). -/
def isLinkLocal (ty : Nat) : Bool := !isReqTy ty && !isCmpTy ty
/-- Where a received message leaves: a completion by its transit entry (R295), a request by its route (R293), a link-local one nowhere. -/
def State.exitOf (s : State) (m : Msg) : Egress :=
  if isCmpTy (hTy m.hdr) then
    match s.transitOf (hMaster m.hdr) (hTag m.hdr) with
    | some t => (match t.ingress with | some l => .sub l | none => .here)
    | none => .down
  else if isLinkLocal (hTy m.hdr) then .here
  else (s.egress m).2
/-- An earlier message of the same virtual channel that leaves by the same egress waits in the receive buffer (R296). -/
def State.outOfTurn (s : State) (l : SubLink) (m : Msg) : Bool :=
  ((s.subAt l).rx.takeWhile (fun x => x != m)).any (fun x =>
    decide (vcOf (hTy x.hdr) = vcOf (hTy m.hdr)) && decide (s.exitOf x = s.exitOf m))

/-- A request of a master to this node waits in a receive buffer, ahead of message `m` of sub-link `l` or on another sub-link. -/
def State.stillComing (s : State) (l : SubLink) (m : Msg) : Bool :=
  allSubs.any (fun u =>
    ((s.subAt u).rx.takeWhile (fun x => !(decide (u = l) && x == m))).any (fun x =>
      isReqTy (hTy x.hdr) && !onMgt (hTy x.hdr) && decide (hTy x.hdr ≠ mtFence) && hMaster x.hdr == hMaster m.hdr &&
      decide ((s.egress x).2 = .here)))

/-- A request message waits in the receive buffer: for an earlier message of its virtual channel (R296); for room in its class queue
(R221); one that no class queue holds, for a free transit entry (R295); a FENCE for this node until every earlier request of its master has
left the receive buffers (R244; DEDUCED, log entry 107). -/
def State.mustWait (s : State) (l : SubLink) (m : Msg) : Bool :=
  let h := m.hdr
  let here := decide ((s.egress m).2 = .here)
  s.outOfTurn l m ||
  (if hTy h = mtFence && here then s.stillComing l m || s.transitFull
   else if onMgt (hTy h) then s.transitFull
   else !s.kerbTakes (portLink l.port) (hCls h))

/-- MESSAGE_FORWARD (R293-R296). A management message for this node is left to its own command. -/
def execMessageForward (l : SubLink) (msg : Msg) (s : State) : Res :=
  if !isReqTy (hTy msg.hdr) || s.flt.stopped || s.mustWait l msg then .next s
  else
    let mine := onMgt (hTy msg.hdr) && decide ((s.egress msg).2 = .here)
    .next (if mine then s else (s.freeRx l msg).takeRequest l msg)

/-- COMPLETION_RETRACE (R295): the completion passes the switch of its sub-link, and, where it goes on to another node, the Plaza. -/
def execCompletionRetrace (l : SubLink) (msg : Msg) (s : State) : Res :=
  if isCmpTy (hTy msg.hdr) && !s.outOfTurn l msg then
    let through := match s.transitOf (hMaster msg.hdr) (hTag msg.hdr) with
      | some t => (match t.ingress with | some i => [Spot.plaza, portSpot (portLink i.port)] | none => [])
      | none => []
    .next (((s.freeRx l msg).countFwd (portSpot (portLink l.port) :: through)).returnMsg msg)
  else .next s

end Sys2Proof.Machine
end

