-- ==== Sys2Proof/Machine/FabMsg.lean ====
section
/-! DEFINITION. Fabric messages that end at this node: enumeration, routes, keys, time, detach notices and answers, and
the FAB registers (R288, R298-R304, R308 of 11_scezo_fabric). -/

namespace Sys2Proof.Machine

/-- Handle a management request of a given type that has arrived, in its turn (R296): for this node, or onwards (R293). -/
def State.atHome (s : State) (l : SubLink) (m : Msg) (ty : Nat) (f : State → State) : State :=
  if hTy m.hdr ≠ ty || s.flt.stopped || s.dieInReset || s.mustWait l m then s
  else
    let s := (s.freeRx l m).countMgt l.port
    if (s.egress m).2 = .here then f s else s.forwardMsg l m

/-- The sender is a control core of node 0x000 (R300). -/
def fromMaster (h : Hdr) : Bool := isCoreAgent (hMaster h) && decide (MasterId.node (hMaster h) = 0#12)

/-- Answer a management request with MGMT_CMP: status and DATA (R286). -/
def State.mgmtAnswer (s : State) (l : SubLink) (h : Hdr) (st : CStatus) (data : W32 := 0) : State :=
  (s.countMgt l.port).sendBack l { hdr := cmpHdr mtMgmtCmp (hCls h) (hTag h) (hMaster h) st s.fab.nodeId ||| (data.setWidth 128 <<< 96) }

/-- A request that R300 keeps to node 0x000's control cores. -/
def State.forMaster (s : State) (l : SubLink) (m : Msg) (ty : Nat) (f : State → State) : State :=
  s.atHome l m ty (fun s => if fromMaster m.hdr then f s else s.answer l m.hdr .notPermitted)

/-- ROUTE_WRITE (R288, R292, R300): the slot after the header, or after the PATH, holds the entry. -/
def execRouteWrite (l : SubLink) (msg : Msg) (s : State) : Res :=
  .next (s.forMaster l msg mtRouteWrite (fun s =>
    let e : W64 := (nth msg.slots (if hSr msg.hdr then 4 else 0) 0).setWidth 64
    (s.setRoute (if hSr msg.hdr then 0 else fieldN msg.hdr 64 12) e).mgmtAnswer l msg.hdr .ok))

/-- The 256 bytes of the blob of FAB_KEY. -/
def keyBlob (m : Msg) : List Byte := (List.range 16).flatMap (fun i => toBytes (nth m.slots i 0) 16)

/-- FAB_KEY (R289, R302). A blob that does not unwrap installs nothing (log entry 40). -/
def execFabKey (l : SubLink) (msg : Msg) (s : State) : Res :=
  .next (s.forMaster l msg mtFabKey (fun s =>
    if !s.sec.agreeReady then s.mgmtAnswer l msg.hdr .notPermitted
    else match s.unwrapBlob (keyBlob msg) with
      | .ok k => ({ s with fab := s.fab.install (fabKeys k.1 k.2) (ofBytes 32 ((keyBlob msg).drop 4 |>.take 4)) }).mgmtAnswer l msg.hdr .ok
      | .error .integrityFail => s.mgmtAnswer l msg.hdr .integrityFail
      | .error _ => s.mgmtAnswer l msg.hdr .notPermitted))

/-- Slot 1 of ENUM_REPLY (R288). -/
def State.enumSlot (s : State) (l : SubLink) : BitVec 128 :=
  let hi : W64 := at64 0 (variantByte s.glb.variant) ||| at64 8 0x01 ||| at64 16 (stateCode s.boot.phase) ||| at64 19 (b2n s.fabMaster) |||
    at64 20 s.fab.nodeId.toNat ||| at64 32 (byteOfSub l)
  hi ++ s.serial

/-- ENUM_PROBE (R298-R300): answered with identity and state. -/
def execEnumProbe (l : SubLink) (msg : Msg) (s : State) : Res :=
  .next (s.forMaster l msg mtEnumProbe (fun s =>
    s.sendBack l { hdr := cmpHdr mtEnumReply (hCls msg.hdr) (hTag msg.hdr) (hMaster msg.hdr) .ok s.fab.nodeId, slots := [s.enumSlot l] }))

/-- NODE_ASSIGN (R299): the ID of slot 5, and the parent route. -/
def execNodeAssign (l : SubLink) (msg : Msg) (s : State) : Res :=
  .next (s.forMaster l msg mtNodeAssign (fun s =>
    ({ s with fab := { s.fab with nodeId := (nth msg.slots 4 0).setWidth 12, parent := some l } }).mgmtAnswer l msg.hdr .ok))

/-- Receipt of an answer to a management request (R287, R295). -/
def State.takeAnswer (s : State) (l : SubLink) (m : Msg) (ty : Nat) : State :=
  if hTy m.hdr = ty && !s.outOfTurn l m then (s.freeRx l m).returnMsg m else s

/-- ENUM_REPLY (R298, R299). -/
def execEnumReply (l : SubLink) (msg : Msg) (s : State) : Res := .next (s.takeAnswer l msg mtEnumReply)
/-- REMOTE_REPLY (R288). -/
def execRemoteReply (l : SubLink) (msg : Msg) (s : State) : Res := .next (s.takeAnswer l msg mtRemoteReply)
/-- MGMT_CMP (R288). -/
def execMgmtCmp (l : SubLink) (msg : Msg) (s : State) : Res := .next (s.takeAnswer l msg mtMgmtCmp)

/-! Fabric time (R303). -/

/-- TSYNC_PERIOD: a node other than the master asks its parent for the time. -/
def execTsyncPeriod (s : State) : Res :=
  match s.fab.parent with
  | some l =>
    if s.fab.syncEn && !s.fabMaster && subUp (s.subAt l) then
      .next (({ s with fab := { s.fab with t1 := some s.fab.time } }).sendOn l { hdr := reqHdr mtTsyncReq 0 0 0 s.fab.time })
    else .next s
  | none => .next s

/-- TSYNC_REQ: answered with T2 and T3. -/
def execTsyncReq (l : SubLink) (msg : Msg) (s : State) : Res :=
  if hTy msg.hdr ≠ mtTsyncReq || s.dieInReset then .next s
  else .next ((s.freeRx l msg).sendOn l { hdr := reqHdr mtTsyncRsp 0 0 0 (msg.hdr.extractLsb' 64 64), slots := [(s.fab.time ++ s.fab.time : BitVec 128)] })

/-- Offset and delay of an exchange (R303). -/
def tsyncOffset (t1 t2 t3 t4 : W64) : Int := (((t2.toNat : Int) - t1.toNat) + ((t3.toNat : Int) - t4.toNat)).tdiv 2
def tsyncDelay (t1 t2 t3 t4 : W64) : Int := (((t4.toNat : Int) - t1.toNat) - ((t3.toNat : Int) - t2.toNat)).tdiv 2
/-- Keep a number between two bounds. -/
def clampInt (lo hi x : Int) : Int := max lo (min hi x)

/-- The child after an exchange (R303). A rate correction of up to 6,000 ppm over the period is taken in whole at the
exchange (log entry 41). -/
def Fab.correct (f : Fab) (offset delay : Int) : Fab :=
  let small := decide (offset.natAbs ≤ 1000)
  let limit : Int := 6 * f.period.toNat
  let adj := if small then clampInt (-limit) limit offset else offset
  let good := if offset.natAbs ≤ 20 then min 2 (f.good + 1) else 0
  { f with
    time := f.time + BitVec.ofInt 64 adj, offset := BitVec.ofInt 16 (clampInt (-32768) 32767 offset),
    delay := BitVec.ofInt 15 (clampInt 0 32767 delay), good := good, locked := decide (2 ≤ good), t1 := none }

/-- TSYNC_RSP: the child computes offset and delay and corrects its time. -/
def execTsyncRsp (l : SubLink) (msg : Msg) (s : State) : Res :=
  if hTy msg.hdr ≠ mtTsyncRsp then .next s
  else
    let s := s.freeRx l msg
    let t1 : W64 := msg.hdr.extractLsb' 64 64
    if s.fab.parent = some l && s.fab.t1 = some t1 then
      let x := nth msg.slots 0 0
      let t2 : W64 := x.setWidth 64
      let t3 : W64 := x.extractLsb' 64 64
      .next { s with fab := s.fab.correct (tsyncOffset t1 t2 t3 s.fab.time) (tsyncDelay t1 t2 t3 s.fab.time) }
    else .next s

/-! Detach (R304 step 3). -/

/-- DETACH: the sub-link leaves routing and PEER_DETACH is logged. -/
def execDetach (l : SubLink) (msg : Msg) (s : State) : Res :=
  if hTy msg.hdr ≠ mtDetach then .next s
  else
    let s := (s.freeRx l msg).modSub l (fun u => { u with detachRx := true })
    .next (s.log (evPeerDetach l.port.val) (detail l.port.val (l.sub.val + 65536 * (s.subAt l).partner.toNat)) acLink)

/-! FAB registers (R308). -/

/-- Read of a FAB register at an offset of the family. -/
def State.fabRead (s : State) (o : Nat) : W32 :=
  let f := s.fab
  if o < 0x8000 then
    let e := smGetD f.route (o / 8) 0
    if o % 8 = 4 then e.extractLsb' 32 32 else e.setWidth 32
  else match o with
    | 0x8000 => f.nodeId.setWidth 32
    | 0x8004 =>
      at32 31 (b2n s.fabMaster) ||| at32 30 (b2n (f.nodeId != 0xFFF#12)) ||| at32 29 (b2n f.cur.isSome) ||| at32 28 (b2n f.kg) |||
        at32 27 (b2n f.detaching) ||| at32 26 (b2n f.conflict)
    | 0x8008 => match f.parent with | some l => at32 31 1 ||| at32 0 (byteOfSub l) | none => 0
    | 0x8010 => f.time.setWidth 32
    | 0x8014 => f.time.extractLsb' 32 32
    | 0x8018 => at32 16 f.period.toNat ||| at32 15 (b2n f.syncEn)
    | 0x801C => at32 31 (b2n f.locked) ||| at32 16 f.delay.toNat ||| f.offset.setWidth 32
    | 0x8020 => at32 16 0x4000 ||| at32 0 f.transit.length
    | 0x8024 => f.noRoute
    | 0x8028 => f.sealFail
    | 0x802C => f.reroutes
    | _ => 0

/-- The clearing effect of reading an RC register of FAB. -/
def Fab.clear (f : Fab) (o : Nat) : Fab :=
  match o with
  | 0x8024 => { f with noRoute := 0 }
  | 0x8028 => { f with sealFail := 0 }
  | 0x802C => { f with reroutes := 0 }
  | _ => f

/-- Write of FAB.TIME_CFG by CC0-CC3: a PERIOD outside 100-10,000 changes nothing. -/
def Fab.write (f : Fab) (o : Nat) (v : W32) : Fab :=
  let p := fieldN v 16 16
  if o = 0x8018 && 100 ≤ p && p ≤ 10000 then { f with period := v.extractLsb' 16 16, syncEn := bit v 15 } else f

end Sys2Proof.Machine
end

