-- ==== Sys2Proof/Machine/Host.lean ====
section
/-! DEFINITION. The CXL host ports: HDM decoders, the segment map and its commands, CXL.mem requests and responses,
configuration space, the primary mailbox, resets and link loss, and the HOST registers (12_cxl_host_ports). -/

namespace Sys2Proof.Machine

/-! HDM decoders (R317, R318). -/

/-- A base, size or skip unit: 256 MiB. -/
def hdmUnit : Nat := 268435456
/-- The DPA range that a decoder takes: its size divided by its ways. -/
def Hdm.dpaSize (d : Hdm) : Nat := d.size / d.ways
/-- The end of a decoder's DPA range. -/
def Hdm.dpaEnd (d : Hdm) : Nat := d.dpa + d.dpaSize
/-- Ways and granularity that the decoders can do (R317). -/
def hdmShapeOk (ways gran : Nat) : Bool :=
  [1, 2, 4, 8].contains ways && [256, 512, 1024, 2048, 4096, 8192, 16384].contains gran

/-- HDM_DECODER_COMMIT (R317). A decoder that a commit has locked takes no further commit. -/
def execHdmDecoderCommit (h : Fin 8) (dec : Fin 4) (base size : W64) (ways gran : BitVec 16) (skip : W64) (lockOnCommit : Bool) (s : State) : Res :=
  let p := s.hosts[h]
  let d := p.hdm[dec]
  if !p.linkUp || d.locked then .next s
  else
    let prev : Hdm := p.hdm.toList.getD (dec.val - 1) {}
    let start := (if dec.val = 0 then 0 else prev.dpaEnd) + skip.toNat
    let n : Hdm := { base := base.toNat, size := size.toNat, ways := ways.toNat, gran := gran.toNat, skip := skip.toNat,
                     lockOnCommit := lockOnCommit, dpa := start }
    let bad := !hdmShapeOk n.ways n.gran || n.base % hdmUnit != 0 || n.size % hdmUnit != 0 || n.skip % hdmUnit != 0 ||
      (dec.val != 0 && !prev.committed) || decide (2 ^ 50 < n.dpaEnd)
    let n := if bad then { n with error := true } else { n with committed := true, locked := lockOnCommit }
    .next (s.modHost h (fun p => { p with hdm := vput p.hdm dec n }))

/-- The pool address of an HPA under a decoder: the interleave bits are taken out (R317, R318). -/
def Hdm.pool (d : Hdm) (hpa : Nat) : Nat :=
  let off := hpa - d.base
  d.dpa + off / (d.ways * d.gran) * d.gran + off % d.gran
/-- A committed decoder covers an HPA. -/
def Hdm.hits (d : Hdm) (hpa : Nat) : Bool := d.committed && decide (d.base ≤ hpa) && decide (hpa < d.base + d.size)

/-- The pool address of an HPA at a host port (R318). -/
def CxlPort.decode (p : CxlPort) (hpa : Nat) : Option Nat := (p.hdm.toList.find? (fun d => d.hits hpa)).map (fun d => d.pool hpa)

/-! The segment map (R320-R324). -/

def segValid (e : W64) : Bool := bit e 63
def segIl (e : W64) : Bool := bit e 62
def segCls (e : W64) : BitVec 4 := e.extractLsb' 56 4
def segWays (e : W64) : Nat := fieldN e 52 3
def segNode (e : W64) : BitVec 12 := e.extractLsb' 40 12
def segBase (e : W64) : Nat := fieldN e 30 10 * 1073741824

/-- Member i of an interleave set (R320). -/
def isetMember (x : BitVec 256) (i : Nat) : BitVec 12 := x.extractLsb' (16 * i) 12

/-- The target of a pool address: node and local address (R321). NODE 0xFFF stands for this node (R401). -/
def State.segTarget (s : State) (e : W64) (pool : Nat) : BitVec 12 × Nat :=
  let off := pool % 17179869184
  let here := fun (n : BitVec 12) => if n = 0xFFF#12 then s.fab.nodeId else n
  if !segIl e then (here (segNode e), segBase e + off)
  else
    let w := 2 ^ segWays e
    let c := off / 4096
    (here (isetMember (smGetD s.cmd.isets (segNode e).toNat 0) (c % w)), segBase e + c / w * 4096 + off % 4096)

/-- A segment map entry that R322 and R323 allow. -/
def segEntryOk (e : W64) (base : Nat) : Bool :=
  let w := if segIl e then 2 ^ segWays e else 1
  fieldN e 60 2 == 0 && !bit e 55 && fieldN e 0 30 == 0 && segCls e != 15#4 &&
  (if segIl e then decide (1 ≤ segWays e) && decide (segWays e ≤ 4) else segWays e == 0) &&
  base % (17179869184 / w) == 0 && decide (base + 17179869184 / w ≤ 2 ^ 40)
/-- The entry with another LOCAL_BASE. -/
def segWithBase (e : W64) (base : Nat) : W64 := (e &&& ~~~(0xFFC0000000#64)) ||| at64 30 (base / 1073741824 % 1024)

/-- Host requests in progress whose segment, and the entry that they looked up for it, satisfy `p` (R324). -/
def State.segLookups (s : State) (p : Nat → W64 → Bool) : List (Fin 8 × BitVec 16) :=
  (fins 8).flatMap (fun h => ((s.hosts[h].pend).filter (fun x => p (x.pool.toNat / 17179869184) x.entry)).map (fun x => (h, x.req)))
/-- Answer once the old lookups have completed (R324). -/
def State.afterSegs (s : State) (olds : List (Fin 8 × BitVec 16)) : State × CmdOut :=
  if olds.isEmpty then s.okay
  else ({ s with cmd := { s.cmd with nextPolicy := s.cmd.nextPolicy + 1 } }, .wait (.segments s.cmd.nextPolicy olds 0))

/-- SEGMENT_SET (R320, R323, R324): the entries go to the map's cache and to the command area. -/
def cmdSegmentSet (first count : BitVec 16) (entry stride : W64) : CmdFn := fun s =>
  let f := first.toNat
  let n := count.toNat
  let base := fun (i : Nat) => segBase entry + i * stride.toNat
  checked [
    (n = 0 || decide (4096 < n) || decide (65536 < f + n) || stride.toNat % 17179869184 != 0, .badParam),
    ((List.range n).any (fun i => !segEntryOk entry (base i)), .badParam)]
    (fun s =>
      let olds := s.segLookups (fun g _ => decide (f ≤ g) && decide (g < f + n))
      let segs := (List.range n).foldl (fun (m : SMap W64) i =>
        let e := segWithBase entry (base i)
        if e = 0 then smDel m (f + i) else smPut m (f + i) e) s.cmd.segs
      (({ s with cmd := { s.cmd with segs := segs } }).copyOut (8 * f)
        ((List.range n).flatMap (fun i => toBytes (segWithBase entry (base i)) 8))).afterSegs olds) s

def execSegmentSet (c : CmdCtx) (first count : BitVec 16) (entry stride : W64) (s : State) : Res :=
  .next (s.command c 0x0607 true (cmdSegmentSet first count entry stride))

/-- ISET_SET (R320, R323, R324, R334). -/
def cmdIsetSet (set : BitVec 16) (members : BitVec 256) : CmdFn := fun s =>
  let n := set.toNat
  checked [(decide (4096 ≤ n) || (List.range 16).any (fun i => fieldN members (16 * i + 12) 4 != 0), .badParam)]
    (fun s =>
      let olds := s.segLookups (fun _ e => segIl e && (segNode e).toNat == n)
      let isets := if members = 0 then smDel s.cmd.isets n else smPut s.cmd.isets n members
      (({ s with cmd := { s.cmd with isets := isets } }).copyOut (0x80000 + 32 * n) (toBytes members 32)).afterSegs olds) s

def execIsetSet (c : CmdCtx) (set : BitVec 16) (members : BitVec 256) (s : State) : Res :=
  .next (s.command c 0x0608 true (cmdIsetSet set members))

/-! Requests on CXL.mem (R325-R328). -/

/-- The identity of host port h (R21, R325). -/
def State.hostId (s : State) (h : Fin 8) : MasterId := s.self h.val
/-- HOST[h].LAST_ERR (R333). -/
def lastErrOf (st : CStatus) (write miss : Bool) (a : Nat) : W64 :=
  at64 60 st.code ||| at64 59 (b2n write) ||| at64 58 (b2n miss) ||| at64 0 (a % 2 ^ 50)

/-- A read answered with Poison and zero data (R327, R328). -/
def State.poisonRead (s : State) (h : Fin 8) (tag : BitVec 16) (st : CStatus) (miss : Bool) (a : Nat) : State :=
  (s.emit (.memData h tag 0 true)).modHost h (fun p => { p with rdPoison := satAdd p.rdPoison 1, lastErr := lastErrOf st false miss a })
/-- A write answered with Cmp and reported (R328): `ga` is the address that HOST_WR_REFUSED carries. -/
def State.refusedWrite (s : State) (h : Fin 8) (tag : BitVec 16) (access : Nat) (st : CStatus) (miss : Bool) (a ga : Nat) : State :=
  ((s.emit (.cmp h tag)).modHost h (fun p => { p with wrRefused := satAdd p.wrRefused 1, lastErr := lastErrOf st true miss a })).logAddr
    (evHostWrRefused h.val) ga access (s.hostId h) st.code

/-- HOST_ADDR_MISS (R327). `a` is the pool address, or bits [49:0] of the HPA where no decoder hit. -/
def State.addrMiss (s : State) (h : Fin 8) (tag : BitVec 16) (kind : ReqKind) (a : Nat) : State :=
  let a := a % 2 ^ 50
  let s := s.modHost h (fun p => { p with addrMiss := satAdd p.addrMiss 1 })
  let s := s.logAddr (evHostAddrMiss h.val) a (accessOf kind) (s.hostId h) CStatus.notPermitted.code
  if isWrite kind then s.refusedWrite h tag (accessOf kind) .notPermitted true a a else s.poisonRead h tag .notPermitted true a

/-- The port accepts CXL.mem requests now (R329-R331). -/
def State.hostAccepts (s : State) (h : Fin 8) : Bool := s.dieUp && (s.hosts[h]).linkUp && (s.hosts[h]).accepting

/-- The boot-state mapping of R319 is in force. -/
def State.bootMap (s : State) : Bool := s.inBoot || decide (s.boot.phase = .fuseAlarm)

/-- A request to the boot window through H0 (R319, R394). -/
def State.windowMem (s : State) (h : Fin 8) (tag : BitVec 16) (kind : ReqKind) (pool : Nat) : State :=
  let x := pool / 64 * 64
  let ga := s.fab.nodeId.toNat * 2 ^ 40 + x
  let refuse := s.refusedWrite h tag (accessOf kind) .notPermitted false pool ga
  match kind with
  | .lineWrite d _ => if s.winTakes x then (s.winStore x (toBytes d 64)).emit (.cmp h tag) else refuse
  | .partialWrite d k =>
    if s.winTakes x then
      (s.winStore x ((List.range 64).map (fun i => if bit k i then byteOf d i else nth (s.winRead x 64) i 0))).emit (.cmp h tag)
    else refuse
  | _ => s.emit (.memData h tag (ofBytes 512 (s.winRead x 64)) false)

/-- Look up the segment map; the lookup cache may miss (a free value decides, log entry 3). -/
def State.segLookup (s : State) (h : Fin 8) (pool : Nat) : State × W64 :=
  let n := (Config.freeValue s.free).toNat % 2
  ((s.bump.modHost h (fun p => { p with segMiss := satAdd p.segMiss n })), smGetD s.cmd.segs (pool / 17179869184) 0)

/-- A CXL.mem request is decoded and turned into a request of the port (R318, R319, R321, R325, R405), whose TAG
the port chooses (DESIGN CHOICE, log entry 106). -/
def State.hostRequest (s : State) (h : Fin 8) (hpa : BitVec 52) (tag : BitVec 16) (kind : ReqKind) : State :=
  if !s.hostAccepts h then s
  else match (s.hosts[h]).decode hpa.toNat with
    | none => s.addrMiss h tag kind hpa.toNat
    | some pool =>
      if s.bootMap then
        if s.inBoot && s.boot.cxlPath && h = 0 && pool < 4194304 then s.windowMem h tag kind pool else s.addrMiss h tag kind pool
      else if s.boot.phase = .starting then s.addrMiss h tag kind pool
      else
        let x := s.segLookup h pool
        let s := x.1
        let e := x.2
        if !segValid e then s.addrMiss h tag kind pool
        else
          let t := s.segTarget e pool
          let k := (s.hosts[h]).nextTag
          let r : Req := { master := s.hostId h, tag := k, cls := segCls e, node := t.1, addr := BitVec.ofNat 40 t.2, kind := kind,
                           origin := .port (portHost h) 0 }
          let q : HostPend := { tag := tag, req := k, write := isWrite kind, pool := BitVec.ofNat 50 pool, node := t.1, addr := r.addr, entry := e }
          (s.modHost h (fun p => { p with pend := p.pend ++ [q], nextTag := k + 1 })).portIssue (portHost h) r

/-- MEM_RD (R325). -/
def execMemRd (h : Fin 8) (hpa : BitVec 52) (tag : BitVec 16) (s : State) : Res := .next (s.hostRequest h hpa tag .lineRead)
/-- MEM_WR (R325). -/
def execMemWr (h : Fin 8) (hpa : BitVec 52) (tag : BitVec 16) (data : BitVec 512) (poison : Bool) (s : State) : Res :=
  .next (s.hostRequest h hpa tag (.lineWrite data poison))
/-- MEM_WR_PTL (R325): with Poison set the whole line is stored poisoned. -/
def execMemWrPtl (h : Fin 8) (hpa : BitVec 52) (tag : BitVec 16) (data : BitVec 512) (mask : BitVec 64) (poison : Bool) (s : State) : Res :=
  .next (s.hostRequest h hpa tag (if poison then .lineWrite data true else .partialWrite data mask))
/-- MEM_SPEC_RD (R325): dropped. -/
def execMemSpecRd (_h : Fin 8) (_hpa : BitVec 52) (s : State) : Res := .next s
/-- MEM_INV (R325). -/
def execMemInv (h : Fin 8) (_hpa : BitVec 52) (tag : BitVec 16) (s : State) : Res :=
  .next (if s.hostAccepts h then s.emit (.cmp h tag) else s)
/-- MEM_RD_FWD (R325): MemRdFwd or MemWrFwd, counted. -/
def execMemRdFwd (h : Fin 8) (_hpa : BitVec 52) (s : State) : Res :=
  .next (if s.hostAccepts h then s.modHost h (fun p => { p with proto := satAdd p.proto 1 }) else s)

/-- A completion becomes the CXL response (R327, R328). -/
def State.respond (s : State) (h : Fin 8) (c : Completion) : State :=
  match (s.hosts[h].pend).find? (fun x => x.req = c.req.tag) with
  | none => s
  | some q =>
    let s := s.modHost h (fun p => { p with pend := p.pend.erase q })
    if q.write then
      if c.status = .ok then s.emit (.cmp h q.tag)
      else s.refusedWrite h q.tag (accessOf c.req.kind) c.status false q.pool.toNat (q.node.toNat * 2 ^ 40 + c.req.addr.toNat)
    else if c.status = .ok then s.emit (.memData h q.tag (nth c.data 0 0) false)
    else s.poisonRead h q.tag c.status false q.pool.toNat

/-- CXL_COMPLETION_MAP (R327): the next completion at the port is answered on the host link. -/
def execCxlCompletionMap (h : Fin 8) (s : State) : Res :=
  match (s.mports[portHost h]).delivered with
  | [] => .next s
  | c :: rest => .next ((s.modMport (portHost h) (fun p => { p with delivered := rest })).respond h c)

/-! Configuration space (R310, R312, R314). -/

/-- Device ID of R312. -/
def deviceId : Variant → Nat
  | .kv9216 => 0x9216
  | .kv9208 => 0x9208

/-- The identification fields of R312. -/
def State.cfgId (s : State) (which : Nat) : Nat :=
  match which with
  | 0 | 4 => 0x1FB7
  | 1 | 5 => deviceId s.glb.variant
  | 2 => 0x01
  | 3 => 0x050210
  | 6 => (s.serial.setWidth 32).toNat
  | 7 => (s.serial.extractLsb' 32 32).toNat
  | _ => 0

/-- Sizes of BAR0/1 and BAR2/3 (R312). -/
def barSize (bar2 : Bool) : W64 := if bar2 then 0x1000000#64 else 0x20000#64

/-- Function Level Reset (R310): the CXL.io function state only. -/
def CxlPort.flr (p : CxlPort) : CxlPort :=
  { p with command := 0, bar0 := 0, bar2 := 0, d3hot := false, msixEn := false, msixMask := false, msix := [], pba := 0, evtPolicy := 0 }
/-- The DVSECs that a host port implements (R313): CXL Device, Non-CXL Function Map, Flex Bus Port, Register Locator. -/
def dvsecIds : List Nat := [0, 2, 7, 8]
/-- The control register of an HDM decoder: interleave granularity and ways, lock, commit, committed, Error Not Committed. -/
def Hdm.control (d : Hdm) : W64 :=
  at64 0 (Nat.log2 (d.gran / 256)) ||| at64 4 (Nat.log2 d.ways) ||| at64 8 (b2n d.lockOnCommit) ||| at64 9 (b2n (d.committed || d.error)) |||
    at64 10 (b2n d.committed) ||| at64 11 (b2n d.error)

/-- Memory_Active (R313): the boot ROM is ready. -/
def State.memoryActive (s : State) : Bool := !s.dieInReset
/-- The effect of a configuration access, and the data it returns. Field places of the DVSEC and of the device status are
those of CXL 2.0 (log entry 42). -/
def State.config (s : State) (h : Fin 8) (op : ConfigOp) : State × W64 :=
  let p := s.hosts[h]
  match op with
  | .readId w => (s, BitVec.ofNat 64 (s.cfgId w.val))
  | .readCommand => (s, p.command.setWidth 64)
  | .writeCommand v => (s.modHost h (fun p => { p with command := v }), 0)
  | .readBar b => (s, (if b then p.bar2 else p.bar0) ||| 4)
  | .writeBar b v =>
    let a := v &&& ~~~(barSize b - 1)
    (s.modHost h (fun p => if b then { p with bar2 := a } else { p with bar0 := a }), 0)
  | .readPower => (s, if p.d3hot then 3 else 0)
  | .writePower d => (s.modHost h (fun p => { p with d3hot := d }), 0)
  | .writeMsixCtl e k => (s.modHost h (fun p => { p with msixEn := e, msixMask := k }), 0)
  | .writeMsixEntry v a d k => (s.modHost h (fun p => { p with msix := smPut p.msix v.toNat { addr := a, data := d, masked := k } }), 0)
  | .readMsixEntry v hi =>
    let e := smGetD p.msix v.toNat {}
    (s, if hi then at64 32 (b2n e.masked) ||| e.data.setWidth 64 else e.addr)
  | .readHdm d w =>
    let x := p.hdm[d]
    (s, match w.val with
      | 0 => BitVec.ofNat 64 x.base
      | 1 => BitVec.ofNat 64 x.size
      | 2 => x.control
      | _ => BitVec.ofNat 64 x.skip)
  | .readDvsec i => (s, BitVec.ofNat 64 (nth dvsecIds i.val 0))
  | .readPba w => (s, if w.val < 4 then p.pba.extractLsb' (64 * w.val) 64 else 0)
  | .readCxlCap => (s, at64 1 1 ||| at64 2 1 ||| at64 4 1)
  | .readRange1 => (s, at64 50 1 ||| at64 0 1 ||| at64 1 (b2n s.memoryActive))
  | .readMediaStatus => (s, at64 2 (b2n s.memoryActive))
  | .flr => (s.modHost h CxlPort.flr, 0)

/-- CONFIG_REQUEST (R312). -/
def execConfigRequest (h : Fin 8) (op : ConfigOp) (s : State) : Res :=
  if s.dieUp && (s.hosts[h]).linkUp then
    let r := s.config h op
    .next (r.1.emit (.cfgCpl h r.2))
  else .next s

/-! The primary mailbox (R316). Payload layouts are those of CXL 2.0 (log entry 42). -/

/-- Answer a primary mailbox command. -/
def State.mailbox (s : State) (h : Fin 8) (payload : List Byte) (unsupported : Bool := false) : State :=
  if s.dieUp && (s.hosts[h]).linkUp && !(s.hosts[h]).d3hot then s.emit (.mailbox h unsupported payload) else s

/-- Identify Memory Device: capacities in multiples of 256 MiB. -/
def identifyPayload : List Byte :=
  List.replicate 16 0 ++ toBytes 4194304#64 8 ++ toBytes 4194304#64 8 ++ List.replicate 35 0
/-- Opcodes that the mailbox supports, with their command effects. -/
def celEntries : List (Nat × Nat) :=
  [(0x0100, 0), (0x0101, 0), (0x0102, 0), (0x0103, 2), (0x0400, 0), (0x0401, 0), (0x4000, 0)]
/-- The Command Effects Log. -/
def celPayload : List Byte := celEntries.flatMap (fun x => toBytes (BitVec.ofNat 16 x.1) 2 ++ toBytes (BitVec.ofNat 16 x.2) 2)
/-- The UUID of the Command Effects Log. -/
def celUuid : List Byte :=
  [0x0D, 0xA9, 0xC0, 0xB5, 0xBF, 0x41, 0x4B, 0x78, 0x8F, 0x79, 0x96, 0xB1, 0x62, 0x3B, 0x3F, 0x17]

/-- IDENTIFY_MEMORY_DEVICE. -/
def execIdentifyMemoryDevice (h : Fin 8) (s : State) : Res := .next (s.mailbox h identifyPayload)
/-- GET_SUPPORTED_LOGS. -/
def execGetSupportedLogs (h : Fin 8) (s : State) : Res :=
  .next (s.mailbox h (toBytes 1#16 2 ++ List.replicate 6 0 ++ celUuid ++ toBytes (BitVec.ofNat 32 celPayload.length) 4))
/-- GET_LOG: bytes of the Command Effects Log. -/
def execGetLog (h : Fin 8) (offset length : Nat) (s : State) : Res := .next (s.mailbox h ((celPayload.drop offset).take length))
/-- GET_EVENT_RECORDS: every event log is empty. -/
def execGetEventRecords (h : Fin 8) (s : State) : Res := .next (s.mailbox h (List.replicate 32 0))
/-- CLEAR_EVENT_RECORDS. -/
def execClearEventRecords (h : Fin 8) (s : State) : Res := .next (s.mailbox h [])
/-- GET_EVENT_INTERRUPT_POLICY. -/
def execGetEventInterruptPolicy (h : Fin 8) (s : State) : Res := .next (s.mailbox h (toBytes (s.hosts[h]).evtPolicy 4))
/-- SET_EVENT_INTERRUPT_POLICY. -/
def execSetEventInterruptPolicy (h : Fin 8) (policy : W32) (s : State) : Res :=
  if s.dieUp && (s.hosts[h]).linkUp && !(s.hosts[h]).d3hot then
    .next ((s.modHost h (fun p => { p with evtPolicy := policy })).mailbox h [])
  else .next s
/-- UNSUPPORTED_MAILBOX_CMD. -/
def execUnsupportedMailboxCmd (h : Fin 8) (opcode : BitVec 16) (s : State) : Res :=
  if celEntries.any (fun x => x.1 == opcode.toNat) then .next s else .next (s.mailbox h [] true)

/-! Resets and link loss (R329-R331). -/

/-- The sub-link that carries host port h. -/
def hostSub (h : Fin 8) : SubLink := { port := hostPortOf h, sub := 0 }

/-- The host link leaves L0 (R330): its Kerb lifts every limit (R227); no further request is accepted, completions still owed are discarded when they come,
and those delivered and not sent are discarded now. -/
def State.hostDown (s : State) (h : Fin 8) (lstate : LState) : State :=
  let s := if cxlMode s.ports[hostPortOf h].mode then s.modSub (hostSub h) (fun u => { u with lstate := lstate, lanes := 0, rate := 0, rateDone := false }) else s
  let got := (s.mports[portHost h]).delivered
  let s := (s.modMport (portHost h) (fun p => { p with delivered := [] })).modKerb (portHost h) (fun k => { k with lifted := true })
  s.modHost h (fun p => { p with
    linkUp := false, accepting := false, width := 0, rate := 0,
    pend := (p.pend.filter (fun x => !got.any (fun c => c.req.tag == x.req))).map (fun x => { x with lost := true }),
    discarded := satAdd p.discarded got.length })

/-- PERST_ASSERT (R329): no effect on a port that is OFF or while DEV_RST_N is low. -/
def execPerstAssert (h : Fin 8) (s : State) : Res :=
  let s := s.modHost h (fun p => { p with perst := true })
  .next (if !s.boot.devRstHigh || s.ports[hostPortOf h].fn.st = .off then s else s.hostDown h .detect)

/-- PERST_DEASSERT (R329): the port's configuration state takes its reset values, and the link trains. -/
def execPerstDeassert (h : Fin 8) (s : State) : Res :=
  if !(s.hosts[h]).perst then .next s
  else
    let s := s.modHost h (fun p => { p with perst := false })
    .next (if !s.boot.devRstHigh || s.ports[hostPortOf h].fn.st = .off then s else s.modHost h CxlPort.conventionalReset)

/-- HOT_RESET (R329). -/
def execHotReset (h : Fin 8) (s : State) : Res :=
  if (s.hosts[h]).linkUp then .next ((s.modHost h (fun p => { p with hotReset := true })).hostDown h .detect) else .next s

/-- LINK_DISABLE (R329); Disabled shows as DOWN (R262). -/
def execLinkDisable (h : Fin 8) (s : State) : Res :=
  if (s.hosts[h]).linkUp then .next ((s.modHost h (fun p => { p with linkDisabled := true })).hostDown h .down) else .next s

/-- HOT_RESET_END (R329): the hot reset or link disable ends. -/
def execHotResetEnd (h : Fin 8) (s : State) : Res :=
  if (s.hosts[h]).hotReset || (s.hosts[h]).linkDisabled then
    let s := s.modHost h (fun p => { p.conventionalReset with hotReset := false, linkDisabled := false })
    .next (if cxlMode s.ports[hostPortOf h].mode then s.modSub (hostSub h) (fun u => { u with lstate := .detect }) else s)
  else .next s

/-- A host link lost from L0 (R330): as a hot reset. -/
def State.hostLost (s : State) (h : Fin 8) : State :=
  if (s.hosts[h]).linkUp then (s.hostDown h .detect).modHost h CxlPort.conventionalReset else s

/-- HOST_LINK_LOSS (R330). -/
def execHostLinkLoss (h : Fin 8) (s : State) : Res := .next (s.hostLost h)

/-- A port that leaves ON stops accepting (R331 step 1). -/
def State.hostStop (s : State) (h : Fin 8) : State := s.modHost h (fun p => { p with accepting := false })

/-- The host port leaves ON: its port stops, or the stack runs a warm-reset sequence (R331). -/
def State.hostLeaving (s : State) (h : Fin 8) : Bool :=
  s.ports[hostPortOf h].fn.st = .stopping || (match s.boot.phase with | .warm _ => true | _ => false)

/-- HOST_PORT_LEAVE_ON (R331): it stops accepting; once it owes no completion it disables the link. -/
def execHostPortLeaveOn (h : Fin 8) (s : State) : Res :=
  if !s.hostLeaving h then .next s
  else
    let s := s.hostStop h
    if (s.hosts[h].pend).isEmpty && (match s.boot.phase with | .warm _ => false | _ => true) then .next (s.hostDown h .down) else .next s

/-! HOST registers (R333). -/

/-- Read of a HOST register. -/
def State.hostRead (s : State) (h : Fin 8) (o : Nat) : W32 :=
  let p := s.hosts[h]
  match o with
  | 0x000 =>
    at32 31 (b2n p.linkUp) ||| at32 30 (b2n p.perst) ||| at32 29 (b2n s.bootMap) ||| at32 24 p.width.toNat ||| at32 21 p.rate.toNat |||
      p.linkGen.setWidth 32
  | 0x004 => at32 16 (deviceId s.glb.variant) ||| at32 0 0x1FB7
  | 0x008 => p.lastErr.setWidth 32
  | 0x00C => p.lastErr.extractLsb' 32 32
  | 0x010 => p.rdPoison
  | 0x014 => p.wrRefused
  | 0x018 => p.addrMiss
  | 0x01C => p.discarded
  | 0x020 => p.proto
  | 0x024 => p.segMiss
  | _ => 0

/-- The clearing effect of reading an RC register of HOST. -/
def CxlPort.clear (p : CxlPort) (o : Nat) : CxlPort :=
  match o with
  | 0x010 => { p with rdPoison := 0 }
  | 0x014 => { p with wrRefused := 0 }
  | 0x018 => { p with addrMiss := 0 }
  | 0x01C => { p with discarded := 0 }
  | 0x020 => { p with proto := 0 }
  | 0x024 => { p with segMiss := 0 }
  | _ => p

end Sys2Proof.Machine
end

