-- ==== Sys2Proof/Machine/Mailbox.lean ====
section
/-! DEFINITION. Mailboxes and doorbells: bindings and the lock, access to a channel, notification, crossings, messages
over the fabric, and the MBX registers (14_mailboxes, R364-R376). -/

namespace Sys2Proof.Machine

/-- A side of a channel. -/
inductive MbxSide where
  | a | b
deriving DecidableEq, Repr

/-! Bindings (R364-R366). -/

def beValid (e : W32) : Bool := bit e 31
def bePort (e : W32) : Fin 8 := ⟨fieldN e 28 3 % 8, Nat.mod_lt _ (by decide)⟩
def beVector (e : W32) : BitVec 8 := e.extractLsb' 20 8

/-- Agents that R21 assigns. -/
def agentAssigned (a : Nat) : Bool :=
  decide (a ≤ 0x07) || (0x10 ≤ a && a ≤ 0x53) || (0x58 ≤ a && a ≤ 0x5B)

/-- The identity of a binding with this node's ID for 0xFFF (R364). -/
def State.beIdentity (s : State) (e : W32) : MasterId := s.ownerId (e.setWidth 20)
/-- The channel is bound. -/
def Mbx.bound (x : Mbx) : Bool := beValid x.bindA && beValid x.bindB
/-- The checks of one valid entry (R366). -/
def entryOk (e : W32) : Bool :=
  !beValid e || (!(1 ≤ (beVector e).toNat && (beVector e).toNat ≤ 7) && agentAssigned (fieldN e 0 8))
/-- The two identities are equal. -/
def State.sameIdentity (s : State) (a b : W32) : Bool := beValid a && beValid b && decide (s.beIdentity a = s.beIdentity b)

/-- A channel as MBX_BIND leaves it (R366). -/
def Mbx.rebind (a b : W32) : Mbx := { bindA := a, bindB := b }

/-- MBX_BIND (R366). The direct slot refuses it. -/
def cmdMbxBind (c : CmdCtx) (channel : BitVec 8) (a b : W32) : CmdFn := fun s =>
  let direct := match c.src with | .direct _ _ => true | _ => false
  let ch : Fin 64 := ⟨channel.toNat % 64, Nat.mod_lt _ (by decide)⟩
  checked [
    (direct, .notPermitted),
    (s.mbx.lock, .locked),
    (decide (64 ≤ channel.toNat) || beValid a != beValid b || !entryOk a || !entryOk b || s.sameIdentity a b, .badParam),
    (channel = 63, .notPermitted)]
    (fun s => (s.modMbx ch (fun _ => Mbx.rebind a b)).okay) s

def execMbxBind (c : CmdCtx) (channel : BitVec 8) (a b : W32) (s : State) : Res :=
  .next (s.command c 0x0004 true (cmdMbxBind c channel a b))

/-- Bound channels. -/
def MbxAll.boundCount (x : MbxAll) : Nat := countIf x.ch.toList Mbx.bound

/-- MBX_LOCK (R366). -/
def cmdMbxLock (c : CmdCtx) : CmdFn := fun s =>
  let direct := match c.src with | .direct _ _ => true | _ => false
  checked [(direct, .notPermitted)]
    (fun s => ({ s with mbx := { s.mbx with lock := true } }).okay (res64 s.mbx.boundCount)) s

def execMbxLock (c : CmdCtx) (s : State) : Res := .next (s.command c 0x0005 true (cmdMbxLock c))

/-- A direct write of a binding by a control core (R366): ignored after the lock or where a check fails. The check that
VALID agrees between the entries is left to MBX_BIND, since a write changes one entry (log entry 43). -/
def State.bindWrite (s : State) (ch : Fin 64) (sideA : Bool) (v : W32) : State :=
  let x := s.mbx.ch[ch]
  if s.mbx.lock || !entryOk v || s.sameIdentity v (if sideA then x.bindB else x.bindA) then s
  else s.modMbx ch (fun x => if sideA then { x with bindA := v } else { x with bindB := v })

/-! Sides and partners (R367, R370). -/

/-- The side that an identity is of a channel. -/
def State.mbxSide (s : State) (x : Mbx) (m : MasterId) : Option MbxSide :=
  if !x.bound then none
  else if s.beIdentity x.bindA = m then some .a
  else if s.beIdentity x.bindB = m then some .b
  else none

/-- District d is STOPPING or OFF. -/
def State.distGoing (s : State) (d : Fin 8) : Bool := s.dist[d].fn.st = .stopping || s.dist[d].fn.st = .off

/-- The side of an entry is down, and the status that a write to it takes (R370). -/
def State.sideDown (s : State) (e : W32) : Option CStatus :=
  let m := s.beIdentity e
  let a := (MasterId.agent m).toNat
  if MasterId.node m ≠ s.fab.nodeId then
    (match (s.route (MasterId.node m)).2 with | .down => some .pathDown | _ => none)
  else if a < 8 then (if s.distGoing ⟨a % 8, Nat.mod_lt _ (by decide)⟩ then some .domainDown else none)
  else if 0x10 ≤ a && a < 0x50 then (if s.distGoing ⟨(a - 0x10) / 8 % 8, Nat.mod_lt _ (by decide)⟩ then some .domainDown else none)
  else none

/-- Notify a side (R369). -/
def State.mbxNotify (s : State) (e : W32) : State := if beVector e = 0 then s else s.msix (bePort e) (beVector e)

/-- A refused access (R367): counted in REJECT, and in LAST for a side. -/
def State.mbxReject (s : State) (ch : Fin 64) (side : Option MbxSide) (st : CStatus) (count : Bool := true) : State :=
  let s := if count then { s with mbx := { s.mbx with reject := satAdd s.mbx.reject 1 } } else s
  match side with
  | some .a => s.modMbx ch (fun x => { x with lastA := BitVec.ofNat 4 st.code })
  | some .b => s.modMbx ch (fun x => { x with lastB := BitVec.ofNat 4 st.code })
  | none => s

/-! Message words and doorbells (R367-R371). -/

/-- Side `side` stores its outgoing word. -/
def State.mbxSend (s : State) (ch : Fin 64) (side : MbxSide) (v : W32) : State :=
  let x := s.mbx.ch[ch]
  let t := s.now
  match side with
  | .a =>
    if x.a2bFull then s.modMbx ch (fun x => { x with a2b := v, aOver := true })
    else
      let cross := x.b2aFull && decide (t ≤ x.b2aSince + 1000)
      (s.modMbx ch (fun x => { x with
        a2b := v, a2bFull := true, a2bSince := t, crossed := x.crossed || cross,
        crossCount := if cross then satAdd x.crossCount 1 else x.crossCount })).mbxNotify x.bindB
  | .b =>
    if x.b2aFull then s.modMbx ch (fun x => { x with b2a := v, bOver := true })
    else
      let cross := x.a2bFull && decide (t ≤ x.a2bSince + 1000)
      (s.modMbx ch (fun x => { x with
        b2a := v, b2aFull := true, b2aSince := t, crossed := x.crossed || cross,
        crossCount := if cross then satAdd x.crossCount 1 else x.crossCount })).mbxNotify x.bindA

/-- Set bits in the doorbell of the partner of `side`. -/
def State.mbxRing (s : State) (ch : Fin 64) (side : MbxSide) (v : W32) : State :=
  let x := s.mbx.ch[ch]
  match side with
  | .a =>
    let s' := s.modMbx ch (fun x => { x with dbB := x.dbB ||| v })
    if v &&& ~~~x.dbB &&& x.maskB = 0 then s' else s'.mbxNotify x.bindB
  | .b =>
    let s' := s.modMbx ch (fun x => { x with dbA := x.dbA ||| v })
    if v &&& ~~~x.dbA &&& x.maskA = 0 then s' else s'.mbxNotify x.bindA

/-- The entry of the partner of a side. -/
def Mbx.partner (x : Mbx) (side : MbxSide) : W32 := match side with | .a => x.bindB | .b => x.bindA

/-- A write that reaches towards the partner: refused while the partner is down (R370). -/
def State.mbxToward (s : State) (ch : Fin 64) (side : MbxSide) (f : State → State) : State × CStatus :=
  match s.sideDown ((s.mbx.ch[ch]).partner side) with
  | some st => (s.mbxReject ch (some side) st false, st)
  | none => (f s, .ok)

/-- Write of a register of a channel by an identity; `core`: it is a control core (R367). -/
def State.mbxWrite (s : State) (core : Bool) (m : MasterId) (ch : Fin 64) (o : Nat) (v : W32) : State × CStatus :=
  let x := s.mbx.ch[ch]
  let side := s.mbxSide x m
  let no : State × CStatus := (s.mbxReject ch side .notPermitted, .notPermitted)
  match o with
  | 0x00 => if core then (s.bindWrite ch true v, .ok) else no
  | 0x04 => if core then (s.bindWrite ch false v, .ok) else no
  | 0x08 =>
    if side.isSome then
      (s.modMbx ch (fun x => { x with crossed := x.crossed && !bit v 29, aOver := x.aOver && !bit v 28, bOver := x.bOver && !bit v 27 }), .ok)
    else no
  | 0x0C => match side with | some .a => s.mbxToward ch .a (fun s => s.mbxSend ch .a v) | _ => no
  | 0x10 => match side with | some .b => s.mbxToward ch .b (fun s => s.mbxSend ch .b v) | _ => no
  | 0x14 =>
    match side with
    | some .a => (s.modMbx ch (fun x => { x with dbA := x.dbA &&& ~~~v }), .ok)
    | some .b => s.mbxToward ch .b (fun s => s.mbxRing ch .b v)
    | none => no
  | 0x18 => match side with | some .a => (s.modMbx ch (fun x => { x with maskA := v }), .ok) | _ => no
  | 0x1C =>
    match side with
    | some .b => (s.modMbx ch (fun x => { x with dbB := x.dbB &&& ~~~v }), .ok)
    | some .a => s.mbxToward ch .a (fun s => s.mbxRing ch .a v)
    | none => no
  | 0x20 => match side with | some .b => (s.modMbx ch (fun x => { x with maskB := v }), .ok) | _ => no
  | 0x24 => if side.isSome then (s, .ok) else no
  | _ => (s, .ok)

/-- MBX[c].STATUS (R376). -/
def State.mbxStatus (s : State) (x : Mbx) : W32 :=
  at32 31 (b2n x.a2bFull) ||| at32 30 (b2n x.b2aFull) ||| at32 29 (b2n x.crossed) ||| at32 28 (b2n x.aOver) ||| at32 27 (b2n x.bOver) |||
    at32 26 (b2n (x.bound && (s.sideDown x.bindA).isSome)) ||| at32 25 (b2n (x.bound && (s.sideDown x.bindB).isSome)) |||
    at32 24 (b2n x.bound) ||| at32 16 x.crossCount.toNat

/-- The value of a register of a channel. -/
def State.mbxValue (s : State) (ch : Fin 64) (o : Nat) : W32 :=
  let x := s.mbx.ch[ch]
  match o with
  | 0x00 => x.bindA
  | 0x04 => x.bindB
  | 0x08 => s.mbxStatus x
  | 0x0C => x.a2b
  | 0x10 => x.b2a
  | 0x14 => x.dbA
  | 0x18 => x.maskA
  | 0x1C => x.dbB
  | 0x20 => x.maskB
  | 0x24 => at32 28 x.lastA.toNat ||| at32 24 x.lastB.toNat
  | _ => 0

/-- What reading a register changes: the receiving side's read empties a word (R367), a read clears LAST. -/
def State.mbxReadEffect (s : State) (ch : Fin 64) (side : Option MbxSide) (o : Nat) : State :=
  match o, side with
  | 0x0C, some .b => s.modMbx ch (fun x => { x with a2bFull := false })
  | 0x10, some .a => s.modMbx ch (fun x => { x with b2aFull := false })
  | 0x24, _ => s.modMbx ch (fun x => { x with lastA := 0, lastB := 0 })
  | _, _ => s

/-- Message words and doorbells. -/
def mbxWord (o : Nat) : Bool := o == 0x0C || o == 0x10 || o == 0x14 || o == 0x1C

/-- Read of a register of a channel by an identity (R367). -/
def State.mbxRead (s : State) (core : Bool) (m : MasterId) (ch : Fin 64) (o : Nat) : State × W32 × CStatus :=
  let x := s.mbx.ch[ch]
  let side := s.mbxSide x m
  if 0x28 ≤ o then (s, 0, .ok)
  else if (side.isSome || core) && (x.bound || !mbxWord o) then (s.mbxReadEffect ch side o, s.mbxValue ch o, .ok)
  else (s.mbxReject ch side .notPermitted, 0, .notPermitted)

/-! The commands. -/

/-- Window offset of a register of a channel. -/
def offMbx (ch : Fin 64) (o : Nat) : Nat := 0x030000 + ch.val * 0x40 + o

/-- A write of a channel over a path that reaches the window (R473). -/
def State.mbxAccess (s : State) (p : Path) (m : MasterId) (ch : Fin 64) (o : Nat) (v : W32) : State :=
  if s.reaches p (offMbx ch o) then (s.mbxWrite (isCore p m) m ch o v).1 else s

/-- A2B_MSG_WRITE (R367-R371): a write of A2B_MSG, or of B2A_MSG for side B. -/
def execA2bMsgWrite (p : Path) (m : MasterId) (ch : Fin 64) (sideA : Bool) (value : W32) (s : State) : Res :=
  .next (s.mbxAccess p m ch (if sideA then 0x0C else 0x10) value)

/-- A2B_MSG_READ (R367): a read of side A's incoming word B2A_MSG, or of side B's incoming word A2B_MSG. -/
def execA2bMsgRead (p : Path) (m : MasterId) (ch : Fin 64) (sideA : Bool) (s : State) : Res :=
  let o := if sideA then 0x10 else 0x0C
  if s.reaches p (offMbx ch o) then
    let r := s.mbxRead (isCore p m) m ch o
    .next (r.1.emit (.readData p r.2.1))
  else .next s

/-- DOORBELL_SET (R367, R369): side A writes DB_B, side B writes DB_A. -/
def execDoorbellSet (p : Path) (m : MasterId) (ch : Fin 64) (sideA : Bool) (value : W32) (s : State) : Res :=
  .next (s.mbxAccess p m ch (if sideA then 0x1C else 0x14) value)

/-- DOORBELL_CLEAR (R367): side A writes DB_A, side B writes DB_B. -/
def execDoorbellClear (p : Path) (m : MasterId) (ch : Fin 64) (sideA : Bool) (value : W32) (s : State) : Res :=
  .next (s.mbxAccess p m ch (if sideA then 0x14 else 0x1C) value)

/-- MBX_BIND_DIRECT_WRITE (R366). -/
def execMbxBindDirectWrite (p : Path) (m : MasterId) (ch : Fin 64) (sideA : Bool) (value : W32) (s : State) : Res :=
  .next (s.mbxAccess p m ch (if sideA then 0x00 else 0x04) value)

/-- The table is locked (R376). -/
def State.lockMbx (s : State) : State := { s with mbx := { s.mbx with lock := true } }
/-- Count an access to the family registers by a master that is no control core (log entry 44). -/
def State.mbxDeny (s : State) : State := { s with mbx := { s.mbx with reject := satAdd s.mbx.reject 1 } }

/-- MBX_LOCK_WRITE (R376): only CC0-CC3 may set LOCK. -/
def execMbxLockWrite (p : Path) (m : MasterId) (s : State) : Res :=
  if !s.reaches p 0x031000 then .next s
  else .next (if isCore p m then s.lockMbx else s.mbxDeny)

/-- MBX_MSG (R373): the side's outgoing word, or bits of the partner's doorbell. -/
def execMbxMsg (l : SubLink) (msg : Msg) (s : State) : Res :=
  .next (s.atHome l msg mtMbxMsg (fun s =>
    let h := msg.hdr
    let ch : Fin 64 := ⟨fieldN h 64 6 % 64, Nat.mod_lt _ (by decide)⟩
    let v : W32 := (nth msg.slots 0 0).setWidth 32
    let kind := bit h 70
    match s.mbxSide (s.mbx.ch[ch]) (hMaster h) with
    | none => (s.mbxReject ch none .notPermitted).mgmtAnswer l h .notPermitted
    | some side =>
      let r := s.mbxToward ch side (fun s => if kind then s.mbxRing ch side v else s.mbxSend ch side v)
      r.1.mgmtAnswer l h r.2))

/-! The whole family (R376). -/

/-- Read of an MBX register over a path. -/
def State.mbxFamRead (s : State) (p : Path) (m : MasterId) (o : Nat) : State × W32 × CStatus :=
  if o < 0x1000 then s.mbxRead (isCore p m) m ⟨o / 64 % 64, Nat.mod_lt _ (by decide)⟩ (o % 64)
  else if o = 0x1000 || o = 0x1004 then
    if !isCore p m then (s.mbxDeny, 0, .notPermitted)
    else if o = 0x1000 then (s, at32 31 (b2n s.mbx.lock), .ok)
    else ({ s with mbx := { s.mbx with reject := 0 } }, s.mbx.reject, .ok)
  else (s, 0, .ok)

/-- Write of an MBX register over a path. -/
def State.mbxFamWrite (s : State) (p : Path) (m : MasterId) (o : Nat) (v : W32) : State × CStatus :=
  if o < 0x1000 then s.mbxWrite (isCore p m) m ⟨o / 64 % 64, Nat.mod_lt _ (by decide)⟩ (o % 64) v
  else if o = 0x1000 || o = 0x1004 then
    if !isCore p m then (s.mbxDeny, .notPermitted)
    else (if o = 0x1000 && bit v 31 then s.lockMbx else s, .ok)
  else (s, .ok)

end Sys2Proof.Machine
end

