-- ==== Sys2Proof/Machine/F64.lean ====
section
/-! DEFINITION. IEEE 754 binary64 arithmetic on bit patterns, rounding to nearest with ties to even, by exact
numbers in units of 2^-1074 (R164, R180, R195, R199, R200). -/

namespace Sys2Proof.Machine

/-- Sign, exponent and fraction fields. -/
def fSign (a : W64) : Bool := bit a 63
def fExp (a : W64) : Nat := fieldN a 52 11
def fFrac (a : W64) : Nat := fieldN a 0 52
def fNan (a : W64) : Bool := fExp a == 2047 && fFrac a != 0
def fInf (a : W64) : Bool := fExp a == 2047 && fFrac a == 0
def fZero (a : W64) : Bool := fExp a == 0 && fFrac a == 0
/-- Magnitude of a finite value in units of 2^-1074. -/
def fMag (a : W64) : Nat := if fExp a = 0 then fFrac a else (4503599627370496 + fFrac a) <<< (fExp a - 1)
/-- A finite value in units of 2^-1074. -/
def fVal (a : W64) : Int := if fSign a then -(fMag a : Int) else (fMag a : Int)

/-- A zero, an infinity, and the quiet NaN of R180. -/
def f64Zero (neg : Bool) : W64 := if neg then 0x8000000000000000#64 else 0#64
def f64Inf (neg : Bool) : W64 := if neg then 0xFFF0000000000000#64 else 0x7FF0000000000000#64
def quietNan : W64 := 0x7FF8000000000000#64
/-- The NaN that an operation gives: some quiet NaN (log entry 3). -/
def freeNan (a b : W64) : W64 := Config.nanBits a b ||| 0x7FF8000000000000#64

/-- num / den rounded to the nearest integer, ties to even. -/
def rne (num den : Nat) : Nat :=
  let q := num / den
  let r := num % den
  if den < 2 * r then q + 1 else if 2 * r = den then q + q % 2 else q

/-- The binary64 of (num / den) × 2^-1074, rounded. -/
def pack64 (neg : Bool) (num den : Nat) : W64 :=
  let q := Nat.log2 (num / den) - 52
  let bits := q * 4503599627370496 + rne num (den <<< q)
  if 0x7FF0000000000000 ≤ bits then f64Inf neg else f64Zero neg ||| BitVec.ofNat 64 bits

/-- (num / den) × 2^-1074 rounded to the nearest binary32 value, held as binary64. -/
def pack32 (neg : Bool) (num den : Nat) : W64 :=
  let d := den <<< 925
  let q := Nat.log2 (num / d) - 23
  let m := rne num (d <<< q) <<< q
  if 2 ^ 277 ≤ m then f64Inf neg else pack64 neg (m <<< 925) 1

/-- A signed exact number in units of 2^-1074, rounded; `zneg` is the sign of a zero. -/
def packInt (v : Int) (zneg : Bool) : W64 :=
  if v = 0 then f64Zero zneg else pack64 (decide (v < 0)) v.natAbs 1

/-- Addition. An exact zero sum of opposite values is +0. -/
def fAdd (a b : W64) : W64 :=
  if fNan a || fNan b then freeNan a b
  else if fInf a then (if fInf b && fSign a != fSign b then freeNan a b else a)
  else if fInf b then b
  else packInt (fVal a + fVal b) (fSign a && fSign b)

/-- The negated value. -/
def fNeg (a : W64) : W64 := a ^^^ 0x8000000000000000#64
/-- Subtraction. -/
def fSub (a b : W64) : W64 :=
  if fNan a || fNan b then freeNan a b else fAdd a (fNeg b)

/-- Multiplication. -/
def fMul (a b : W64) : W64 :=
  let neg := fSign a != fSign b
  if fNan a || fNan b then freeNan a b
  else if fInf a || fInf b then (if fZero a || fZero b then freeNan a b else f64Inf neg)
  else if fZero a || fZero b then f64Zero neg
  else pack64 neg (fMag a * fMag b) (2 ^ 1074)

/-- Division (R199). -/
def fDiv (a b : W64) : W64 :=
  let neg := fSign a != fSign b
  if fNan a || fNan b then freeNan a b
  else if fInf a then (if fInf b then freeNan a b else f64Inf neg)
  else if fInf b then f64Zero neg
  else if fZero b then (if fZero a then freeNan a b else f64Inf neg)
  else if fZero a then f64Zero neg
  else pack64 neg (fMag a <<< 1074) (fMag b)

/-- Comparison keys of values that are not NaN: infinities beyond every finite value. -/
def fKey (a : W64) : Int :=
  if fInf a then (if fSign a then -(2 ^ 2100) else 2 ^ 2100) else fVal a
def fLt (a b : W64) : Bool := !fNan a && !fNan b && decide (fKey a < fKey b)
def fEq (a b : W64) : Bool := !fNan a && !fNan b && decide (fKey a = fKey b)
def fLe (a b : W64) : Bool := !fNan a && !fNan b && decide (fKey a ≤ fKey b)

/-- MIN and MAX of R199. -/
def fMin (a b : W64) : W64 :=
  if fNan a && fNan b then freeNan a b
  else if fNan a then b else if fNan b then a
  else if fLt a b then a else if fLt b a then b
  else if fSign a then a else b
def fMax (a b : W64) : W64 :=
  if fNan a && fNan b then freeNan a b
  else if fNan a then b else if fNan b then a
  else if fLt b a then a else if fLt a b then b
  else if fSign a then b else a

/-- An integer as binary64, or rounded to binary32 and held as binary64 (R200). -/
def fOfInt (v : Int) (single : Bool) : W64 :=
  if v = 0 then 0
  else if single then pack32 (decide (v < 0)) (v.natAbs <<< 1074) 1 else pack64 (decide (v < 0)) (v.natAbs <<< 1074) 1

/-- Truncation of a finite value towards zero (R200). -/
def fTrunc (a : W64) : Int :=
  let m := fMag a >>> 1074
  if fSign a then -(m : Int) else (m : Int)

/-- Rounding to binary32 (R200). -/
def fToSingle (a : W64) : W64 :=
  if fNan a then freeNan a a else if fInf a then a
  else if fZero a then a else pack32 (fSign a) (fMag a) 1

/-- A binary32 pattern converted exactly to binary64 (R164). A NaN keeps its sign and fraction (log entry 32). -/
def fOf32 (v : BitVec 32) : W64 :=
  let e := fieldN v 23 8
  let f := fieldN v 0 23
  let neg := bit v 31
  if e = 255 then f64Inf neg ||| BitVec.ofNat 64 (f <<< 29)
  else if e = 0 then (if f = 0 then f64Zero neg else pack64 neg (f <<< 925) 1)
  else pack64 neg ((8388608 + f) <<< (924 + e)) 1

end Sys2Proof.Machine
end

