-- ==== Sys2Proof/Machine/Pred.lean ====
section
/-! DEFINITION. Predicate programs: instruction fields, validation, and the meaning of each instruction on one
lane (07_predicate_programs, R190-R206; R169 for the block). No instruction crosses lanes, so a lane is
evaluated by itself. -/

namespace Sys2Proof.Machine

/-! The program block (R169). -/

/-- Byte `i` of the block. -/
def pgByte (p : BitVec 4096) (i : Nat) : Nat := fieldN p (8 * i) 8
/-- INSN_COUNT and K_COUNT. -/
def pgCount (p : BitVec 4096) : Nat := pgByte p 0
def pgConsts (p : BitVec 4096) : Nat := pgByte p 1
/-- Instruction word `i`. -/
def pgInsn (p : BitVec 4096) (i : Nat) : W32 := p.extractLsb' (512 + 32 * i) 32
/-- Constant `i`: 0 at and beyond K_COUNT (R203). -/
def pgK (p : BitVec 4096) (i : Nat) : W64 := if i < pgConsts p then p.extractLsb' (1536 + 64 * i) 64 else 0

/-! Fields (R193, R194). -/
def inOp (w : W32) : Nat := fieldN w 26 6
def inDst (w : W32) : Nat := fieldN w 23 3
def inSrcA (w : W32) : Nat := fieldN w 20 3
def inSrcB (w : W32) : Nat := fieldN w 17 3
def inKidx (w : W32) : Nat := fieldN w 12 5
def inType (w : W32) : Nat := fieldN w 8 4
def inNulls (w : W32) : Bool := bit w 7
def inArg (w : W32) : Nat := fieldN w 3 4
def inBk (w : W32) : Bool := bit w 2
def inBsrc (w : W32) : Bool := bit w 1
def inAsrc (w : W32) : Bool := bit w 0

/-- The classes of R195. -/
inductive TyClass where
  | unsigned | signed | float
deriving DecidableEq, Repr

/-- The class of a type code. -/
def tyClass (t : Nat) : TyClass :=
  if t = 8 || t = 9 then .float else if 4 ≤ t && t ≤ 7 then .signed else .unsigned

/-! Validation (R196, R205). -/

/-- The groups of the second table of R196. -/
inductive InsnForm where
  | nop | compare | range | inSet | bits | nullTest | mask2 | mask1 | mask0 | mov | arith | sel | cvt
deriving DecidableEq, Repr

/-- The group of an opcode; `none` where it is reserved. -/
def insnForm (op : Nat) : Option InsnForm :=
  if op = 0x00 then some .nop
  else if op ≤ 0x06 then some .compare
  else if op = 0x07 then some .range
  else if op = 0x08 then some .inSet
  else if op = 0x09 then some .bits
  else if op = 0x0C || op = 0x0D then some .nullTest
  else if 0x10 ≤ op && op ≤ 0x13 then some .mask2
  else if op = 0x14 then some .mask1
  else if op = 0x15 || op = 0x16 then some .mask0
  else if op = 0x20 then some .mov
  else if 0x21 ≤ op && op ≤ 0x2B then some .arith
  else if op = 0x2C then some .sel
  else if op = 0x2D then some .cvt
  else none

/-- The bits of a word that an instruction uses besides OPCODE (R194, R196). -/
def usedBits (f : InsnForm) (bk : Bool) : W32 :=
  let dst := 0x03800000#32
  let a := 0x00700000#32
  let b := if bk then 0#32 else 0x000E0000#32
  let k := if bk then 0x0001F000#32 else 0#32
  let ty := 0x00000F00#32
  -- BK = 1 takes BSRC out of use
  let bmod := if bk then 0x4#32 else 0x2#32
  match f with
  | .nop => 0
  | .compare => dst ||| a ||| b ||| k ||| ty ||| bmod ||| 0x81#32
  | .range | .bits => dst ||| a ||| 0x0001F000#32 ||| ty ||| 0x81#32
  | .inSet => dst ||| a ||| 0x0001F000#32 ||| ty ||| 0xF9#32
  | .nullTest => dst ||| a ||| 0x1#32
  | .mask2 => dst ||| a ||| 0x000E0000#32
  | .mask1 => dst ||| a
  | .mask0 => dst
  | .mov => dst ||| 0x1#32 ||| (if bk then 0x4#32 else a) ||| k
  | .arith => dst ||| a ||| b ||| k ||| ty ||| bmod ||| 0x1#32
  | .sel => dst ||| a ||| b ||| k ||| bmod ||| 0x79#32
  | .cvt => dst ||| a ||| ty ||| 0x79#32

/-- Whether the group reads operand A, and operand B, as a C or T register. -/
def readsA (f : InsnForm) (bk : Bool) : Bool :=
  match f with
  | .compare | .range | .inSet | .bits | .nullTest | .arith | .sel | .cvt => true
  | .mov => !bk
  | .nop | .mask2 | .mask1 | .mask0 => false
def readsB (f : InsnForm) (bk : Bool) : Bool :=
  match f with
  | .compare | .arith | .sel => !bk
  | .nop | .range | .inSet | .bits | .nullTest | .mask2 | .mask1 | .mask0 | .mov | .cvt => false

/-- The opcodes that require an integer TYPE: CBITS, AND, OR, XOR, SHL, SHR. -/
def needsInt (op : Nat) : Bool := op == 0x09 || (decide (0x27 ≤ op) && decide (op ≤ 0x2B))

/-- An instruction passes the table of R205. `bound i`: CBIND[i] binds Ci. -/
def insnOk (bound : Nat → Bool) (w : W32) : Bool :=
  match insnForm (inOp w) with
  | none => false
  | some f =>
    let bk := match f with | .compare | .mov | .arith | .sel => inBk w | _ => false
    decide (w &&& ~~~(0xFC000000#32 ||| usedBits f bk) = 0#32) &&
    decide (inType w ≤ 10) && !(f = .cvt && 10 < inArg w) &&
    !(needsInt (inOp w) && tyClass (inType w) = .float) &&
    !(readsA f bk && !inAsrc w && !bound (inSrcA w)) &&
    !(readsB f bk && !inBsrc w && !bound (inSrcB w)) &&
    !(f = .range && inKidx w = 31) &&
    !(f = .inSet && 31 < inKidx w + inArg w) &&
    !(f = .sel && bit w 6)

/-- The header of the block passes (R169, R205). -/
def headerOk (p : BitVec 4096) : Bool :=
  decide (1 ≤ pgCount p) && decide (pgCount p ≤ 32) && decide (pgConsts p ≤ 32) &&
  decide (p.extractLsb' 16 496 = 0) && decide (p.extractLsb' 3584 512 = 0) &&
  (List.range 32).all (fun i => decide (i < pgCount p) || decide (pgInsn p i = 0#32))

/-- Validation of a program block: the DETAIL of its refusal, if it is refused (R170, R205). -/
def validate (bound : Nat → Bool) (p : BitVec 4096) : Option Nat :=
  if !headerOk p then some 0x0FF
  else ((List.range (pgCount p)).find? (fun i => !insnOk bound (pgInsn p i))).map (fun i => 0x100 + i)

/-! Lanes (R190-R192). -/

/-- A register of a lane: value and null flag. -/
structure LaneVal where
  val : W64 := 0
  null : Bool := false
deriving DecidableEq, Repr

/-- One lane of the predicate machine: C0-C7, T0-T7, M0-M7. -/
structure PLane where
  c : List LaneVal
  t : Vector LaneVal 8 := Vector.replicate 8 {}
  m : BitVec 8
deriving DecidableEq, Repr

/-- A lane at the start of its block. -/
def PLane.start (c : List LaneVal) (valid : Bool) : PLane := { c := c, m := if valid then 1 else 0 }

/-- A C or T register. -/
def PLane.src (l : PLane) (temp : Bool) (i : Nat) : LaneVal :=
  if temp then nth l.t.toList i {} else nth l.c i {}
/-- A register-source byte of R168: 0-7 C, 8-15 T. -/
def PLane.reg (l : PLane) (i : Nat) : LaneVal := l.src (decide (8 ≤ i)) (i % 8)
/-- Operands A and B of an instruction (R194). -/
def PLane.opA (l : PLane) (w : W32) : LaneVal := l.src (inAsrc w) (inSrcA w)
def PLane.opB (l : PLane) (p : BitVec 4096) (w : W32) : LaneVal :=
  if inBk w then { val := pgK p (inKidx w) } else l.src (inBsrc w) (inSrcB w)
/-- Write a T register; a null lane holds 0 (R198). -/
def PLane.setT (l : PLane) (w : W32) (v : LaneVal) : PLane :=
  { l with t := l.t.setIfInBounds (inDst w) (if v.null then { val := 0, null := true } else v) }
/-- Write a mask bit. -/
def PLane.setM (l : PLane) (w : W32) (b : Bool) : PLane := { l with m := setBit l.m (inDst w) b }

/-! Comparison (R195, R197). -/

/-- The number of a lane in an integer class. -/
def intOf (c : TyClass) (v : W64) : Int := match c with | .signed => v.toInt | _ => (v.toNat : Int)
def laneEq (c : TyClass) (a b : W64) : Bool := match c with | .float => fEq a b | _ => a == b
def laneLt (c : TyClass) (a b : W64) : Bool := match c with | .float => fLt a b | _ => decide (intOf c a < intOf c b)
def laneLe (c : TyClass) (a b : W64) : Bool := match c with | .float => fLe a b | _ => decide (intOf c a ≤ intOf c b)

/-- CEQ to CGE. -/
def compareOp (op : Nat) (c : TyClass) (a b : W64) : Bool :=
  match op with
  | 1 => laneEq c a b
  | 2 => !laneEq c a b
  | 3 => laneLt c a b
  | 4 => laneLe c a b
  | 5 => laneLt c b a
  | _ => laneLe c b a

/-- CBITS. -/
def bitsOp (p : BitVec 4096) (c : TyClass) (k : Nat) (a : W64) : Bool :=
  let i := intOf c a
  decide (0 ≤ i) && decide (i < 64 * (32 - (k : Int))) && bit (pgK p (k + i.toNat / 64)) (i.toNat % 64)

/-! Values (R198-R200). -/

/-- ADD to SHR on values that are not null. Integer DIV by 0 is null. -/
def arithOp (op : Nat) (c : TyClass) (a b : W64) : LaneVal :=
  let sh := fieldN b 0 6
  match op, c with
  | 0x21, .float => { val := fAdd a b }
  | 0x21, _ => { val := a + b }
  | 0x22, .float => { val := fSub a b }
  | 0x22, _ => { val := a - b }
  | 0x23, .float => { val := fMul a b }
  | 0x23, _ => { val := a * b }
  | 0x24, .float => { val := fDiv a b }
  | 0x24, .signed => if b = 0 then { null := true } else { val := BitVec.ofInt 64 (a.toInt.tdiv b.toInt) }
  | 0x24, .unsigned => if b = 0 then { null := true } else { val := BitVec.ofNat 64 (a.toNat / b.toNat) }
  | 0x25, .float => { val := fMin a b }
  | 0x25, _ => { val := if laneLt c b a then b else a }
  | 0x26, .float => { val := fMax a b }
  | 0x26, _ => { val := if laneLt c a b then b else a }
  | 0x27, _ => { val := a &&& b }
  | 0x28, _ => { val := a ||| b }
  | 0x29, _ => { val := a ^^^ b }
  | 0x2A, _ => { val := a <<< sh }
  | _, .signed => { val := a.sshiftRight sh }
  | _, _ => { val := a >>> sh }

/-- Range of an integer type code: least and greatest value (R161, R200). -/
def tyRange (t : Nat) : Int × Int :=
  match t with
  | 0 => (0, 255) | 1 => (0, 65535) | 2 => (0, 4294967295) | 3 => (0, 18446744073709551615)
  | 4 => (-128, 127) | 5 => (-32768, 32767) | 6 => (-2147483648, 2147483647)
  | 7 => (-9223372036854775808, 9223372036854775807)
  | _ => (0, 65535)

/-- An exact integer in a target type: null outside its range. -/
def toIntType (t : Nat) (v : Int) : LaneVal :=
  let r := tyRange t
  if r.1 ≤ v && v ≤ r.2 then { val := BitVec.ofInt 64 v } else { null := true }

/-- CVT of a lane that is not null (R200). -/
def cvtOp (src dst : Nat) (a : W64) : LaneVal :=
  match tyClass src, dst with
  | .float, 8 => { val := fToSingle a }
  | .float, 9 => { val := a }
  | .float, t => if fNan a || fInf a then { null := true } else toIntType t (fTrunc a)
  | c, 8 => { val := fOfInt (intOf c a) true }
  | c, 9 => { val := fOfInt (intOf c a) false }
  | c, t => toIntType t (intOf c a)

/-! Execution (R196, R201). -/

/-- One instruction on one lane. `valid`: the lane lies in the valid-lane mask. -/
def PLane.insn (p : BitVec 4096) (valid : Bool) (l : PLane) (w : W32) : PLane :=
  let a := l.opA w
  let c := tyClass (inType w)
  let nulls := fun (n : Bool) (v : Bool) => if n then inNulls w else v
  match insnForm (inOp w) with
  | none | some .nop => l
  | some .compare =>
    let b := l.opB p w
    l.setM w (nulls (a.null || b.null) (compareOp (inOp w) c a.val b.val))
  | some .range =>
    l.setM w (nulls a.null (laneLe c (pgK p (inKidx w)) a.val && laneLe c a.val (pgK p (inKidx w + 1))))
  | some .inSet =>
    l.setM w (nulls a.null ((List.range (inArg w + 1)).any (fun i => laneEq c a.val (pgK p (inKidx w + i)))))
  | some .bits => l.setM w (nulls a.null (bitsOp p c (inKidx w) a.val))
  | some .nullTest => l.setM w (if inOp w = 0x0C then a.null else !a.null)
  | some .mask2 =>
    let x := bit l.m (inSrcA w)
    let y := bit l.m (inSrcB w)
    l.setM w (match inOp w with | 0x10 => x && y | 0x11 => x || y | 0x12 => xor x y | _ => x && !y)
  | some .mask1 => l.setM w (!bit l.m (inSrcA w))
  | some .mask0 => l.setM w (inOp w == 0x15 && valid)
  | some .mov => l.setT w (if inBk w then { val := pgK p (inKidx w) } else a)
  | some .arith =>
    let b := l.opB p w
    l.setT w (if a.null || b.null then { null := true } else arithOp (inOp w) c a.val b.val)
  | some .sel => l.setT w (if bit l.m (inArg w) then a else l.opB p w)
  | some .cvt => l.setT w (if a.null then { null := true } else cvtOp (inArg w) (inType w) a.val)

/-- A program over one lane; without a program the lane stays as it starts (R192). -/
def PLane.run (p : BitVec 4096) (en valid : Bool) (l : PLane) : PLane :=
  if en then (List.range (pgCount p)).foldl (fun l i => l.insn p valid (pgInsn p i)) l else l

/-- The lane qualifies: M0 at the end, within the valid-lane mask (R192). -/
def PLane.hit (l : PLane) (valid : Bool) : Bool := bit l.m 0 && valid

/-- Slice clock cycles of an instruction per block (R196), and of a program (R202). -/
def insnCycles (w : W32) : Nat :=
  match inOp w with
  | 0x08 => (inArg w + 4) / 4
  | 0x23 | 0x2D => 2
  | 0x24 => 16
  | _ => 1
def pgCycles (p : BitVec 4096) : Nat := ((List.range (pgCount p)).map (fun i => insnCycles (pgInsn p i))).sum

end Sys2Proof.Machine
end

