-- ==== Sys2Proof/Machine/Job.lean ====
section
/-! DEFINITION. Job descriptors: their fields and the dispatcher's checks; tiles and their columns; entries,
aggregates and group records (06_operator_engines, R160-R170, R178-R180, R182). -/

namespace Sys2Proof.Machine

/-! The descriptor (R165, R166). -/

/-- A field of the descriptor: `n` bytes from byte `i`. -/
def dNum (d : BitVec 1024) (i n : Nat) : Nat := fieldN d (8 * i) (8 * n)
def dOp (d : BitVec 1024) : Nat := dNum d 0 1
def dIrq (d : BitVec 1024) : Bool := bit d 8
def dOrdered (d : BitVec 1024) : Bool := bit d 9
def dStop (d : BitVec 1024) : Bool := bit d 10
def dPredEn (d : BitVec 1024) : Bool := bit d 11
def dFaultEn (d : BitVec 1024) : Bool := bit d 12
def dForm (d : BitVec 1024) : Nat := dNum d 2 1
def dTag (d : BitVec 1024) : W32 := d.extractLsb' 32 32
def dMask (d : BitVec 1024) : W64 := d.extractLsb' 64 64
def dSrcPage (d : BitVec 1024) : Nat := dNum d 16 4
def dSrcCount (d : BitVec 1024) : Nat := dNum d 20 4
def dProg (d : BitVec 1024) : Nat := dNum d 24 8
def dBind (d : BitVec 1024) (i : Nat) : Nat := dNum d (32 + i) 1
def dOut (d : BitVec 1024) : Nat := dNum d 40 8
def dStride (d : BitVec 1024) : Nat := dNum d 48 4
def dFault (d : BitVec 1024) : Nat := dNum d 56 8
def dProj (d : BitVec 1024) (j : Nat) : Nat := dNum d (64 + j) 1
def dAgg (d : BitVec 1024) (j : Nat) : Nat := dNum d (72 + 2 * j) 2
def dSrc (d : BitVec 1024) : Nat := dNum d 80 1
def dKind (d : BitVec 1024) : Nat := dNum d 81 1
def dK (d : BitVec 1024) : Nat := dNum d 82 1
def dLog2 (d : BitVec 1024) : Nat := dNum d 83 1
def dInStride (d : BitVec 1024) : Nat := dNum d 84 4
def dTable (d : BitVec 1024) : Nat := dNum d 88 8

/-- The operations. -/
def opScan : Nat := 1
def opAgg : Nat := 2
def opProbe : Nat := 3
def opGather : Nat := 4
def opCopy : Nat := 5

/-- CBIND[i] binds Ci. -/
def dBound (d : BitVec 1024) (i : Nat) : Bool := dBind d i != 0xFF
/-- The projected columns, in order (R166). -/
def dProjs (d : BitVec 1024) : List Nat := ((List.range 8).map (dProj d)).takeWhile (fun c => c != 0xFF)
/-- The columns bound by CBIND. -/
def dBinds (d : BitVec 1024) : List Nat := ((List.range 8).map (dBind d)).filter (fun c => c != 0xFF)
/-- The columns that a tile of the job needs (R158). -/
def dNeed (d : BitVec 1024) : List Nat :=
  dBinds d ++ (if dOp d = opGather || (dOp d = opScan && dForm d = 3) then dProjs d else [])

/-- Node and local part of a global address. -/
def gaNode (a : Nat) : Nat := a / 1099511627776 % 4096
def gaLocal (a : Nat) : Nat := a % 1099511627776

/-! The checks of R170. -/

/-- Bytes 64-127 that an operation and form use (R166). -/
def usedByte (d : BitVec 1024) (b : Nat) : Bool :=
  let op := dOp d
  if b < 72 then op == opGather || (op == opScan && dForm d == 3)
  else if b < 80 then op == opAgg || (op == opScan && dForm d == 4)
  else if b = 80 then op == opAgg || op == opProbe
  else if b = 81 || b = 83 then op == opProbe
  else if b = 82 then op == opProbe && dKind d != 1
  else if b < 88 then op == opGather
  else if b < 96 then op == opProbe || op == opGather || op == opCopy
  else false

/-- Byte offset of the field that holds a byte of the second half. -/
def fieldOf (b : Nat) : Nat :=
  if 72 ≤ b && b < 80 then b / 2 * 2
  else if 84 ≤ b && b < 88 then 84
  else if 88 ≤ b && b < 96 then 88
  else if 96 ≤ b then 96 else b

/-- The reserved field or disagreeing flag at the lowest offset, if any. -/
def reservedBad (d : BitVec 1024) : Option Nat :=
  let common : List (Bool × Nat) :=
    [(dNum d 1 1 / 32 ≠ 0, 1), (dNum d 3 1 ≠ 0, 3), (dSrcPage d / 2097152 ≠ 0, 16),
     (dPredEn d != (dProg d != 0), 24), (dNum d 52 4 ≠ 0, 52), (dFaultEn d != (dFault d != 0), 56)]
  match common.find? (fun x => x.1) with
  | some x => some x.2
  | none => ((List.range 64).find? (fun i => !usedByte d (64 + i) && dNum d (64 + i) 1 != 0)).map (fun i => fieldOf (64 + i))

/-- OUT_FORM is allowed (R167). -/
def formOk (d : BitVec 1024) : Bool :=
  let op := dOp d
  match dForm d with
  | 0 => op == opScan || op == opProbe || op == opCopy
  | 1 | 2 => op == opScan || op == opProbe
  | 3 => op == opScan || op == opGather
  | 4 => op == opScan
  | 5 => op == opAgg
  | 6 => op == opProbe && dKind d == 1
  | _ => false

/-- The engines of the job: ENGINE_MASK, or the queue's whole set. -/
def jobSet (d : BitVec 1024) (set : W64) : W64 := if dMask d = 0 then set else dMask d
/-- Engines of a set, ascending. -/
def engList (m : W64) : List (Fin 64) := (fins 64).filter (fun e => bit m e.val)
/-- The lowest-numbered engine of a set. -/
def lowEngine (m : W64) : Fin 64 := (engList m).headD 0

/-- Channels that a page range touches (R65, R66): 32,768 pages in a row touch every channel in every order. -/
def State.rangeChannels (s : State) (first count : Nat) : W64 :=
  (List.range (min count 32768)).foldl (fun m i =>
    setBit m (decodePage s.glb.variant s.glb.mapOrder (first + i)).1.val true) 0

/-- An address field is aligned, has bits [63:52] zero, and does not name node 0xFFF. -/
def addrFieldOk (a align : Nat) : Bool := a % align == 0 && decide (a < 4503599627370496) && gaNode a != 0xFFF

/-- A register-source number is bound (R168). -/
def srcOk (d : BitVec 1024) (r : Nat) : Bool := decide (r < 16) && (decide (8 ≤ r) || dBound d r)

/-- An aggregate specification obeys R168. -/
def aggOk (d : BitVec 1024) (j : Nat) : Bool :=
  let a := dAgg d j
  let f := a / 4096
  let ty := a / 256 % 16
  if f = 0 then a == 0
  else decide (f ≤ 4) && a / 16 % 16 == 0 && decide (ty ≤ 1) && !(f == 2 && ty != 0) && srcOk d (a % 16)

/-- The first field of CBIND, PROJ, AGG_SPEC, GROUP_SRC and KEY_SRC that breaks R166 or R168. -/
def sourceBad (d : BitVec 1024) : Option Nat :=
  match (List.range 8).find? (fun i => 15 < dBind d i && dBound d i) with
  | some i => some (32 + i)
  | none =>
    let proj := if usedByte d 64 then (List.range 8).find? (fun j =>
      (15 < dProj d j && dProj d j ≠ 0xFF) || (j = 0 && dProj d j = 0xFF) ||
      (j ≠ 0 && dProj d (j - 1) = 0xFF && dProj d j ≠ 0xFF)) else none
    match proj with
    | some j => some (64 + j)
    | none =>
      let agg := if usedByte d 72 then (List.range 4).find? (fun j => !aggOk d j) else none
      match agg with
      | some j => some (72 + 2 * j)
      | none => if usedByte d 80 && !srcOk d (dSrc d) then some 80 else none

/-- PROBE_KIND, K and LOG2. -/
def probeBad (d : BitVec 1024) : Option Nat :=
  if dOp d ≠ opProbe then none
  else if 1 < dKind d then some 81
  else if dKind d = 0 && (dK d < 1 || 8 < dK d) then some 82
  else if dKind d = 0 && (dLog2 d < 10 || 20 < dLog2 d) then some 83
  else if dKind d = 1 && 30 < dLog2 d then some 83 else none

/-- The first address field that fails. -/
def addressBad (d : BitVec 1024) : Option Nat :=
  if dPredEn d && !addrFieldOk (dProg d) 64 then some 24
  else if !addrFieldOk (dOut d) 64 then some 40
  else if dFaultEn d && !addrFieldOk (dFault d) 1024 then some 56
  else if usedByte d 88 && !addrFieldOk (dTable d) (if dOp d = opCopy then 131072 else 64) then some 88 else none

/-- OUT_STRIDE. -/
def strideBad (d : BitVec 1024) : Bool :=
  dStride d % 64 ≠ 0 || (dOp d = opCopy && dStride d ≠ 0) || (dOp d ≠ opCopy && dForm d ≠ 0 && dStride d < 64)

/-- For a COPY to this node, the destination overlaps the source. -/
def State.copyOverlap (s : State) (d : BitVec 1024) : Bool :=
  let dst := gaLocal (dTable d) / 131072
  dOp d = opCopy && gaNode (dTable d) = s.fab.nodeId.toNat &&
  decide (dst < dSrcPage d + dSrcCount d) && decide (dSrcPage d < dst + dSrcCount d)

/-- The checks of R170 that come before the program block is read, in their order. -/
def State.descBad (s : State) (set : W64) (d : BitVec 1024) : Option (CmdStatus × Nat) :=
  let bad := fun (o : Option Nat) => o.map (fun x => (CmdStatus.badParam, x))
  let flag := fun (b : Bool) (x : Nat) => if b then some (CmdStatus.badParam, x) else none
  if dOp d < 1 || 5 < dOp d then some (.badOpcode, 0)
  else
    [bad (reservedBad d),
     flag (dPredEn d && (dOp d = opGather || dOp d = opCopy)) 1,
     flag (!formOk d) 2,
     flag (decide (dMask d &&& ~~~set ≠ 0)) 8,
     flag (dSrcCount d = 0 || treeBasePage s.glb.variant s.sec.capCode < dSrcPage d + dSrcCount d) 16,
     flag (dOp d ≠ opGather && decide (s.rangeChannels (dSrcPage d) (dSrcCount d) &&& ~~~(jobSet d set) ≠ 0)) 8,
     bad (addressBad d), flag (strideBad d) 48, bad (sourceBad d), bad (probeBad d), flag (s.copyOverlap d) 88].findSome? id

/-- The checks that follow the program block. -/
def State.engineBad (s : State) (set : W64) (d : BitVec 1024) : Option (CmdStatus × Nat) :=
  let es := engList (jobSet d set)
  if es.any (fun e => decide (s.dist[distOf e].fn.st = .stopping) || decide (s.dist[distOf e].fn.st = .off)) then some (.domainDown, 8)
  else if es.any (fun e => decide (s.engs.eng[e].fn.st = .off) || decide (s.engs.eng[e].fn.st = .stopping)) then some (.notPermitted, 8)
  else none

/-! Tiles (R160-R164). -/

/-- Width of a type in bytes (R161). -/
def tyWidth (t : Nat) : Nat :=
  match t with
  | 0 | 4 => 1 | 1 | 5 | 10 => 2 | 2 | 6 | 8 => 4 | _ => 8

/-- Byte `i` of a list of lines. -/
def lnByte (ls : List (BitVec 512)) (i : Nat) : Nat := fieldN (nth ls (i / 64) 0) (8 * (i % 64)) 8
/-- `n` bytes from byte `i`, little-endian. -/
def lnNum (ls : List (BitVec 512)) (i n : Nat) : Nat :=
  (List.range n).foldl (fun v j => v + lnByte ls (i + j) * 256 ^ j) 0

/-- Rows of a null bitmap (R162). -/
def nullRows (values : Nat) : Nat := (values + 8191) / 8192

/-- Column descriptor `c` of a header. -/
def colOf (h : List (BitVec 512)) (c : Nat) : Column :=
  let b := 64 + 8 * c
  { ty := lnByte h b, nullable := lnByte h (b + 1) % 2 = 1, firstRow := lnNum h (b + 2) 2, rows := lnNum h (b + 4) 2 }

/-- A column descriptor obeys R161 and R163. -/
def colOk (h : List (BitVec 512)) (values c : Nat) : Bool :=
  let x := colOf h c
  decide (x.ty ≤ 10) && decide (lnByte h (64 + 8 * c + 1) < 2) && lnNum h (64 + 8 * c + 6) 2 == 0 &&
  x.firstRow != 0 && decide (x.firstRow + x.rows ≤ 128) && decide (values * tyWidth x.ty ≤ 1024 * x.rows)

/-- A header that obeys R163: values, first null row and columns. -/
def parseHeader (h : List (BitVec 512)) (need : List Nat) : Option (Nat × Nat × List Column) :=
  let cols := lnByte h 2
  let nrow := lnByte h 3
  let values := lnNum h 4 4
  let cs := (List.range cols).map (colOf h)
  let nullable := countIf cs (fun c => c.nullable)
  if lnNum h 0 2 = 1 && 1 ≤ cols && cols ≤ 16 && values ≤ 130048 &&
     (List.range 48).all (fun i => lnByte h (16 + i) == 0) && (List.range cols).all (colOk h values) &&
     !(nullable ≠ 0 && (nrow = 0 || 128 < nrow + nullable * nullRows values)) && need.all (fun c => c < cols)
  then some (values, nrow, cs) else none

/-- First row of the null bitmap of a nullable column (R162). -/
def nullRowOf (t : Tile) (c : Nat) : Nat := t.nullRow + countIf (t.cols.take c) (fun x => x.nullable) * nullRows t.values

/-- Rows that a tile needs, ascending (R158). -/
def needRows (t : Tile) (need : List Nat) : List Nat :=
  (List.range 128).filter (fun r => need.any (fun c =>
    match t.cols[c]? with
    | none => false
    | some x => (x.firstRow ≤ r && r < x.firstRow + x.rows) ||
        (x.nullable && nullRowOf t c ≤ r && r < nullRowOf t c + nullRows t.values)))

/-- The widened value of a column's bits (R164). -/
def widen (ty : Nat) (v : Nat) : W64 :=
  match ty with
  | 4 => (BitVec.ofNat 8 v).signExtend 64
  | 5 => (BitVec.ofNat 16 v).signExtend 64
  | 6 => (BitVec.ofNat 32 v).signExtend 64
  | 8 => fOf32 (BitVec.ofNat 32 v)
  | _ => BitVec.ofNat 64 v

/-- Row, byte in it, and width of value `i` of a column (R162). -/
def valuePlace (x : Column) (i : Nat) : Nat × Nat :=
  (x.firstRow + i * tyWidth x.ty / 1024, i * tyWidth x.ty % 1024)
/-- Row and byte of the null bit of value `i` of column `c`. -/
def nullPlace (t : Tile) (c i : Nat) : Nat × Nat := (nullRowOf t c + i / 8192, i % 8192 / 8)

/-- Value `i` of column `c` from the rows of the tile: widened, with its null flag; a null value is 0 (R164, R191). -/
def tileValue (t : Tile) (rows : Nat → List (BitVec 512)) (c i : Nat) : LaneVal :=
  match t.cols[c]? with
  | none => {}
  | some x =>
    let n := nullPlace t c i
    if x.nullable && bit (BitVec.ofNat 8 (lnByte (rows n.1) n.2)) (i % 8) then { null := true }
    else
      let p := valuePlace x i
      { val := widen x.ty (lnNum (rows p.1) p.2 (tyWidth x.ty)) }

/-- The lane of value `i` when the program has ended, and whether it qualifies (R159, R190-R192). -/
def evalLane (d : BitVec 1024) (p : BitVec 4096) (t : Tile) (rows : Nat → List (BitVec 512)) (i : Nat) : PLane × Bool :=
  let c := (List.range 8).map (fun j => if dBound d j then tileValue t rows (dBind d j) i else {})
  let l := (PLane.start c true).run p (dPredEn d) true
  (l, l.hit true)

/-! Entries (R178, R179). -/

/-- A position (R178). -/
def position (nulls page index : Nat) : W64 := BitVec.ofNat 64 (nulls * 2 ^ 56 + page * 131072 + index)

/-- A PROJECT entry. -/
def projectEntry (page index : Nat) (vs : List LaneVal) : List Byte :=
  let nulls := ((List.range vs.length).map (fun j => if (nth vs j {}).null then 2 ^ j else 0)).sum
  toBytes (position nulls page index) 8 ++ vs.flatMap (fun v => toBytes (if v.null then 0#64 else v.val) 8)

/-- A BITMAP record: page, values, the hits of the tile (R178). -/
def bitmapEntry (page values : Nat) (hits : List Nat) : List Byte :=
  let n := (values + 7) / 8
  let m : Nat := hits.foldl (fun m i => m ||| 2 ^ i) 0
  toBytes (BitVec.ofNat 32 page) 4 ++ toBytes (BitVec.ofNat 32 values) 4 ++
  (List.range ((n + 7) / 8 * 8)).map (fun i => BitVec.ofNat 8 (m >>> (8 * i)))

/-- A group record (R179). -/
def groupRecord (d : BitVec 1024) (g : Group) : List Byte :=
  let empties := (List.range 4).map (fun j => (dAgg d j / 4096 != 0) && (nth g.aggs j {}).empty)
  let e := ((List.range 4).map (fun j => if nth empties j false then 2 ^ j else 0)).sum
  let o := ((List.range 4).map (fun j => if (nth g.aggs j {}).ovf then 2 ^ j else 0)).sum
  let key : W64 := if g.keyNull then 0 else g.key
  toBytes key 8 ++ toBytes (BitVec.ofNat 48 g.rows) 6 ++
  [BitVec.ofNat 8 (e + 16 * b2n g.keyNull), BitVec.ofNat 8 o] ++
  (List.range 4).flatMap (fun j =>
    let a := nth g.aggs j {}
    toBytes (if a.empty then 0#64 else if a.nanOnly then quietNan else a.val) 8)

/-! Aggregation (R180). -/

/-- One non-null source value. -/
def Agg.add (a : Agg) (func : Nat) (float : Bool) (v : W64) : Agg :=
  match func, float with
  | 2, _ => { a with val := a.val + 1, empty := false }
  | 1, false =>
    let x := a.val.toInt + v.toInt
    { a with val := a.val + v, empty := false, ovf := a.ovf || x < -9223372036854775808 || 9223372036854775807 < x }
  | 1, true => { a with val := if a.empty then v else fAdd a.val v, empty := false }
  | f, false =>
    { a with val := if a.empty then v else if f = 3 then (if v.toInt < a.val.toInt then v else a.val)
               else (if a.val.toInt < v.toInt then v else a.val),
             empty := false }
  | f, true =>
    if fNan v then { a with nanOnly := a.empty || a.nanOnly, empty := false }
    else
      let x := if a.empty || a.nanOnly then v else if f = 3 then fMin a.val v else fMax a.val v
      { a with val := x, empty := false, nanOnly := false }

/-- A qualifying lane in its group. -/
def Group.add (d : BitVec 1024) (g : Group) (l : PLane) : Group :=
  { g with
    rows := g.rows + 1,
    aggs := (List.range 4).map (fun j =>
      let a := dAgg d j
      let x := nth g.aggs j {}
      let v := l.reg (a % 16)
      if a / 4096 = 0 || v.null then x else x.add (a / 4096) (a / 256 % 16 == 1) v.val) }

/-- A new group. -/
def Group.new (key : W64) (null : Bool) : Group := { key := key, keyNull := null, aggs := List.replicate 4 {} }
/-- The group of a key. -/
def Group.is (g : Group) (key : W64) (null : Bool) : Bool := if null then g.keyNull else !g.keyNull && g.key == key

/-- Add a qualifying lane to the groups, in order of first appearance; `none` beyond 4,096 groups (R172). -/
def groupAdd (d : BitVec 1024) (gs : List Group) (key : W64) (null : Bool) (l : PLane) : Option (List Group) :=
  if gs.any (fun g => g.is key null) then some (gs.map (fun g => if g.is key null then g.add d l else g))
  else if 4096 ≤ gs.length then none
  else some (gs ++ [(Group.new (if null then 0 else key) null).add d l])

/-! Hashing (R182). -/
def hashK1 : W64 := 0x9E3779B97F4A7C15#64
def hashK2 : W64 := 0xC2B2AE3D27D4EB4F#64
/-- The bucket of a key. -/
def hashBucket (log2 : Nat) (key : W64) : Nat := if log2 = 0 then 0 else (key * hashK1).toNat >>> (64 - log2)
/-- Bit `i` of the Bloom filter for a key. -/
def bloomBit (log2 i : Nat) (key : W64) : Nat :=
  (key * hashK1 + BitVec.ofNat 64 i * ((key * hashK2) ||| 1)).toNat >>> (64 - log2)
/-- A key hits a Bloom filter. -/
def bloomHit (f : List (BitVec 512)) (log2 k : Nat) (key : W64) : Bool :=
  (List.range k).all (fun i =>
    let b := bloomBit log2 i key
    bit (nth f (b / 512) 0) (b % 512))

end Sys2Proof.Machine
end

