-- ==== Sys2Proof/Machine/Engine.lean ====
section
/-! DEFINITION. The operator engines at work: requests, tiles, outputs, fault records, PROBE, GATHER, COPY and the
end of a part (06_operator_engines, R156-R186). Every request goes through the engine's port and Kerb, and its answer is used once
it has come back to the port. -/

namespace Sys2Proof.Machine

/-! The running job. -/

/-- A job by its number. -/
def State.jobOf (s : State) (id : Nat) : Option Job := s.engs.jobs.find? (fun j => j.id == id)
/-- Change a job. -/
def State.modJob (s : State) (id : Nat) (f : Job → Job) : State :=
  { s with engs := { s.engs with jobs := s.engs.jobs.map (fun j => if j.id = id then f j else j) } }
/-- Change the part of an engine. -/
def State.modRun (s : State) (e : Fin 64) (f : EngRun → EngRun) : State :=
  s.modEng e (fun x => { x with run := x.run.map f })
/-- The part and the job that an engine works on. -/
def State.running (s : State) (e : Fin 64) : Option (EngRun × Job) :=
  (s.engs.eng[e].run).bind (fun r => (s.jobOf r.job).map (fun j => (r, j)))
/-- The identity of an engine's requests (R157). -/
def State.engWho (s : State) (e : Fin 64) (j : Job) : MasterId := j.ident.getD (s.self (agentEngine e.val))
/-- The class index of a job. -/
def Job.clsIx (j : Job) : Fin 16 := ⟨j.cls.toNat % 16, Nat.mod_lt _ (by decide)⟩

/-! Requests (R157). -/

/-- An address of this node. -/
def State.isLocal (s : State) (a : Nat) : Bool := gaNode a == s.fab.nodeId.toNat

/-- A whole line, or part of one under a mask. -/
def lineKind (data : BitVec 512) (mask : BitVec 64) : ReqKind :=
  if mask = BitVec.allOnes 64 then .lineWrite data false else .partialWrite data mask

/-- Issue a request of an engine at its port (R157): what it is for is in `x`, whose tag and address are set here. -/
def State.engIssue (s : State) (e : Fin 64) (j : Job) (a : Nat) (k : ReqKind) (x : EngIo) : State :=
  let tag := s.engs.eng[e].nextTag
  let r : Req := { master := s.engWho e j, tag := tag, cls := j.cls, node := BitVec.ofNat 12 (gaNode a),
                   addr := BitVec.ofNat 40 (gaLocal a), kind := k, origin := .port (portEngine e) 0 }
  (s.modEng e (fun y => { y with
    nextTag := y.nextTag + 1, io := y.io ++ [{ x with tag := tag, gaddr := a, write := isWrite k }] })).portIssue (portEngine e) r

/-- A request that only names its address and answer. -/
def plainIo : EngIo := { tag := 0, gaddr := 0, write := false }

/-- The line reads of an engine that are for no tile: its input list, filter and program block. -/
def EngIo.plainRead (i : EngIo) (a : Nat) : Bool := !i.write && i.src.isNone && i.lane.isNone && i.gaddr == a

/-- Read `n` lines upwards: the first status that is not OK, and the data; `none` while an answer is to come. -/
def State.engLines (s : State) (e : Fin 64) (j : Job) (a n : Nat) : State × Option (CStatus × List (BitVec 512)) :=
  let as := (List.range n).map (fun i => a / 64 * 64 + 64 * i)
  let s := as.foldl (fun s x =>
    if (s.engs.eng[e].io).any (fun i => i.plainRead x) then s else s.engIssue e j x .lineRead plainIo) s
  let gots := as.map (fun x => ((s.engs.eng[e].io).find? (fun i => i.plainRead x)).bind (fun i => i.got))
  if gots.all (fun g => g.isSome) then
    let vs := gots.filterMap id
    (s.modEng e (fun x => { x with io := x.io.filter (fun i => !as.any i.plainRead) }),
     some (((vs.map (fun v => v.status)).find? (fun st => decide (st ≠ .ok))).getD .ok, vs.map (fun v => nth v.data 0 0)))
  else (s, none)

/-- Read a line: `none` while its answer has not come. -/
def State.engRead (s : State) (e : Fin 64) (j : Job) (a : Nat) : State × Option (CStatus × BitVec 512) :=
  match s.engLines e j a 1 with
  | (s, some (st, ls)) => (s, some (st, nth ls 0 0))
  | (s, none) => (s, none)

/-- Write a line, whole or under a mask; its answer comes later. -/
def State.engWrite (s : State) (e : Fin 64) (j : Job) (a : Nat) (data : BitVec 512) (mask : BitVec 64) (record : Option Bool := none) : State :=
  s.engIssue e j a (lineKind data mask) { plainIo with record := record }

/-! Source reads (R158, R171, R458). -/

/-- The engine may issue a source read now: fewer than ENG_RATE lie in the last 16 strobes; a rate of 16 sets no limit (R458). -/
def State.rateOpen (s : State) (e : Fin 64) : Bool :=
  let r := govEngRate s.thm.level
  decide (16 ≤ r) || decide (countIf (s.engs.eng[e].reads) (fun t => decide (s.strobe < t + 16)) < r)

/-- Issue the read of a row, or of one line of it, of a source page under its held entry (R171). -/
def State.srcRead (s : State) (e : Fin 64) (j : Job) (page : Nat) (x : SrcRead) : State :=
  let a := s.fab.nodeId.toNat * 1099511627776 + page * 131072 + x.row * 1024 + 64 * x.line.getD 0
  let s := s.modEng e (fun y => { y with reads := y.reads.filter (fun t => decide (s.strobe < t + 16)) ++ [s.strobe] })
  s.engIssue e j a (if x.line.isNone then .rowRead true else .lineRead) { plainIo with src := some x }

/-- Issue source reads in their order as far as ENG_RATE lets them (R458): those that were not issued are left. -/
def State.srcReads (s : State) (e : Fin 64) (j : Job) (page : Nat) : List SrcRead → State × List SrcRead
  | [] => (s, [])
  | x :: xs => if s.rateOpen e then (s.srcRead e j page x).srcReads e j page xs else (s, x :: xs)

/-- Source reads of a tile, position or page that have been issued and whose answers have not been used. -/
def State.srcWait (s : State) (e : Fin 64) (tag : BitVec 16) : Bool :=
  (s.engs.eng[e].io).any (fun i => match i.src with | some x => x.tile == tag | none => false)

/-- The answer to a source read of a tile: its lines, or the fault that the tile fails with (R172): a line that failed its checks, or a
refusal of them all. -/
def Tile.take (t : Tile) (x : SrcRead) (g : IoGot) : Tile :=
  let base := 16 * x.row + x.line.getD 0
  let bad := fun (st : CStatus) (loc : Nat) => { t with fail := some (t.fail.getD { page := t.page, reason := 1, status := st, loc := loc }) }
  if g.lines.isEmpty then bad g.status 0
  else match (List.range g.lines.length).find? (fun i => decide ((nth g.lines i (.ok, false)).1 ≠ .ok)) with
    | some i => bad (nth g.lines i (.ok, false)).1 (base + i)
    | none => { t with lines := (List.range g.data.length).foldl (fun m i => smPut m (base + i) (nth g.data i 0)) t.lines }

/-- The answers that have come for a tile, position or page, in the order of issue: they are taken from the engine, which counts the
rows among them (R189). -/
def State.srcTake (s : State) (e : Fin 64) (tag : BitVec 16) : State × List (SrcRead × IoGot) :=
  let mine := fun (i : EngIo) => match i.src with | some x => x.tile == tag && i.got.isSome | none => false
  let got := (s.engs.eng[e].io).filterMap (fun i => if mine i then i.src.bind (fun x => i.got.map (fun g => (x, g))) else none)
  (s.modEng e (fun x => { x with
    io := x.io.filter (fun i => !mine i), rows := satAdd x.rows (countIf got (fun g => g.1.line.isNone)) }), got)

/-- A tile takes the answers that have come for it. -/
def State.feed (s : State) (e : Fin 64) (t : Tile) : State × Tile :=
  let g := s.srcTake e t.tag
  (g.1, g.2.foldl (fun t x => t.take x.1 x.2) t)

/-- A row of a tile, from the lines that have come. -/
def Tile.row (t : Tile) (row : Nat) : List (BitVec 512) := (List.range 16).map (fun i => smGetD t.lines (16 * row + i) 0)

/-! Faults of a job (R172, R173, R175, R181). -/

/-- The job stops: STOP_ON_ERROR. -/
def State.stopJob (s : State) (j : Job) : State :=
  if dStop j.desc then s.modJob j.id (fun x => { x with stop := true }) else s

/-- An engine stops as R173 states. -/
def State.engStop (s : State) (e : Fin 64) (j : Job) : State := (s.modRun e (fun r => { r with stopped := true })).stopJob j

/-- The write of a fault record was refused (R181): the engine writes no further one and stops; the fault counts in TILES_FAILED. -/
def State.recordRefused (s : State) (e : Fin 64) (j : Job) (counted : Bool) : State :=
  (s.modRun e (fun r => { r with recordOff := true, tilesFailed := r.tilesFailed + b2n (!counted) })).engStop e j

/-- The 16 bytes of a fault record (R181). -/
def recordBytes (f : EngFault) (tag : W32) : List Byte :=
  toBytes (BitVec.ofNat 32 (f.page % 2097152)) 4 ++ [BitVec.ofNat 8 f.reason, BitVec.ofNat 8 f.status.code] ++
  toBytes (BitVec.ofNat 16 f.loc) 2 ++ toBytes (BitVec.ofNat 32 f.position) 4 ++ toBytes tag 4

/-- A fault of an engine: first fault, ENG_LAST_FAULT, and its record among the first 64 (R181, R187, R189). A fault that is not a failed
tile or page (`counted` false) counts in TILES_FAILED where it is beyond the 64 records. DEDUCED (log entry 93). -/
def State.engFault (s : State) (e : Fin 64) (j : Job) (f : EngFault) (counted : Bool := false) : State :=
  let s := s.modEng e (fun x => { x with lastFault := at32 28 f.reason ||| at32 24 f.status.code ||| at32 0 (f.page % 2097152) })
  match s.engs.eng[e].run with
  | none => s
  | some r =>
    let n := r.recorded
    let s := s.modRun e (fun r => { r with first := some (r.first.getD f), recorded := r.recorded + 1 })
    if !dFaultEn j.desc then s
    else if 64 ≤ n || r.recordOff then s.modRun e (fun r => { r with tilesFailed := r.tilesFailed + b2n (!counted) })
    else
      let a := dFault j.desc + e.val * 1024 + 16 * n
      let p := linePart (a / 64 * 64) a (recordBytes f (dTag j.desc))
      s.engWrite e j (a / 64 * 64) p.1 p.2 (some counted)

/-- The page that a REMOTE fault names: that of the tile being evaluated, or worked on last; 0 for the segment header (R181). -/
def EngRun.page (r : EngRun) : Nat := if r.ending = 2 then 0 else match r.tile with | some t => t.page | none => r.cur

/-- An output write was refused (R175). -/
def State.outRefused (s : State) (e : Fin 64) (j : Job) (page : Nat) (st : CStatus) : State :=
  (s.engFault e j { page := page, reason := 4, status := st }).engStop e j

/-- Tags of the tile in progress, the tile read ahead, the position and the page of a COPY. -/
def EngRun.tags (r : EngRun) : List (BitVec 16) :=
  (r.tile.toList ++ r.next.toList ++ (r.gather.map (fun g => g.1)).toList).map (fun t => t.tag) ++ (r.copy.map (fun c => c.tag)).toList

/-- An answer that has come and that nothing waits for: of a tile or lane that has ended. -/
def EngRun.stale (r : EngRun) (i : EngIo) : Bool :=
  i.got.isSome &&
  ((match i.src with | some x => !r.tags.contains x.tile | none => false) ||
   (match i.lane with | some x => r.tile.all (fun t => t.tag != x.1) || r.probe.isNone | none => false))

/-- An answered write whose outcome takes effect when it is seen: all but the writes of a COPY's page. -/
def EngIo.settled (i : EngIo) (copy : Bool) : Bool := i.write && i.got.isSome && !(copy && i.record.isNone)

/-- Outcomes of writes that have come: the refused ones take effect (R175, R181). Answers that nothing waits for are let go. -/
def State.collect (s : State) (e : Fin 64) (j : Job) : State :=
  let copy := dOp j.desc == opCopy
  let done := (s.engs.eng[e].io).filter (fun i => i.settled copy)
  let s := s.modEng e (fun x => { x with io := x.io.filter (fun i => !i.settled copy && !(x.run.all (fun r => r.stale i) && i.got.isSome)) })
  done.foldl (fun s i =>
    match i.got with
    | none => s
    | some g =>
      if g.status = .ok then s
      else match i.record with
        | some counted => s.recordRefused e j counted
        | none => s.outRefused e j (match s.engs.eng[e].run with | some r => r.page | none => 0) g.status) s

/-- Rows of the engine's channel are let go, but for those of one page (R158). -/
def State.releaseBut (s : State) (e : Fin 64) (keep : Option Nat) : State :=
  s.modCtl e (fun c => Ctl.trim { c with
    rc := c.rc.map (fun r => { r with held := r.held && keep == some (s.addrOf e.val r.row 0 / 131072) }) })

/-- Rows of the engine's channel that no tile in progress needs are let go (R158). -/
def State.releaseRows (s : State) (e : Fin 64) : State :=
  s.releaseBut e ((s.engs.eng[e].run).bind (fun r => r.tile.map (fun t => t.page)))

/-- The job has been told to stop, or is gone (R173). -/
def State.jobStop (s : State) (id : Nat) : Bool := match s.jobOf id with | some x => x.stop | none => true

/-- The tile in progress has ended: the tile read ahead takes its place, unless the engine starts no further tile (R158, R173). -/
def State.nextTile (s : State) (e : Fin 64) (j : Job) : State :=
  (s.modRun e (fun r => { r with
    cur := r.page, tile := if r.stopped || s.jobStop j.id then none else r.next, next := none, probe := none })).releaseRows e

/-- A tile or page fails (R172, R189). -/
def State.tileFails (s : State) (e : Fin 64) (j : Job) (f : EngFault) : State :=
  let s := s.engFault e j f true
  let s := s.modRun e (fun r => { r with tilesFailed := r.tilesFailed + 1, failed := true })
  ((s.modEng e (fun x => { x with tileFaults := satAdd x.tileFaults 1 })).stopJob j).nextTile e j

/-! Output (R176-R178). -/

/-- An entry joins the body, if it fits whole (R177); ENTRIES counts it either way. -/
def EngRun.entry (r : EngRun) (d : BitVec 1024) (bs : List Byte) (count : Nat) : EngRun :=
  let r := { r with entries := r.entries + count }
  if dStride d = 0 || r.truncated then r
  else if dStride d - 64 < r.bodyBytes + bs.length then { r with truncated := true }
  else { r with body := r.body ++ bs, bodyBytes := r.bodyBytes + bs.length }

/-- Write the whole lines of the body, or all of it padded at the end (R177). -/
def State.flushBody (s : State) (e : Fin 64) (j : Job) (final : Bool) : Nat → State
  | 0 => s
  | n + 1 =>
    match s.engs.eng[e].run with
    | none => s
    | some r =>
      if r.stopped && !final then s
      else if r.body.length < 64 && !(final && !r.body.isEmpty) then s
      else
        let a := dOut j.desc + e.val * dStride j.desc + 64 + (r.bodyBytes - r.body.length)
        ((s.engWrite e j a (ofBytes 512 (r.body.take 64)) (BitVec.allOnes 64)).modRun e (fun r => { r with body := r.body.drop 64 })).flushBody
          e j final n
/-- The fuel that a body needs. -/
def State.bodyLines (s : State) (e : Fin 64) : Nat :=
  match s.engs.eng[e].run with | some r => r.body.length / 64 + 1 | none => 0

/-- The segment header (R176). -/
def headerLine (r : EngRun) : BitVec 512 :=
  let f := fun (lo v : Nat) => BitVec.ofNat 512 (v <<< lo)
  let st : Nat := match r.first with | some x => x.status.code | none => 0
  f 0 r.entries ||| f 64 r.values ||| f 128 r.tilesDone ||| f 160 r.tilesFailed ||| f 192 r.chainCut |||
  f 224 r.skipped ||| f 256 st ||| f 264 (b2n r.truncated) ||| f 265 (b2n r.stopped) ||| f 320 r.bodyBytes

/-! Jobs and tiles (R156-R158, R171). -/

/-- Pages of a job in an engine's channel, ascending (R156). -/
def State.jobPages (s : State) (d : BitVec 1024) (e : Fin 64) : List Nat :=
  ((List.range (dSrcCount d)).map (fun i => dSrcPage d + i)).filter (fun p =>
    decide ((decodePage s.glb.variant s.glb.mapOrder p).1 = e))

/-- ENGINE_JOB_START (R156): the engine starts its oldest dispatched job. -/
def execEngineJobStart (e : Fin 64) (s : State) : Res :=
  let x := s.engs.eng[e]
  match x.run, x.pending with
  | none, id :: rest =>
    if s.dieUp && (decide (x.fn.st = .on) || decide (x.fn.st = .stopping)) then
      match s.jobOf id with
      | none => .next s
      | some j =>
        let tiles := if dOp j.desc = opGather then [] else s.jobPages j.desc e
        .next (s.modEng e (fun x => { x with pending := rest, run := some { job := id, tiles := tiles } }))
    else .next s
  | _, _ => .next s

/-- PROBE with a Bloom filter needs its filter (R182). -/
def needsFilter (j : Job) : Bool := dOp j.desc == opProbe && dKind j.desc == 0

/-- BLOOM_FILTER_LOAD (R182): the engine has its filter, or the load has failed and it processes no tile. -/
def execBloomFilterLoad (e : Fin 64) (s : State) : Res :=
  match s.running e with
  | none => .next s
  | some (r, j) =>
    if !s.dieUp || !needsFilter j || r.filter.isSome || r.stopped then .next s
    else
      match s.engLines e j (dTable j.desc) ((2 ^ dLog2 j.desc + 511) / 512) with
      | (s, none) => .next s
      | (s, some (.ok, ls)) => .next (s.modRun e (fun r => { r with filter := some ls }))
      | (s, some (st, _)) =>
        .next ((s.outRefused e j 0 st).modRun e (fun r => { r with tiles := [] }))

/-- The walker is told to fetch the counter lines of the next page of an engine's source range (CTR_PREFETCH, R154). -/
def State.walkAhead (s : State) (e : Fin 64) (rest : List Nat) : State :=
  match rest with
  | [] => s
  | page :: _ =>
    if bit s.chs[e].cry.cfg 31 && (s.ctrNeeded (s.pageEntry page) (page * 131072)).isSome && !s.sec.ahead.contains (page * 256) &&
       decide (s.walksOf e < 32) then
      { s with sec := { s.sec with ahead := s.sec.ahead ++ (List.range 256).map (fun i => page * 256 + i) } }
    else s

/-- Look up a page's entry (R171), and begin to read its header row: the tile. One that TILE_FORMAT is armed for fails with FORMAT and
reads nothing (R189). -/
def State.openTile (s : State) (e : Fin 64) (j : Job) (page : Nat) : State × Tile :=
  let tag := s.engs.eng[e].nextTag
  let t : Tile := { page := page, entry := s.pageEntry page, tag := tag }
  let s := s.modEng e (fun x => { x with nextTag := x.nextTag + 1 })
  if s.engs.eng[e].injFormat then
    (s.modEng e (fun x => { x with injFormat := false }), { t with fail := some { page := page, reason := 2, status := .ok } })
  else (s.srcRead e j page { tile := tag, row := 0, line := none, entry := t.entry }, { t with asked := [0] })

/-- Rows that the engine may still hold, those on their way counted (R158). -/
def State.holdRoom (s : State) (e : Fin 64) : Nat :=
  fieldN (s.engs.eng[e].cfg) 24 8 - countIf s.chs[e].ctl.rc (fun r => r.held) -
  countIf (s.engs.eng[e].io) (fun i => i.src.isSome && i.got.isNone)

/-- TILE_START (R158, R171): the engine looks up the page entry of its next tile and reads the header row; while a tile whose rows have
come is evaluated, it does so ahead, if PREFETCH_EN is set and it may hold one more row. A page that a command is changing waits for
the change (R25). -/
def execTileStart (e : Fin 64) (s : State) : Res :=
  match s.running e with
  | none => .next s
  | some (_, j) =>
    let s := s.collect e j
    match s.engs.eng[e].run with
    | none => .next s
    | some r =>
      if !s.dieUp || dOp j.desc = opGather || dOp j.desc = opCopy || r.stopped || s.jobStop j.id ||
         (needsFilter j && r.filter.isNone) || !s.rateOpen e then .next s
      else match r.tiles with
        | [] => .next s
        | page :: rest =>
          if s.changing page then .next s
          else
            let v := (s.modRun e (fun r => { r with tiles := rest })).walkAhead e rest
            match r.tile with
            | none =>
              let o := v.openTile e j page
              .next (o.1.modRun e (fun r => { r with tile := some o.2 }))
            | some t =>
              if !t.arrived || t.fail.isSome || r.next.isSome || !bit (s.engs.eng[e].cfg) 23 || s.holdRoom e = 0 then .next s
              else
                let o := v.openTile e j page
                .next (o.1.modRun e (fun r => { r with next := some o.2 }))

/-- Read on in a tile (R158): its answers are taken; once its header has come and obeys R163, the rows it needs are asked for, at most `n`
of them now and as many as ENG_RATE lets; it has arrived when all have come. A tile that fails asks for no further row. -/
def State.readOn (s : State) (e : Fin 64) (j : Job) (t : Tile) (n : Nat) : State × Tile :=
  let f := s.feed e t
  let t := f.2
  if t.fail.isSome || (!t.parsed && (smGet? t.lines 0).isNone) then f
  else match (if t.parsed then some t else (parseHeader (t.row 0) (dNeed j.desc)).map (fun h =>
      { t with parsed := true, values := h.1, nullRow := h.2.1, cols := h.2.2 })) with
    | none => (f.1, { t with fail := some { page := t.page, reason := 2, status := .ok } })
    | some t =>
      let todo := (needRows t (dNeed j.desc)).filter (fun row => !t.asked.contains row)
      let o := f.1.srcReads e j t.page ((todo.take n).map (fun row => { tile := t.tag, row := row, line := none, entry := t.entry }))
      let asked := (todo.take n).take ((todo.take n).length - o.2.length)
      (o.1, { t with asked := t.asked ++ asked, arrived := decide (asked.length = todo.length) && !o.1.srcWait e t.tag })

/-- TILE_ROWS_ARRIVE (R158): the rows of the tile come, each line checked under the held entry (R171); once they have come, those of the
tile read ahead, as far as the engine may hold them. -/
def execTileRowsArrive (e : Fin 64) (s : State) : Res :=
  match s.running e with
  | none => .next s
  | some (r, j) =>
    match r.tile with
    | none => .next s
    | some t =>
      if !s.dieUp then .next s
      else if t.arrived then
        match r.next with
        | none => .next s
        | some n =>
          if n.arrived || n.fail.isSome then .next s
          else
            let o := s.readOn e j n (s.holdRoom e)
            .next (o.1.modRun e (fun r => { r with next := some o.2 }))
      else
        let o := if t.fail.isSome then (s, t) else s.readOn e j t 128
        match o.2.fail with
        | some f => .next (o.1.tileFails e j f)
        | none => .next (o.1.modRun e (fun r => { r with tile := some o.2 }))

/-! Evaluation (R159, R172, R178-R183). -/

/-- The tile has contributed (R172, R187). -/
def State.tileDone (s : State) (e : Fin 64) (j : Job) (t : Tile) (r0 r1 : Nat) (f : EngRun → EngRun) : State :=
  let s := s.modRun e (fun r => f { r with
    values := r.values + t.values, tilesDone := r.tilesDone + 1, result0 := r.result0 + r0, result1 := r.result1 + r1 })
  let s := s.modEng e (fun x => { x with values := satAdd x.values t.values })
  let s := s.flushBody e j false (s.bodyLines e)
  s.nextTile e j

/-- The entries of a tile's hits: index and, for a hash table, the payloads (R178). -/
def hitEntries (d : BitVec 1024) (t : Tile) (hits : List (Nat × List W64)) (r : EngRun) : EngRun :=
  match dForm d with
  | 1 => r.entry d (bitmapEntry t.page t.values (hits.map (fun h => h.1))) hits.length
  | 2 => hits.foldl (fun r h => r.entry d (toBytes (position 0 t.page h.1) 8) 1) r
  | 3 => hits.foldl (fun r h => r.entry d (projectEntry t.page h.1
      ((dProjs d).map (fun c => tileValue t t.row c h.1))) 1) r
  | 6 => hits.foldl (fun r h => h.2.foldl (fun r p => r.entry d (toBytes (position 0 t.page h.1) 8 ++ toBytes p 8) 1) r) r
  | _ => r

/-- The hits of PROBE: for PAIRS, the matches (R187). -/
def probeHits (d : BitVec 1024) (hits : List (Nat × List W64)) : Nat :=
  if dForm d = 6 then (hits.map (fun h => h.2.length)).sum else hits.length

/-- A PROBE tile whose lanes have all been followed contributes. -/
def State.probeDone (s : State) (e : Fin 64) (j : Job) (t : Tile) (p : ProbeSt) : State :=
  s.tileDone e j t (probeHits j.desc p.done) p.probed (fun r =>
    hitEntries j.desc t p.done { r with chainCut := r.chainCut + p.cut })

/-- Lanes of the tile whose bucket read has been issued. -/
def State.lanesOut (s : State) (e : Fin 64) (tag : BitVec 16) : List Nat :=
  (s.engs.eng[e].io).filterMap (fun i => i.lane.bind (fun x => if x.1 = tag then some x.2 else none))

/-- Issue bucket reads for lanes that have none, up to 64 outstanding (R183). -/
def State.askBuckets (s : State) (e : Fin 64) (j : Job) : State :=
  match (s.engs.eng[e].run).bind (fun r => r.tile.bind (fun t => r.probe.map (fun p => (t, p)))) with
  | none => s
  | some (t, p) =>
    let out := s.lanesOut e t.tag
    ((p.lanes.filter (fun l => !out.contains l.index)).take (64 - out.length)).foldl (fun s l =>
      s.engIssue e j l.next .lineRead { plainIo with lane := some (t.tag, l.index) }) s

/-- TILE_EVALUATE (R159): the program runs over the tile's lanes and the tile contributes; a hash-table PROBE first
follows its bucket chains. A tile with no value contributes nothing (R163). -/
def execTileEvaluate (e : Fin 64) (s : State) : Res :=
  match s.running e with
  | none => .next s
  | some (r, j) =>
    match r.tile with
    | none => .next s
    | some t =>
      if !t.arrived || r.probe.isSome || !s.dieUp then .next s
      else if t.values = 0 then .next (s.nextTile e j)
      else
        let d := j.desc
        let lanes := (List.range t.values).filterMap (fun i =>
          let l := evalLane d j.prog t t.row i
          if l.2 then some (i, l.1) else none)
        if dOp d = opScan then
          if dForm d = 4 then
            let g := lanes.foldl (fun g l => g.add d l.2) (r.groups.headD (Group.new 0 false))
            .next (s.tileDone e j t lanes.length t.values (fun r => { r with groups := [g] }))
          else
            .next (s.tileDone e j t lanes.length t.values (hitEntries d t (lanes.map (fun l => (l.1, [])))))
        else if dOp d = opAgg then
          match lanes.foldl (fun (gs : Option (List Group)) l =>
              gs.bind (fun gs =>
                let k := l.2.reg (dSrc d)
                groupAdd d gs k.val k.null l.2)) (some r.groups) with
          | none => .next (s.tileFails e j { page := t.page, reason := 3, status := .ok })
          | some gs =>
            .next (s.tileDone e j t (gs.length - r.groups.length) t.values (fun r => { r with groups := gs }))
        else
          let keyed := lanes.filter (fun l => !(l.2.reg (dSrc d)).null)
          if dKind d = 0 then
            let f := r.filter.getD []
            let hits := keyed.filter (fun l => bloomHit f (dLog2 d) (dK d) (l.2.reg (dSrc d)).val)
            .next (s.probeDone e j t { lanes := [], done := hits.map (fun l => (l.1, [])), probed := lanes.length })
          else
            let ps := keyed.map (fun l =>
              let k := (l.2.reg (dSrc d)).val
              ({ index := l.1, key := k, next := dTable d + 64 * hashBucket (dLog2 d) k } : ProbeLane))
            let p : ProbeSt := { lanes := ps, probed := lanes.length }
            if ps.isEmpty then .next (s.probeDone e j t p)
            else .next ((s.modRun e (fun r => { r with probe := some p })).askBuckets e j)

/-- The matches of a bucket for a key, in entry order, and the next bucket (R183). -/
def bucketOf (b : BitVec 512) (key : W64) : List W64 × Nat :=
  ((List.range (fieldN b 0 2)).filterMap (fun i =>
     if b.extractLsb' (64 + 128 * i) 64 = key then some (b.extractLsb' (128 + 128 * i) 64) else none),
   fieldN b 6 46 * 64)

/-- A lane after its bucket `b` (R183): it follows the chain, its chain is cut after 16 buckets, or it is done with its matches. -/
def ProbeSt.step (p : ProbeSt) (l : ProbeLane) (b : BitVec 512) : ProbeSt :=
  let x := bucketOf b l.key
  let found := l.found ++ x.1
  let others := p.lanes.filter (fun y => y.index != l.index)
  if x.2 ≠ 0 && l.depth + 1 < 16 then
    { p with lanes := p.lanes.map (fun y => if y.index = l.index then { l with next := x.2, depth := l.depth + 1, found := found } else y) }
  else if x.2 ≠ 0 then { p with lanes := others, cut := p.cut + 1 }
  else { p with lanes := others, done := if found.isEmpty then p.done else smPut p.done l.index found }

/-- The first bucket read of the tile in progress that has been answered. -/
def State.bucketBack (s : State) (e : Fin 64) (tag : BitVec 16) : Option (EngIo × Nat × IoGot) :=
  (s.engs.eng[e].io).findSome? (fun i =>
    i.lane.bind (fun x => if x.1 = tag then i.got.map (fun g => (i, x.2, g)) else none))

/-- BUCKET_READ_RETURN (R183): a bucket is compared with its lane, and the chain followed; further bucket reads are issued. -/
def execBucketReadReturn (e : Fin 64) (s : State) : Res :=
  match s.running e with
  | none => .next s
  | some (r, j) =>
    match r.tile, r.probe with
    | some t, some p =>
      if !s.dieUp then .next s
      else match s.bucketBack e t.tag with
        | none => .next (s.askBuckets e j)
        | some (i, ix, g) =>
          let s := s.modEng e (fun x => { x with io := x.io.erase i })
          if g.status ≠ .ok then .next (s.tileFails e j { page := t.page, reason := 4, status := g.status })
          else match p.lanes.find? (fun l => l.index == ix) with
            | none => .next s
            | some l =>
              let p' := p.step l (nth g.data 0 0)
              if p'.lanes.isEmpty then .next (s.probeDone e j t p')
              else .next ((s.modRun e (fun r => { r with probe := some p' })).askBuckets e j)
    | _, _ => .next s

/-! GATHER (R184). -/

/-- A line of the position list, by number of the line's address. -/
def State.listLine (s : State) (e : Fin 64) (j : Job) (line : Nat) : State × Option (CStatus × BitVec 512) :=
  match (s.engs.eng[e].run).bind (fun r => r.gbuf.find? (fun x => x.1 == line)) with
  | some x => (s, some (.ok, x.2))
  | none =>
    match s.engRead e j (64 * line) with
    | (s, some (.ok, b)) => (s.modRun e (fun r => { r with gbuf := (line, b) :: r.gbuf.take 1 }), some (.ok, b))
    | o => o

/-- Eight bytes of the list from its byte `off`. -/
def State.listWord (s : State) (e : Fin 64) (j : Job) (off : Nat) : State × Option (CStatus × W64) :=
  let a := dTable j.desc + e.val * dInStride j.desc + off
  match s.listLine e j (a / 64) with
  | (s, some (.ok, x)) =>
    if a % 64 ≤ 56 then (s, some (.ok, x.extractLsb' (8 * (a % 64)) 64))
    else match s.listLine e j (a / 64 + 1) with
      | (s, some (.ok, y)) => (s, some (.ok, (y ++ x).extractLsb' (8 * (a % 64)) 64))
      | (s, o) => (s, o.map (fun z => (z.1, 0)))
  | (s, o) => (s, o.map (fun z => (z.1, 0)))

/-- A read of the list failed: positions read before it stand, and the engine ends as R173 states. -/
def State.listFails (s : State) (e : Fin 64) (j : Job) (st : CStatus) (pos : Nat) : State :=
  (s.engFault e j { page := 0, reason := 4, status := st, position := pos }).engStop e j

/-- The position in progress has ended: its rows are let go, but those of its page, which the next position often names (R158). -/
def State.posDone (s : State) (e : Fin 64) (page : Nat) : State :=
  (s.modRun e (fun r => { r with gather := none, cur := page })).releaseBut e (some page)

/-- A position that is skipped. -/
def State.skipPos (s : State) (e : Fin 64) (page : Nat) : State :=
  (s.modRun e (fun r => { r with skipped := r.skipped + 1, result1 := r.result1 + 1 })).posDone e page

/-- The entry of a position: RESULT0 counts it if it was written (R187). -/
def State.gatherEntry (s : State) (e : Fin 64) (j : Job) (page : Nat) (bs : List Byte) : State :=
  let s := s.modRun e (fun r =>
    let x := r.entry j.desc bs 1
    { x with result0 := x.result0 + b2n (x.bodyBytes != r.bodyBytes) })
  (s.flushBody e j false (s.bodyLines e)).posDone e page

/-- The entry of a position whose needed line or header failed: all NULLS bits set and all values 0. -/
def State.gatherBad (s : State) (e : Fin 64) (j : Job) (idx pos : Nat) (f : EngFault) : State :=
  (s.engFault e j { f with position := pos }).gatherEntry e j f.page
    (toBytes (position 255 f.page idx) 8 ++ (dProjs j.desc).flatMap (fun _ => List.replicate 8 0#8))

/-- Lines of a tile that a position needs: the rows and lines of its projected values and null bits. -/
def gatherLines (t : Tile) (d : BitVec 1024) (idx : Nat) : List (Nat × Nat) :=
  ((dProjs d).flatMap (fun c =>
    match t.cols[c]? with
    | none => []
    | some x =>
      let v := valuePlace x idx
      (v.1, v.2 / 64) :: (if x.nullable then [((nullPlace t c idx).1, (nullPlace t c idx).2 / 64)] else []))).dedup

/-- Ask for lines of a position, by 16 * row + line, as far as ENG_RATE lets. -/
def State.askLines (s : State) (e : Fin 64) (j : Job) (t : Tile) (ks : List Nat) : State × Tile :=
  let todo := ks.filter (fun k => !t.asked.contains k)
  let o := s.srcReads e j t.page (todo.map (fun k => { tile := t.tag, row := k / 16, line := some (k % 16), entry := t.entry }))
  (o.1, { t with asked := t.asked ++ todo.take (todo.length - o.2.length) })

/-- A position begins: it is skipped, or its page's entry is looked up and the header is asked for. -/
def State.gatherBegin (s : State) (e : Fin 64) (j : Job) (w : W64) (pos : Nat) : State :=
  let page := fieldN w 17 21
  let d := j.desc
  if page < dSrcPage d || dSrcPage d + dSrcCount d ≤ page || (decodePage s.glb.variant s.glb.mapOrder page).1 ≠ e then s.skipPos e page
  else
    let t : Tile := { page := page, entry := s.pageEntry page, tag := s.engs.eng[e].nextTag }
    let o := (s.modEng e (fun x => { x with nextTag := x.nextTag + 1 })).askLines e j t [0, 1, 2]
    o.1.modRun e (fun r => { r with gather := some (o.2, fieldN w 0 17, pos) })

/-- The position in progress goes on: its header, then the lines of its values, then its entry. -/
def State.gatherOn (s : State) (e : Fin 64) (j : Job) (t0 : Tile) (idx pos : Nat) : State :=
  let f := s.feed e t0
  let keep := fun (o : State × Tile) => o.1.modRun e (fun r => { r with gather := some (o.2, idx, pos) })
  let t := f.2
  match t.fail with
  | some x => f.1.gatherBad e j idx pos x
  | none =>
    let a := f.1.askLines e j t (if t.parsed then (gatherLines t j.desc idx).map (fun x => 16 * x.1 + x.2) else [0, 1, 2])
    if a.1.srcWait e t.tag || a.2.asked.any (fun k => (smGet? t.lines k).isNone) then keep a
    else if !t.parsed then
      match parseHeader (t.row 0) (dNeed j.desc) with
      | none => a.1.gatherBad e j idx pos { page := t.page, reason := 2, status := .ok }
      | some (v, n, cs) =>
        if v ≤ idx then a.1.skipPos e t.page
        else
          let t := { a.2 with parsed := true, values := v, nullRow := n, cols := cs }
          keep (a.1.askLines e j t ((gatherLines t j.desc idx).map (fun x => 16 * x.1 + x.2)))
    else if ((gatherLines t j.desc idx).map (fun x => 16 * x.1 + x.2)).any (fun k => !a.2.asked.contains k) then keep a
    else a.1.gatherEntry e j t.page (projectEntry t.page idx ((dProjs j.desc).map (fun c => tileValue t t.row c idx)))

/-- GATHER_LIST_READ (R184): the count of the list is read, and then one position at a time; a position whose page a command is
changing waits for the change (R25). -/
def execGatherListRead (e : Fin 64) (s : State) : Res :=
  match s.running e with
  | none => .next s
  | some (_, j) =>
    let s := s.collect e j
    match s.engs.eng[e].run with
    | none => .next s
    | some r =>
      if dOp j.desc ≠ opGather || !s.dieUp then .next s
      else match r.gather with
        | some (t, idx, pos) => .next (s.gatherOn e j t idx pos)
        | none =>
          if r.stopped || s.jobStop j.id then .next s
          else match r.gcount with
            | none =>
              match s.listWord e j 0 with
              | (s, none) => .next s
              | (s, some (.ok, n)) => .next (s.modRun e (fun r => { r with gcount := some n.toNat }))
              | (s, some (st, _)) => .next (s.listFails e j st 0)
            | some n =>
              if n ≤ r.gnext then .next s
              else match s.listWord e j (8 + 8 * r.gnext) with
                | (s, none) => .next s
                | (s, some (.ok, w)) =>
                  if s.changing (fieldN w 17 21) then .next s
                  else .next ((s.modRun e (fun r => { r with gnext := r.gnext + 1, values := r.values + 1 })).gatherBegin e j w r.gnext)
                | (s, some (st, _)) => .next (s.listFails e j st r.gnext)

/-! COPY (R185, R186). -/

/-- The destination page of a source page. -/
def copyDst (d : BitVec 1024) (page : Nat) : Nat := dTable d + (page - dSrcPage d) * 131072

/-- A page of a COPY failed: it counts as a failed page (R186, R189), and the engine goes on with its next page, a refused destination
write's too, as R186 has it and not R175 (DEDUCED, log entry 103). -/
def State.copyFails (s : State) (e : Fin 64) (j : Job) (page reason : Nat) (st : CStatus) : State :=
  (s.modRun e (fun r => { r with copy := none, refused := r.refused || decide (reason = 4) })).tileFails e j
    { page := gaLocal (copyDst j.desc page) / 131072, reason := reason, status := st }

/-- The page has been copied (R187). -/
def State.copyDone (s : State) (e : Fin 64) (page : Nat) : State :=
  (s.modRun e (fun r => { r with copy := none, tilesDone := r.tilesDone + 1, result0 := r.result0 + 1, cur := page })).releaseRows e

/-- The lines of a source row as the destination gets them (R186): a line that is poisoned itself or failed its checks is written poisoned,
the latter with a fault record. -/
def State.copyLines (s : State) (e : Fin 64) (j : Job) (page row : Nat) (g : IoGot) : State × List (BitVec 512 × Bool) :=
  (List.range g.lines.length).foldl (fun (acc : State × List (BitVec 512 × Bool)) i =>
    let l := nth g.lines i (.ok, false)
    if l.1 = .ok then (acc.1, acc.2 ++ [(nth g.data i 0, false)])
    else
      (if l.2 then acc.1 else acc.1.engFault e j
        { page := gaLocal (copyDst j.desc page) / 131072, reason := 1, status := l.1, loc := row * 16 + i }, acc.2 ++ [(0, true)])) (s, [])

/-- Send the next destination write of a row: to this node one line, to another node the row as a row write (R185). -/
def State.copySend (s : State) (e : Fin 64) (j : Job) (c : CopySt) : State :=
  let a := copyDst j.desc c.page + c.row * 1024
  if s.isLocal a then
    let l := nth c.data 0 (0, false)
    s.engIssue e j (a + 64 * (16 - c.data.length)) (.lineWrite l.1 l.2) plainIo
  else
    s.engIssue e j a (.rowWrite (c.data.map (fun l => l.1))
      ((List.range 16).foldl (fun (m : BitVec 16) i => setBit m i (nth c.data i (0, false)).2) 0)) plainIo

/-- The answers of a COPY's page: the source row, then its destination writes (R186). -/
def State.copyOn (s : State) (e : Fin 64) (j : Job) (c : CopySt) : State :=
  match (s.engs.eng[e].io).find? (fun i => i.write && i.record.isNone) with
  | some i =>
    match i.got with
    | none => s
    | some g =>
      let s := s.modEng e (fun x => { x with io := x.io.erase i })
      if g.status ≠ .ok then s.copyFails e j c.page 4 g.status
      else
        let n := if s.isLocal (copyDst j.desc c.page) then 1 else 16
        let s := s.modRun e (fun r => { r with result1 := r.result1 + countIf (c.data.take n) (fun l => l.2) })
        let c := { c with data := c.data.drop n }
        if !c.data.isEmpty then (s.modRun e (fun r => { r with copy := some c })).copySend e j c
        else if c.row = 127 then s.copyDone e c.page
        else s.modRun e (fun r => { r with copy := some { c with row := c.row + 1, asked := false } })
  | none =>
    if !c.asked then
      if s.rateOpen e then
        (s.srcRead e j c.page { tile := c.tag, row := c.row, line := none, entry := c.entry }).modRun e
          (fun r => { r with copy := some { c with asked := true } })
      else s
    else
      match s.srcTake e c.tag with
      | (s, (_, g) :: _) =>
        if g.lines.isEmpty then s.copyFails e j c.page 1 g.status
        else
          let o := s.copyLines e j c.page c.row g
          let c := { c with data := o.2 }
          ((o.1.modRun e (fun r => { r with copy := some c })).releaseRows e).copySend e j c
      | (s, []) => s

/-- COPY_PAGE (R185, R186): the engine copies its pages row by row; a page that a command is changing waits for the change (R25). -/
def execCopyPage (e : Fin 64) (s : State) : Res :=
  match s.running e with
  | none => .next s
  | some (_, j) =>
    let s := s.collect e j
    match s.engs.eng[e].run with
    | none => .next s
    | some r =>
      if dOp j.desc ≠ opCopy || !s.dieUp then .next s
      else match r.copy with
        | some c => .next (s.copyOn e j c)
        | none =>
          if r.stopped || s.jobStop j.id then .next s
          else match r.tiles with
            | [] => .next s
            | page :: rest =>
              if s.changing page then .next s
              else
                let c : CopySt := { page := page, entry := s.pageEntry page, tag := s.engs.eng[e].nextTag }
                let s := (s.modRun e (fun r => { r with tiles := rest, copy := some c })).walkAhead e rest
                .next ((s.modEng e (fun x => { x with nextTag := x.nextTag + 1 })).copyOn e j c)

/-! The end of a part (R176, R188). -/

/-- Nothing of the part is left to process. -/
def EngRun.finished (r : EngRun) (j : Job) : Bool :=
  let stop := r.stopped || j.stop
  r.tile.isNone && r.copy.isNone && r.gather.isNone &&
  (if dOp j.desc = opGather then stop || (match r.gcount with | some n => decide (n ≤ r.gnext) | none => false)
   else stop || (r.tiles.isEmpty && !(needsFilter j && r.filter.isNone)))

/-- The group records join the body (R178, R179). -/
def EngRun.withGroups (r : EngRun) (d : BitVec 1024) : EngRun :=
  if dForm d = 4 || dForm d = 5 then r.groups.foldl (fun r g => r.entry d (groupRecord d g) 1) r else r

/-- What a part contributes to its job (R187). -/
def EngRun.part (r : EngRun) (e : Fin 64) : Part :=
  { engine := e.val, result0 := r.result0, result1 := r.result1, first := r.first,
    failed := r.failed, truncated := r.truncated, stopped := r.stopped, refused := r.refused }

/-- The engine has ended its part: its contribution joins the job (R187). -/
def State.partDone (s : State) (e : Fin 64) (j : Job) : State :=
  match s.engs.eng[e].run with
  | none => s
  | some r =>
    ((s.modJob j.id (fun x => { x with parts := x.parts ++ [r.part e] })).modEng e (fun x => { x with
      run := none, io := [], jobs := satAdd x.jobs 1 })).releaseRows e

/-- Every request of the engine has been answered, and every answer to a write used. -/
def State.engQuiet (s : State) (e : Fin 64) : Bool := !(s.engs.eng[e].io).any (fun i => i.write || i.got.isNone)

/-- The body is written, then, once every write has completed, the header (R176, R177). -/
def State.endBody (s : State) (e : Fin 64) (j : Job) : State :=
  let s := s.modRun e (fun r => { (if r.ending = 0 then r.withGroups j.desc else r) with ending := 1, stopped := r.stopped || s.jobStop j.id })
  s.flushBody e j true (s.bodyLines e + 1)

def State.endHeader (s : State) (e : Fin 64) (j : Job) : State :=
  match s.engs.eng[e].run with
  | none => s
  | some r =>
    let s := s.modRun e (fun r => { r with ending := 2 })
    if dStride j.desc = 0 then s
    else s.engWrite e j (dOut j.desc + e.val * dStride j.desc) (headerLine r) (BitVec.allOnes 64)

/-- ENGINE_PART_END (R176, R188): body, fence, header, and the part's contribution once all have completed. -/
def execEnginePartEnd (e : Fin 64) (s : State) : Res :=
  match s.running e with
  | none => .next s
  | some (_, j) =>
    let s := s.collect e j
    match s.engs.eng[e].run with
    | none => .next s
    | some r =>
      if !s.dieUp || !r.finished j then .next s
      else
        let s := if r.ending = 0 then s.endBody e j else s
        if !s.engQuiet e then .next s
        else
          let s := if r.ending ≤ 1 then s.endHeader e j else s
          if !s.engQuiet e then .next s else .next (s.partDone e j)

end Sys2Proof.Machine
end

