-- ==== Sys2Proof/Machine/Queues.lean ====
section
/-! DEFINITION. Doorbells, work queues, the dispatcher, FORWARD queues, completions and pending interrupts
(13_command_interface, R336-R338, R352-R359; R170, R187, R188 of 06). -/

namespace Sys2Proof.Machine

/-! Doorbells (R338, R355). The value of a doorbell command holds the ring number or doorbell index in
[46:32] and the proposed TAIL in [31:0]. -/

/-- The part of a doorbell command. -/
def dbIndex (v : W64) : Nat := fieldN v 32 15
def dbTail (v : W64) : W32 := v.setWidth 32

/-- A proposed TAIL is within the ring (R338). -/
def dbInRange (tail head new : W32) (log2 : Nat) : Bool :=
  decide ((new - tail).toNat ≤ 2 ^ log2) && decide ((new - head).toNat ≤ 2 ^ log2)

/-- A doorbell write is ignored, counted and recorded (R338, R363). -/
def State.dbReject (s : State) (ring : Bool) (reason index : Nat) : State :=
  { s with cmd := { s.cmd with
      dbReject := satAdd s.cmd.dbReject 1, dbLast := at32 31 (b2n ring) ||| at32 28 reason ||| at32 0 index } }

/-- A write of CMD.RING_DB[r] by a master (R338). -/
def State.ringDb (s : State) (p : Path) (m : MasterId) (r : Fin 32) (new : W32) : State :=
  let x := s.cmd.rings[r]
  if !x.en then s.dbReject true 1 r.val
  else if !isCore p m && s.ownerId x.owner ≠ m then s.dbReject true 2 r.val
  else if !dbInRange x.tail x.head new x.log2 then s.dbReject true 3 r.val
  else s.modRing r (fun x => { x with tail := new })

/-- A work queue. -/
def State.wq (s : State) (q : Nat) : Option Queue := smGet? s.cmd.queues q
/-- Change a work queue that is not FREE. -/
def State.modWq (s : State) (q : Nat) (f : Queue → Queue) : State :=
  match s.wq q with
  | none => s
  | some x => { s with cmd := { s.cmd with queues := smPut s.cmd.queues q (f x) } }
/-- The queue bound to a doorbell. -/
def State.doorbellQueue (s : State) (d : Nat) : Option (Nat × Queue) :=
  s.cmd.queues.find? (fun kv => kv.2.doorbell.toNat == d)

/-- A write of CMD.WQ_DB[d] by a master (R355). -/
def State.wqDb (s : State) (p : Path) (m : MasterId) (d : Nat) (new : W32) : State :=
  match s.doorbellQueue d with
  | none => s.dbReject false 1 d
  | some (q, x) =>
    if x.st ≠ .active then s.dbReject false 4 d
    else if !isCore p m && s.ownerId x.owner ≠ m then s.dbReject false 2 d
    else if !dbInRange x.tail x.head new x.log2 then s.dbReject false 3 d
    else s.modWq q (fun x => { x with tail := new })

/-- RING_DOORBELL (R338). -/
def execRingDoorbell (p : Path) (m : MasterId) (value : W64) (s : State) : Res :=
  let r : Fin 32 := ⟨dbIndex value % 32, Nat.mod_lt _ (by decide)⟩
  .next (s.guardWrite p m (0x050108 + 0x20 * r.val) (fun s => s.ringDb p m r (dbTail value)))

/-- WQ_DOORBELL (R355). -/
def execWqDoorbell (p : Path) (m : MasterId) (value : W64) (s : State) : Res :=
  .next (s.guardWrite p m (0x070000 + 4 * dbIndex value) (fun s => s.wqDb p m (dbIndex value) (dbTail value)))

/-! QUEUE_CREATE and QUEUE_DESTROY (R353, R354). -/

/-- Two byte ranges overlap. -/
def overlap (a la b lb : Nat) : Bool := decide (a < b + lb) && decide (b < a + la)
/-- First byte beyond the user capacity (R135). -/
def State.userEnd (s : State) : Nat := treeBasePage s.glb.variant s.sec.capCode * 131072

/-- QUEUE_CREATE (R353). -/
def cmdQueueCreate (queue : BitVec 16) (flags log2 vector cls : BitVec 8) (owner : W32) (engines descBase cmplBase : W64)
    (doorbell targetNode targetQueue : BitVec 16) : CmdFn := fun s =>
  let n := 2 ^ log2.toNat
  let fwd := bit flags 7
  let db := descBase.toNat
  let cb := cmplBase.toNat
  let q := queue.toNat
  let bad1 := bit queue 15 || bit doorbell 15 || fieldN flags 3 4 ≠ 0 || fieldN owner 20 12 ≠ 0 || fieldN targetNode 12 4 ≠ 0 ||
    bit targetQueue 15 || 15 ≤ cls.toNat || log2.toNat < 4 || 16 < log2.toNat || (0 < vector.toNat && vector.toNat < 8)
  let bad2 := if fwd then decide (engines ≠ 0) || decide (targetNode.toNat = s.fab.nodeId.toNat) || decide (targetNode.toNat = 0xFFF)
    else decide (engines = 0) || decide (targetNode ≠ 0) || decide (targetQueue ≠ 0)
  let bad3 := db % (128 * n) ≠ 0 || cb % (32 * n) ≠ 0 || db < 0x4000000 || cb < 0x4000000 ||
    s.userEnd < db + 128 * n || s.userEnd < cb + 32 * n || overlap db (128 * n) cb (32 * n)
  let busy := (s.wq q).isSome || (s.doorbellQueue doorbell.toNat).isSome
  checked [(bad1, .badParam), (bad2, .badParam), (bad3, .badParam), (busy, .busy)] (fun s =>
    let g := smGetD s.cmd.gens q 0 + 1
    let x : Queue := { st := .active, engines := engines, descBase := descBase, cmplBase := cmplBase, owner := owner.setWidth 20,
                       cls := cls.setWidth 4, log2 := log2.toNat, vector := vector, hostPort := (flags.setWidth 3).toFin,
                       forward := fwd, doorbell := doorbell.setWidth 15, gen := g, targetNode := targetNode.setWidth 12,
                       targetQueue := targetQueue.setWidth 15 }
    ({ s with cmd := { s.cmd with queues := smPut s.cmd.queues q x, gens := smPut s.cmd.gens q g } }).okay (g.setWidth 64)) s

def execQueueCreate (c : CmdCtx) (queue : BitVec 16) (flags log2 vector cls : BitVec 8) (owner : W32) (engines descBase cmplBase : W64)
    (doorbell targetNode targetQueue : BitVec 16) (s : State) : Res :=
  .next (s.command c 0x0501 true (cmdQueueCreate queue flags log2 vector cls owner engines descBase cmplBase doorbell targetNode targetQueue))

/-- QUEUE_DESTROY (R354): the queue drains; the reply waits for QUEUE_DRAINED. -/
def cmdQueueDestroy (queue : BitVec 16) : CmdFn := fun s =>
  match s.wq queue.toNat with
  | none => s.refuse .badParam
  | some x =>
    if x.st = .draining then s.okay
    else (s.modWq queue.toNat (fun x => { x with st := .draining }), .wait (.destroy queue.toNat))

def execQueueDestroy (c : CmdCtx) (queue : BitVec 16) (s : State) : Res :=
  .next (s.command c 0x0502 true (cmdQueueDestroy queue))

/-- QUEUE_DRAINED (R354): DONE has reached HEAD; the context is freed and the command replies. -/
def execQueueDrained (queue : BitVec 15) (s : State) : Res :=
  match s.wq queue.toNat with
  | none => .next s
  | some x =>
    if x.st = .draining && x.done = x.head then
      let s := { s with cmd := { s.cmd with queues := smDel s.cmd.queues queue.toNat } }
      match s.cmd.waits.find? (fun w => w.kind == .destroy queue.toNat) with
      | some w => .next (s.finish w .ok ((x.tail - x.head).setWidth 64))
      | none => .next s
    else .next s

/-! Completions (R187, R188, R340, R356, R357). -/

/-- A completion record without its PHASE (R187). -/
structure CmplRec where
  tag : W32 := 0
  desc : CmdStatus := .ok
  data : Nat := 0
  flags : Nat := 0
  engine : Nat := 0xFF
  result0 : Nat := 0
  result1 : Nat := 0
  page : Nat := 0
  loc : Nat := 0
  gen : BitVec 16 := 0
deriving DecidableEq, Repr

/-- The 32 bytes of a completion (R187). -/
def CmplRec.bytes (r : CmplRec) (phase : Bool) : List Byte :=
  toBytes r.tag 4 ++ [BitVec.ofNat 8 r.desc.code, BitVec.ofNat 8 r.data, BitVec.ofNat 8 (r.flags + 128 * b2n phase), BitVec.ofNat 8 r.engine] ++
  toBytes (BitVec.ofNat 64 r.result0) 8 ++ toBytes (BitVec.ofNat 64 r.result1) 8 ++ toBytes (BitVec.ofNat 32 r.page) 4 ++
  toBytes (BitVec.ofNat 16 r.loc) 2 ++ toBytes r.gen 2

/-- Address of the slot of a queue's next completion. -/
def Queue.cmplSlot (x : Queue) : Nat := x.cmplBase.toNat + 32 * (x.done.toNat % 2 ^ x.log2)
/-- The channel of a queue's next completion is in a hold: completions wait for its end (R58). -/
def State.cmplHeld (s : State) (q : Nat) : Bool := match s.wq q with | some x => s.heldAt x.cmplSlot | none => false

/-- Write the next completion of a queue (R356, R357, R359). A draining queue whose write is refused stays DRAINING. The completion of a
job that names an engine of a stopping District is written into that District (R19 step 3). -/
def State.writeCmpl (s : State) (q : Nat) (r : CmplRec) (irq : Bool) (job : Option Job := none) : State :=
  match s.wq q with
  | none => s
  | some x =>
    let n := x.done.toNat
    let sz := 2 ^ x.log2
    let inside := match job with | some j => j.inDistrict (distOf (s.decodeAddr x.cmplSlot).ch) | none => false
    let w := s.writeBytesNow (s.ownerId x.owner) x.cmplSlot acPartial x.cls (r.bytes (n / sz % 2 == 0)) inside
    let ok := decide (w.2 = CStatus.ok)
    let s := w.1.modWq q (fun x => { x with done := x.done + 1, st := if !ok && decide (x.st = .active) then WqSt.error else x.st })
    if ok then (if irq && x.vector ≠ 0 then s.msix x.hostPort x.vector else s)
    else s.log evWqCmplFail (detail 0 q) acPartial (s.ownerId x.owner) w.2.code

/-- The completion of a job whose parts have all ended (R187). -/
def jobRecord (j : Job) (gen : BitVec 16) : CmplRec :=
  let ps := j.parts
  let low := (engList j.set).findSome? (fun e =>
    (ps.find? (fun p => p.engine == e.val && p.first.isSome)).bind (fun p => p.first.map (fun f => (e.val, f))))
  let any := fun (f : Part → Bool) => ps.any f
  let base : CmplRec := {
    tag := dTag j.desc, gen := gen,
    flags := b2n (any (fun p => p.failed)) + 2 * b2n (any (fun p => p.truncated)) + 4 * b2n (any (fun p => p.stopped)),
    result0 := (ps.map (fun p => p.result0)).sum, result1 := (ps.map (fun p => p.result1)).sum }
  match low with
  | none => base
  | some (e, f) => { base with data := f.status.code, engine := e, page := f.page, loc := f.loc }

/-- Remove a job. -/
def State.dropJob (s : State) (id : Nat) : State :=
  { s with engs := { s.engs with jobs := s.engs.jobs.filter (fun j => j.id != id) } }

/-- Every engine of the set has ended its part. -/
def Job.ended (j : Job) : Bool := (engList j.set).all (fun e => j.parts.any (fun p => p.engine == e.val))

/-- JOB_COMPLETION_WRITE (R188): every engine of the set has ended, and the completion is written. A COPY of the
retirement service has no queue: its end is seen by the service. -/
def execJobCompletionWrite (job : Nat) (s : State) : Res :=
  match s.jobOf job with
  | none => .next s
  | some j =>
    match j.queue with
    | none => .next s
    | some q =>
      if !j.ended || !s.dieUp || s.cmplHeld q then .next s
      else
        let r := jobRecord j (s.engs.eng[lowEngine j.set].gen)
        let s := (s.dropJob job).writeCmpl q r (dIrq j.desc) (some j)
        .next (if r.data = CStatus.internal.code then s.log (evEngInternal r.engine) (detail r.engine r.tag.toNat) else s)

/-- DESC_STATUS of a FORWARD queue's completion (R358). -/
def forwardStatus : CStatus → CmdStatus
  | .ok => .ok
  | .notPermitted => .notPermitted
  | .pathDown => .pathDown
  | _ => .internal

/-- A warm reset ends what a FORWARD queue has consumed (R33, R188): a descriptor that was not sent has no path, the outcome of one that
was sent is not known. DESIGN CHOICE (log entry 94). -/
def State.abortForward (s : State) (q : Nat) (x : Queue) : State :=
  let s := s.modWq q (fun x => { x with toSend := [], sent := [] })
  let s := x.sent.foldl (fun s d => s.writeCmpl q { tag := dTag d, desc := .internal } (dIrq d)) s
  x.toSend.foldl (fun s d => s.writeCmpl q { tag := dTag d, desc := .pathDown } (dIrq d)) s

/-- A warm reset stops every engine at once (R175): what it has done so far joins its job. -/
def State.stopEngines (s : State) : State :=
  let s := (fins 64).foldl (fun s e =>
    match s.engs.eng[e].run with
    | none => s
    | some r => s.modJob r.job (fun x => { x with parts := x.parts ++ [{ r.part e with stopped := true }] })) s
  { s with engs := { s.engs with eng := s.engs.eng.map (fun x => { x with run := none, pending := [], io := [] }) } }

/-- A warm reset ends every running and dispatched job, and every consumed descriptor (R175): the completion carries CHANNEL_OFFLINE and
STOPPED. -/
def State.abortJobs (s : State) : State :=
  let s := s.engs.jobs.foldl (fun s j =>
    match j.queue with
    | none => s.dropJob j.id
    | some q =>
      let r := jobRecord j (s.engs.eng[lowEngine j.set].gen)
      let f := if bit (BitVec.ofNat 8 r.flags) 2 then r.flags else r.flags + 4
      (s.dropJob j.id).writeCmpl q { r with data := CStatus.channelOffline.code, flags := f } (dIrq j.desc) (some j)) s
  let s := s.engs.checking.foldl (fun s (c : Checking) => match s.wq c.queue with
    | none => s
    | some x => s.writeCmpl c.queue { tag := dTag c.desc, data := CStatus.channelOffline.code, flags := 4,
                                      gen := s.engs.eng[lowEngine (jobSet c.desc x.engines)].gen } (dIrq c.desc)) s
  let s := { s with engs := { s.engs with checking := [] } }
  s.cmd.queues.foldl (fun s (kv : Nat × Queue) => s.abortForward kv.1 kv.2) s

/-! The dispatcher (R356). -/

/-- Address of descriptor `i` of a queue. -/
def Queue.descSlot (x : Queue) (i : Nat) : Nat := x.descBase.toNat + 128 * (i % 2 ^ x.log2)
/-- Read a descriptor under the queue's OWNER, in its class. -/
def State.readDesc (s : State) (x : Queue) (i : Nat) : State × CStatus × BitVec 1024 :=
  let r := s.readBytesNow (s.ownerId x.owner) (x.descSlot i) acDispatch 128 x.cls.toNat
  (r.1, r.2.1, ofBytes 1024 r.2.2)

/-- A queue is ready (R356): ACTIVE with a descriptor, and its next job waits neither on ORDERED nor on an engine
that holds three pending jobs. The wait is judged by the descriptor's FLAGS and ENGINE_MASK. Its accesses wait for holds (R58). -/
def State.wqReady (s : State) (q : Nat) (x : Queue) : Bool :=
  decide (x.st = .active) && x.tail != x.head && !s.engs.checking.any (fun c => c.queue == q) &&
  !s.heldAt (x.descSlot x.head.toNat) && !s.heldAt x.cmplSlot &&
  (x.forward ||
   let r := s.readDesc x x.head.toNat
   r.2.1 != .ok ||
   (!(dOrdered r.2.2 && x.done != x.head) &&
    (engList (jobSet r.2.2 x.engines)).all (fun e => decide ((s.engs.eng[e]).pending.length < 3))))

/-- The queue of the dispatcher's next turn: turns rotate among the classes that have a ready queue, then among the
ready queues of the class (R356). -/
def State.nextQueue (s : State) : Option (Nat × Queue) :=
  let ready := s.cmd.queues.filter (fun kv => s.wqReady kv.1 kv.2)
  ((List.range 16).map (fun i => (s.cmd.lastClass + 1 + i) % 16)).findSome? (fun c =>
    let mine := ready.filter (fun kv => kv.2.cls.toNat == c)
    let last := s.cmd.lastQueue.toList.getD c 0
    match mine.find? (fun kv => decide (last < kv.1)) with
    | some x => some x
    | none => mine.head?)

/-- Count a refused job and write its completion (R170). -/
def State.refuseJob (s : State) (q : Nat) (d : BitVec 1024) (set : W64) (st : CmdStatus) (det data : Nat) : State :=
  let s := { s with cmd := { s.cmd with refused := satAdd s.cmd.refused 1 } }
  s.writeCmpl q { tag := dTag d, desc := st, data := data, page := det, gen := s.engs.eng[lowEngine (jobSet d set)].gen } (dIrq d)

/-- Dispatch a job that has passed every check to every engine of its set. -/
def State.dispatch (s : State) (q : Option Nat) (number : Nat) (d : BitVec 1024) (prog : BitVec 4096) (set : W64) (cls : BitVec 4)
    (ident : Option MasterId) : State :=
  let id := s.engs.nextJob
  let j : Job := { id := id, queue := q, number := number, desc := d, prog := prog, set := set, cls := cls, ident := ident }
  let s := { s.started with engs := { s.engs with jobs := s.engs.jobs ++ [j], nextJob := id + 1 } }
  let s := (engList set).foldl (fun s e => s.modEng e (fun x => { x with pending := x.pending ++ [id] })) s
  if q.isSome then { s with cmd := { s.cmd with dispatched := satAdd s.cmd.dispatched 1 } } else s

/-- Every engine of a job takes another one: it holds fewer than three (R156), and is not ON with a disable pending (R361). -/
def State.engRoom (s : State) (set : W64) : Bool :=
  (engList set).all (fun e =>
    let x := s.engs.eng[e]
    decide (x.pending.length < 3) && !(decide (x.fn.st = .on) && x.fn.deferred == some false))

/-- Forget a descriptor whose checks have ended. -/
def State.checked (s : State) (c : Checking) : State := { s with engs := { s.engs with checking := s.engs.checking.erase c } }
/-- The descriptor of a check goes on with another state of its checks. -/
def State.recheck (s : State) (c c' : Checking) : State :=
  { s with engs := { s.engs with checking := s.engs.checking.map (fun x => if x = c then c' else x) } }

/-- The last checks, and the dispatch once every engine of the set has room; `none` while it waits. -/
def State.finishChecks (s : State) (c : Checking) (x : Queue) (prog : BitVec 4096) : Option State :=
  match s.engineBad x.engines c.desc with
  | some (st, det) => some ((s.checked c).refuseJob c.queue c.desc x.engines st det 0)
  | none =>
    let set := jobSet c.desc x.engines
    if s.engRoom set then some ((s.checked c).dispatch (some c.queue) c.number c.desc prog set x.cls none) else none

/-- The program block has been read (R169, R205): the job is refused, or the block is kept for the last checks. -/
def State.progRead (s : State) (c : Checking) (x : Queue) (st : CStatus) (ls : List (BitVec 512)) : State :=
  if st ≠ .ok then (s.checked c).refuseJob c.queue c.desc x.engines .notPermitted 24 st.code
  else
    let p : BitVec 4096 := ofBytes 4096 (lineBytes ls)
    match validate (dBound c.desc) p with
    | some det => (s.checked c).refuseJob c.queue c.desc x.engines .badParam det 0
    | none => s.recheck c { c with reads := [], prog := some p }

/-- The identity under which the dispatcher reads a program block: that of the job's lowest engine (R169). -/
def State.progWho (s : State) (c : Checking) (x : Queue) : MasterId := s.self (agentEngine (lowEngine (jobSet c.desc x.engines)).val)

/-- Ask another node for the eight lines of a program block, in the queue's class, through the port of CC0. -/
def State.askProg (s : State) (c : Checking) (x : Queue) : State :=
  let a := dProg c.desc
  let s := s.recheck c { c with reads := (List.range 8).map (fun i => (s.fab.nextTag + BitVec.ofNat 16 i, none)) }
  (List.range 8).foldl (fun s i =>
    let r : Req := { master := s.progWho c x, tag := s.fab.nextTag, cls := x.cls, node := BitVec.ofNat 12 (gaNode a),
                     addr := BitVec.ofNat 40 (gaLocal a + 64 * i), kind := .lineRead, origin := .port (portCore 0) 0 }
    ({ s with fab := { s.fab with nextTag := s.fab.nextTag + 1 } }).portIssue (portCore 0) r) s

/-- The checks of a consumed descriptor go on as far as they can (R170): `none` while they wait for the program block, for the end of a
hold of its channel or of the completion's (R58), or for an engine with room. -/
def State.checkGo (s : State) (c : Checking) : Option State :=
  match s.wq c.queue with
  | none => some (s.checked c)
  | some x =>
    if s.cmplHeld c.queue then none
    else match c.prog with
      | some p => s.finishChecks c x p
      | none =>
        if !c.reads.isEmpty then
          if c.reads.all (fun r => r.2.isSome) then
            let vs := c.reads.filterMap (fun r => r.2)
            some (s.progRead c x (((vs.map (fun v => v.1)).find? (fun st => decide (st ≠ .ok))).getD .ok) (vs.map (fun v => v.2)))
          else none
        else if s.isLocal (dProg c.desc) then
          let a := gaLocal (dProg c.desc)
          if s.heldAt a || s.heldAt (a + 448) then none
          else
            let r := s.readLinesNow (s.progWho c x) a acDispatch 8 x.cls.toNat
            some (r.1.progRead c x r.2.1 r.2.2)
        else some (s.askProg c x)

/-- The first checks of a consumed descriptor (R170). -/
def State.checkDesc (s : State) (q : Nat) (x : Queue) (d : BitVec 1024) (i : Nat) : State :=
  match s.descBad x.engines d with
  | some (st, det) => s.refuseJob q d x.engines st det 0
  | none =>
    let c : Checking := { queue := q, desc := d, number := i, prog := if dPredEn d then none else some 0 }
    let s := { s with engs := { s.engs with checking := s.engs.checking ++ [c] } }
    (s.checkGo c).getD s

/-- DESCRIPTOR_CONSUME (R356): the dispatcher goes on with the checks of a descriptor that need not wait, or takes one
descriptor of the queue whose turn it is. -/
def execDescriptorConsume (s : State) : Res :=
  if !s.dieUp || s.cmd.stopped then .next s
  else match s.engs.checking.findSome? s.checkGo with
    | some s => .next s
    | none =>
      match s.nextQueue with
      | none => .next s
      | some (q, x) =>
        let r := s.readDesc x x.head.toNat
        let s := r.1.modWq q (fun x => { x with head := x.head + 1 })
        let s := { s with cmd := { s.cmd with lastClass := x.cls.toNat, lastQueue := s.cmd.lastQueue.setIfInBounds x.cls.toNat q } }
        if r.2.1 ≠ .ok then
          .next (s.writeCmpl q { desc := .notPermitted, data := r.2.1.code, page := x.head.toNat,
                                 gen := s.engs.eng[lowEngine x.engines].gen } false)
        else if x.forward then .next (s.modWq q (fun x => { x with toSend := x.toSend ++ [r.2.2] }))
        else .next (s.checkDesc q x r.2.2 x.head.toNat)

/-! FORWARD queues (R358). The dispatcher's requests to other nodes leave through the port of CC0. -/

/-- FORWARD_DISPATCH (R358): the oldest consumed descriptor goes to the target queue as an OP_DISPATCH; it passes no Kerb (R356). -/
def execForwardDispatch (queue : BitVec 15) (s : State) : Res :=
  match s.wq queue.toNat with
  | none => .next s
  | some x =>
    match x.toSend with
    | [] => .next s
    | d :: rest =>
      let r : Req := { master := s.ownerId x.owner, tag := s.fab.nextTag, cls := x.cls, node := x.targetNode, addr := 0,
                       kind := .opDispatch (x.targetQueue.setWidth 16) d, origin := .port (portCore 0) 0 }
      if !s.dieUp || s.issueBlocked s.mports[portCore 0] r || s.transitFull then .next s
      else
        let s := { s with fab := { s.fab with nextTag := s.fab.nextTag + 1 } }
        let s := s.modWq queue.toNat (fun x => { x with toSend := rest, sent := x.sent ++ [d] })
        let s := s.started.modMport (portCore 0) (fun p => { p with outst := p.outst ++ [{ req := r, table := true, entered := true }] })
        .next ((s.countFwd [.plaza]).sendRequest r)

/-- An OP_DISPATCH at the dispatcher (R358): an accepted descriptor is written at TAIL as if the owner had posted it. -/
def State.takeDispatch (s : State) (req : Req) : State :=
  match req.kind with
  | .opDispatch qn d =>
    let q := qn.toNat % 32768
    match s.wq q with
    | none => s.complete { req := req, status := .notPermitted }
    | some x =>
      if x.st ≠ .active || s.ownerId x.owner ≠ req.master then s.complete { req := req, status := .notPermitted }
      else
        let w := s.writeBytesNow (s.ownerId x.owner) (x.descSlot x.tail.toNat) acDispatch x.cls (toBytes d 128)
        let s := if w.2 = .ok then w.1.modWq q (fun x => { x with tail := x.tail + 1 }) else w.1
        s.complete { req := req, status := w.2 }
  | _ => s

/-- The slot that an OP_DISPATCH would fill: full, or in a channel that is held. -/
def State.slotWaits (s : State) (qn : BitVec 16) (m : MasterId) : Bool :=
  match s.wq (qn.toNat % 32768) with
  | none => false
  | some x => decide (x.st = .active) && decide (s.ownerId x.owner = m) &&
      (decide (2 ^ x.log2 ≤ (x.tail - x.head).toNat) || s.heldAt (x.descSlot x.tail.toNat))

/-- OP_DISPATCH (R358): the message reaches the dispatcher, once it is past its hops and its ring has a slot. -/
def execOpDispatch (req : Req) (s : State) : Res :=
  match req.kind with
  | .opDispatch qn _ =>
    if !s.dieUp || s.slotWaits qn req.master then .next s
    else match s.advance.takeReq req with
      | none => .next s.advance
      | some s => .next (s.takeDispatch req)
  | _ => .next s

/-- FORWARD_COMPLETION (R358): the CMP of the oldest OP_DISPATCH sent has come back with this status. -/
def execForwardCompletion (queue : BitVec 15) (status : CStatus) (s : State) : Res :=
  match s.wq queue.toNat with
  | none => .next s
  | some x =>
    match x.sent with
    | [] => .next s
    | d :: rest =>
      let mine := fun (c : Completion) => decide (c.req.kind = .opDispatch (x.targetQueue.setWidth 16) d) &&
        decide (c.req.node = x.targetNode) && decide (c.req.master = s.ownerId x.owner)
      match (s.mports[portCore 0].delivered).find? mine with
      | none => .next s
      | some c =>
        if c.status ≠ status || s.cmplHeld queue.toNat then .next s
        else
          let s := s.modMport (portCore 0) (fun p => { p with delivered := p.delivered.erase c })
          let s := s.modWq queue.toNat (fun x => { x with sent := rest })
          .next (s.writeCmpl queue.toNat { tag := dTag d, desc := forwardStatus status } (dIrq d))

/-! Pending interrupts (R359). -/

/-- MSIX_PENDING_RELEASE (R359): a pending vector is sent once link, enable and masks allow it. -/
def execMsixPendingRelease (h : Fin 8) (vector : BitVec 8) (s : State) : Res :=
  let p := s.hosts[h]
  let e := smGetD p.msix vector.toNat {}
  if bit p.pba vector.toNat && p.linkUp && p.msixEn && !p.msixMask && !e.masked then
    .next ((s.modHost h (fun p => { p with pba := setBit p.pba vector.toNat false })).emit (.msix h vector e.addr e.data))
  else .next s

/-! Direct writes of ring registers (R363). -/

/-- A write of RING_CFG by a control core: it restarts the ring. -/
def State.ringCfgWrite (s : State) (r : Fin 32) (v : W32) : State :=
  let log2 := fieldN v 27 4
  if (bit v 31 && (log2 < 4 || 12 < log2)) || (s.cmd.rings[r]).busy then s
  else (s.ringRestart r).modRing r (fun x => { x with en := bit v 31, log2 := log2, hostPort := (v.extractLsb' 24 3).toFin, owner := v.setWidth 20 })

/-- A write of RING_PERM by a control core. -/
def State.ringPermWrite (s : State) (r : Fin 32) (v : W32) : State :=
  let vec := fieldN v 24 8
  if 1 ≤ vec && vec ≤ 7 then s
  else s.modRing r (fun x => { x with vector := v.extractLsb' 24 8, groups := v.setWidth 11 })

/-- The 64 bytes of a queue's context as words (R352). -/
def ctxWord (x : Queue) (i : Nat) : W32 :=
  match i with
  | 0 => x.engines.setWidth 32
  | 1 => x.engines.extractLsb' 32 32
  | 2 => x.descBase.setWidth 32
  | 3 => x.descBase.extractLsb' 32 32
  | 4 => x.cmplBase.setWidth 32
  | 5 => x.cmplBase.extractLsb' 32 32
  | 6 => x.owner.setWidth 32
  | 7 => at32 0 (x.cls.toNat + 64 * x.st.code) ||| at32 8 x.log2 ||| at32 16 x.vector.toNat ||| at32 24 (x.hostPort.val + 128 * b2n x.forward)
  | 8 => at32 0 x.doorbell.toNat ||| at32 16 x.gen.toNat
  | 9 => at32 0 x.targetNode.toNat ||| at32 16 x.targetQueue.toNat
  | 10 => x.tail
  | 11 => x.head
  | 12 => x.done
  | _ => 0

/-- Ring register `o` of ring `r` (R363). -/
def Ring.read (x : Ring) (o : Nat) : W32 :=
  match o with
  | 0x00 => at32 31 (b2n x.en) ||| at32 27 x.log2 ||| at32 24 x.hostPort.val ||| x.owner.setWidth 32
  | 0x04 => at32 24 x.vector.toNat ||| x.groups.setWidth 32
  | 0x08 => x.tail
  | 0x0C => x.head
  | 0x10 => x.done
  | 0x14 => at32 31 (b2n x.busy) ||| at32 30 (b2n x.failed) ||| x.opcode.setWidth 32
  | _ => 0

end Sys2Proof.Machine
end

