-- ==== Sys2Proof/Machine/Sched.lean ====
section
/-! DEFINITION. Slots: the Roundabout's owner of each slot, the controller's choice, the activation arbiters,
maintenance work, and the transfers themselves (R41-R44, R75-R82, R209-R214, R219). -/

namespace Sys2Proof.Machine

/-! Candidates (R75). -/

/-- A candidate for a slot: its command, and the class it is charged to. -/
structure Cand where
  cmd : RowCmd
  cls : Nat
  row : Nat
deriving DecidableEq, Repr

/-- The mask of the queued lines of a row. -/
def Ctl.rowMask (c : Ctl) (row : Nat) : BitVec 16 :=
  (List.range 16).foldl (fun (m : BitVec 16) i => setBit m i ((c.queued? (row * 16 + i)).isSome)) 0
/-- The class of the oldest queued line of a row: a WM is charged to it (R75). -/
def Ctl.rowClass (c : Ctl) (row : Nat) : Nat :=
  ((c.wq.find? (fun w => w.key / 16 == row)).map (fun w => w.cls.toNat)).getD 0

/-- Entries of the write log, with those that the WMs chosen will add (R68, R87). -/
def Ctl.logLoad (c : Ctl) : Nat := c.log.length + countIf c.chosen isWm

/-- The WM of the oldest row that holds a queued line of a class (any class: `none`) and whose bank is
ready (R75 rules 1, 3, 4); none while the write log is full (R87). -/
def Ctl.wmCand (c : Ctl) (cls : Option Nat) (cmd : Nat) : Option Cand :=
  if 512 ≤ c.logLoad then none
  else (c.wq.find? (fun w =>
      (match cls with | some x => w.cls.toNat == x | none => true) && c.bankReady (w.key / 16) cmd)).map (fun w =>
    let row := w.key / 16
    { cmd := .wm row (c.rowMask row), cls := c.rowClass row, row := row })

/-- The oldest RA of a class whose bank is ready, aged requests first (R75 rule 2). DESIGN CHOICE (log entry 85): an aged request goes
first within this rule, among the requests of its class; rule 1 still comes before it. -/
def Ctl.raCand (c : Ctl) (cls rev cmd : Nat) : Option Cand :=
  let ok := fun (q : RqEntry) => !q.sched && q.req.cls.toNat == cls && c.bankReady q.row cmd
  let aged := fun (q : RqEntry) => c.ageLimit ≠ 0 && decide (q.since + c.ageLimit ≤ rev)
  ((c.rq.find? (fun q => ok q && aged q)).or (c.rq.find? ok)).map (fun q => { cmd := .ra q.row false, cls := cls, row := q.row })

/-- The owner's candidate by rules 1-4 of R75. -/
def Ctl.ownCand (c : Ctl) (cls rev cmd : Nat) : Option Cand :=
  ((if c.wqHigh ≤ c.wq.length then c.wmCand (some cls) cmd else none).or
    ((c.raCand cls rev cmd).or
      ((c.wmCand (some cls) cmd).or (if c.wqLow < c.wq.length then c.wmCand none cmd else none))))

/-- A borrower's candidate: rule 2 or rule 3 (R213). -/
def Ctl.lendCand (c : Ctl) (cls rev cmd : Nat) : Option Cand := (c.raCand cls rev cmd).or (c.wmCand (some cls) cmd)

/-- The borrower of a slot: CL15, then the classes of RBT_BORROW in rotating order (R213); only CL15 while
BORROW_OFF (R219). -/
def Ctl.borrow (c : Ctl) (r : Rbt) (rev cmd : Nat) : Option (Nat × Cand) :=
  match c.lendCand 15 rev cmd with
  | some x => some (15, x)
  | none =>
    if r.borrowOff then none
    else ((List.range 16).map (fun i => (r.lastBorrow + 1 + i) % 16)).findSome? (fun k =>
      if bit r.borrow k then (c.lendCand k rev cmd).map (fun x => (k, x)) else none)

/-- What a channel proposes for a slot. -/
structure Proposal where
  ch : Fin 64
  cand : Option Cand := none
  borrower : Option Nat := none
  guar : Bool := false
  quiet : Bool := false
deriving DecidableEq, Repr

/-- The proposal of a channel for slot `k`; none where maintenance owns the slot, an access within a command has taken it, or the channel
moves no rows in it. A channel that drains gives every slot to the WM of its oldest row (R89). -/
def State.propose (s : State) (k : Nat) (ch : Fin 64) : Option Proposal :=
  let c := s.chs[ch]
  let r := s.rbtAt ch k
  if r.isMaint k || c.ctl.slotTaken k then none
  else if c.ctl.state = .draining then
    (if c.ctl.recovery || c.tsv.hold.isSome then none else some { ch := ch, cand := c.ctl.wmCand none (k - 4) })
  else if !c.movesAt s.glb.variant k then none
  else
    let e := r.entry k
    if r.quieted e k then some { ch := ch, quiet := true, guar := entryGuar e }
    else match c.ctl.ownCand (entryClass e) (s.strobe / 256) (k - 4) with
      | some x => some { ch := ch, cand := some x, guar := entryGuar e }
      | none => match c.ctl.borrow r (s.strobe / 256) (k - 4) with
        | some (b, x) => some { ch := ch, cand := some x, borrower := some b }
        | none => some { ch := ch }

/-- Put the channels of a layer after the one granted last first (R76, round-robin by channel). -/
def rotate (last : Nat) (ps : List Proposal) : List Proposal :=
  ps.filter (fun p => last < p.ch.val) ++ ps.filter (fun p => p.ch.val ≤ last)

/-- The order in which arbiters look at candidates: guaranteed ones first, each group by layer, round-robin (R76). -/
def State.arbOrder (s : State) (ps : List Proposal) : List Proposal :=
  let order := fun (g : List Proposal) =>
    (List.range 32).flatMap (fun k =>
      rotate (smGetD s.arb k 63) (g.filter (fun p =>
        match p.cand with | some x => arbKey p.ch (rowOfKey x.row).layer == k | none => false)))
  order (ps.filter (fun p => p.guar)) ++ order (ps.filter (fun p => !p.guar)) ++ ps.filter (fun p => p.cand.isNone)

/-- The command is chosen for slot `k`: its bank is busy for a row cycle, and its requests are scheduled. -/
def Ctl.choose (c : Ctl) (k : Nat) (x : Cand) : Ctl :=
  { c with
    chosen := c.chosen ++ [{ slot := k, cmd := x.cmd }],
    bankFree := smPut c.bankFree (bankOf x.row) (k - 4 + 11),
    rq := match x.cmd with
      | .ra row _ => c.rq.map (fun q => if q.row = row then { q with sched := true } else q)
      | _ => c.rq }

/-- The class that borrowed a slot last (R213): it counts from the choice of its candidate, whatever the arbiter answers. -/
def State.noteBorrower (s : State) (p : Proposal) : State :=
  match p.borrower with
  | some b => s.modRbt p.ch (fun r => { r with lastBorrow := b })
  | none => s

/-- An STS to the first layer with entries in the write log and none on its way: step 4 of the drain (R89), and what frees a full log. -/
def State.drainSts (s : State) (ch : Fin 64) (k : Nat) : State :=
  let c := s.chs[ch].ctl
  let busy := fun l => (c.chosen ++ c.issued).any (fun x => decide (x.cmd = .sts l))
  let due := (c.wq.isEmpty && c.wqWait.isEmpty && !(c.chosen ++ c.issued).any isWm) || decide (512 ≤ c.logLoad)
  match (List.range s.glb.variant.layers).find? (fun l => c.log.any (fun w => (rowOfKey w.row).layer == l) && !busy l) with
  | some l => if due && decide (c.cmdFrom ≤ k - 4) then s.modCtl ch (fun c => { c with chosen := c.chosen ++ [{ slot := k, cmd := .sts l }] }) else s
  | none => s

/-- Decide one proposal (R75-R77, R213). A candidate of a slot held under a guarantee, its owner's, counts in CTL_BUDGET_DENY.GUAR; a
borrower's counts in OTHER (R76, R77; log entry 86). -/
def State.decideSlot (s : State) (k : Nat) (p : Proposal) : State :=
  match p.cand with
  | none =>
    if s.chs[p.ch].ctl.state = .draining then s.drainSts p.ch k else s.noteSlot p.ch { slot := k, quiet := p.quiet }
  | some x =>
    let s := s.noteBorrower p
    match s.activate p.ch (rowOfKey x.row).layer (k - 4) 1 with
    | none =>
      let s := s.noteSlot p.ch { slot := k, denied := true }
      s.modCtl p.ch (fun c =>
        if p.guar then { c with denyGuar := satAdd c.denyGuar 1 } else { c with denyOther := satAdd c.denyOther 1 })
    | some s =>
      let bytes := match x.cmd with
        | .ra _ _ => 1024
        | _ => 64 * countIf (List.range 16) (fun i => bit (s.chs[p.ch].ctl.rowMask x.row) i)
      (s.noteSlot p.ch { slot := k, cls := some x.cls, bytes := bytes }).modCtl p.ch (fun c => c.choose k x)

/-- Every channel's controller chooses for slot `k`, and the arbiters grant (R75, R76). -/
def State.schedule (s : State) (k : Nat) : State :=
  let ps := (fins 64).filterMap (s.propose k)
  (s.arbOrder ps).foldl (fun s p => s.decideSlot k p) { s with slot := k }

/-- SLOT_SCHEDULE (R75, R76): in strobe k - 12 the slot k is decided, once. -/
def execSlotSchedule (s : State) : Res :=
  if s.strobe + 12 ≤ s.slot then .next s else .next (s.schedule (s.strobe + 12))

/-! Maintenance slots (R79-R82). -/

/-- REFRESH_DUE (R79, R80): a REF falls due on the grid. The grid starts at the first one (log entry 16). -/
def execRefreshDue (ch : Fin 64) (s : State) : Res :=
  let c := s.chs[ch].ctl
  if s.chs[ch].tsv.offline || c.state = .off || c.state = .selfRefresh then .next s
  else match c.lastRefDue with
    | none => .next (s.modCtl ch (fun c => { c with lastRefDue := some s.strobe, refDue := c.refDue ++ [s.strobe] }))
    | some l =>
      let d := l + s.refInterval ch
      if d ≤ s.strobe then .next (s.modCtl ch (fun c => { c with lastRefDue := some d, refDue := c.refDue ++ [d] }))
      else .next s

/-- The next maintenance slot of a channel that can still be decided (R211, R212). -/
def State.nextMaint (s : State) (ch : Fin 64) : Nat :=
  let from_ := max (s.chs[ch].ctl.lastMaint + 1) (s.strobe + 12)
  ((List.range 17).map (fun i => from_ + i)).find? (fun k => (s.rbtAt ch k).isMaint k) |>.getD from_

/-- Row of the scrub pass position (R102). -/
def scrubRow (v : Variant) (j : Nat) : Nat :=
  rowKey { layer := j % v.layers, bank := j / v.layers % 4, row := j / (4 * v.layers) }
/-- Rows of a pass. -/
def scrubRows (v : Variant) : Nat := 262144 * v.layers

/-- A row lies in a page whose entry has RETIRED set, so that the scrubber skips it (R102); no entry governs the tree store (R144). -/
def State.rowRetired (s : State) (ch : Fin 64) (row : Nat) : Bool := peRetired (s.pageEntry (s.addrOf ch.val row 0 / 131072))

/-- The next row of the pass that is not in a RETIRED page, its index (R102): at most `fuel` rows are skipped, and none where all of them
are in RETIRED pages. -/
def State.nextScrub (s : State) (ch : Fin 64) : Nat → Nat → Option Nat
  | 0, _ => none
  | fuel + 1, j =>
    if s.rowRetired ch (scrubRow s.glb.variant j) then s.nextScrub ch fuel ((j + 1) % scrubRows s.glb.variant) else some j

/-- Issue a REF (R79): four activations at the arbiter, the bank busy for 64 strobes. -/
def State.issueRef (s : State) (ch : Fin 64) (k : Nat) : State :=
  let c := s.chs[ch].ctl
  let n := s.glb.variant.layers
  let layer := c.nextBank % n
  let bank := c.nextBank / n
  match s.activateRef ch layer k with
  | none => s
  | some s =>
    s.modCtl ch (fun c => { c with
      refDue := c.refDue.drop 1,
      chosen := c.chosen ++ [{ slot := k, cmd := .ref (layer * 4 + bank) c.nextGroup }],
      bankFree := smPut c.bankFree (layer * 4 + bank) (max (smGetD c.bankFree (layer * 4 + bank) 0) (k - 4) + 64),
      nextBank := (c.nextBank + 1) % (4 * n),
      nextGroup := if c.nextBank + 1 = 4 * n then (c.nextGroup + 1) % 128 else c.nextGroup })

/-- The scrub read that comes next, and the ECC unit once it is issued: a row that must be read again, a targeted row, the pass position
(R87, R98, R102). -/
def State.pickScrub (s : State) (ch : Fin 64) : Option (Nat × Ecc) :=
  let e := s.chs[ch].ecc
  match e.again, e.targeted with
  | x :: rest, _ => some (x.row, { e with again := rest, reads := e.reads ++ [{ x with written := [] }] })
  | [], t :: rest => some (t / 16, { e with targeted := rest, reads := e.reads ++ [{ row := t / 16, targeted := true, asked := some t }] })
  | [], [] =>
    if e.due = 0 then none
    else
      let n := scrubRows s.glb.variant
      (s.nextScrub ch n e.pos).map (fun j => (scrubRow s.glb.variant j,
        { e with
          due := e.due - 1, pos := (j + 1) % n, reads := e.reads ++ [{ row := scrubRow s.glb.variant j, targeted := false }],
          passes := if (j + 1) % n ≤ e.pos then e.passes + 1 else e.passes }))

/-- Issue a scrub read in slot `k`, where its bank and its layer's arbiter allow it. -/
def State.issueScrub (s : State) (ch : Fin 64) (k : Nat) : State :=
  match s.pickScrub ch with
  | none => s
  | some (row, e) =>
    if !(s.chs[ch].ctl).bankReady row (k - 4) then s
    else match s.activate ch (rowOfKey row).layer (k - 4) 1 with
      | none => s
      | some s => (s.started.modCtl ch (fun c => c.choose k { cmd := .ra row true, cls := 15, row := row })).modEcc ch (fun _ => e)

/-- Scrub work is pending: the scrubber is ON and the channel runs (R102, R106); a rewrite that waits for the write queue stalls the pass
(R104). -/
def State.scrubReady (s : State) (ch : Fin 64) : Bool :=
  let c := s.chs[ch]
  decide (s.scrub.fn.st = .on) && decide (c.ctl.state = .run) && !c.holds &&
  !(c.ctl.wqWait.any (fun w => w.wline.rewrite)) && (decide (0 < c.ecc.due) || !c.ecc.targeted.isEmpty || !c.ecc.again.isEmpty)

/-- Choose a command that moves no row for slot `k` of a channel. -/
def State.chooseCmd (s : State) (ch : Fin 64) (k : Nat) (x : RowCmd) : State :=
  s.modCtl ch (fun c => { c with chosen := c.chosen ++ [{ slot := k, cmd := x }] })

/-- An STS to the next layer in rotation (R82). -/
def State.issueSts (s : State) (ch : Fin 64) (k : Nat) : State :=
  (s.chooseCmd ch k (.sts s.chs[ch].ctl.stsNext)).modCtl ch (fun c => { c with
    stsNext := (c.stsNext + 1) % s.glb.variant.layers, polled := true })

/-- The next step of a command-word recovery: an STS to every layer, then ALN once all have answered (R87). -/
def State.recoveryStep (s : State) (ch : Fin 64) (k : Nat) : State :=
  let c := s.chs[ch].ctl
  if c.recSts < s.glb.variant.layers then
    (s.chooseCmd ch k (.sts c.recSts)).modCtl ch (fun c => { c with recSts := c.recSts + 1 })
  else if s.glb.variant.layers ≤ c.recGot && !c.recAln && !c.chosen.any (fun x => decide (x.cmd = .aln)) then s.chooseCmd ch k .aln
  else s

/-- A step of a sweep in maintenance slot `k` (R50): the write of the pattern where another maintenance slot of the revolution is left for
the read-back, and the read-back in a later slot of the same revolution. -/
def State.sweepStep (s : State) (ch : Fin 64) (k : Nat) (w : WalkRun) : State :=
  let put := fun (w : WalkRun) (cmd : RowCmd) =>
    (s.modTsv ch (fun t => { t with walk := some w, walkDue := t.walkDue && (t.walk.isSome || w.targeted) })).chooseCmd ch k cmd
  match w.tlw with
  | some a => if a / 256 = k / 256 then put { w with tlr := some k } (.tlr w.layer)
      else put { w with tlw := some k } (.tlw w.layer w.pattern)
  | none => if k % 256 < 240 then put { w with tlw := some k } (.tlw w.layer w.pattern) else s

/-- A walking step waits for its read-back, so that no step can use the slot. -/
def Tsv.walkReading (t : Tsv) : Bool := match t.walk with | some w => w.tlr.isSome | none => false

/-- The work of maintenance slot `k`, in the order of R82; an STS that follows an STS lets pending scrub work go first, so that the
lowest priority is not starved (log entry 17). -/
def State.maintain (s : State) (ch : Fin 64) (k : Nat) : State :=
  let c := s.chs[ch]
  if !c.ctl.refDue.isEmpty && c.refreshes && (s.activateRef ch (s.nextRef ch).1 k).isSome then s.issueRef ch k
  else if (match c.tsv.hold with | some _ => true | none => false) || decide (k < c.ctl.cmdFrom + 4) then s
  else if c.ctl.state = .draining && !c.ctl.recovery then s.decideSlot k { ch := ch, cand := c.ctl.wmCand none (k - 4) }
  else if c.ctl.recovery then s.recoveryStep ch k
  else if c.holds then s
  else
    let s := s.modCtl ch (fun c => { c with polled := false })
    match c.tsv.nextWalk with
    | some w => if c.tsv.walkReading then s.issueSts ch k else s.sweepStep ch k w
    | none =>
      if c.ctl.caCheckDue && !c.ctl.caCheckRun then s.modCtl ch (fun c => { c with caCheckRun := true })
      else if c.ctl.polled && s.scrubReady ch then s.issueScrub ch k
      else s.issueSts ch k

/-- MAINTENANCE_SLOT (R81, R82): the next maintenance slot takes its work. -/
def execMaintenanceSlot (ch : Fin 64) (s : State) : Res :=
  let c := s.chs[ch]
  if c.tsv.offline || c.ctl.state = .off || c.ctl.state = .selfRefresh || c.ctl.state = .training then .next s
  else
    let k := s.nextMaint ch
    .next ((s.modCtl ch (fun x => { x with lastMaint := k })).maintain ch k)

/-! Transfers (R42-R44, R72, R84-R87, R91). -/

/-- Take the lines of a row out of the write queue (R72). -/
def Ctl.takeRow (c : Ctl) (row : Nat) : Ctl := { c with wq := c.wq.filter (fun w => w.key / 16 != row) }
/-- The 16 lines that a WM drives: queued lines, zeros elsewhere (R43). -/
def Ctl.rowLines (c : Ctl) (row : Nat) : List SLine :=
  (List.range 16).map (fun i => ((c.queued? (row * 16 + i)).map (fun w => w.line)).getD 0)

/-- A WM that carries a line writes it to the line's remap entry too (R109, R110). -/
def Ecc.fillRemap (e : Ecc) (row : Nat) (mask : BitVec 16) (lines : List SLine) : Ecc :=
  { e with remap := e.remap.map (fun kv =>
      if kv.2.row = row && bit mask kv.2.line then (kv.1, { kv.2 with content := some (nth lines kv.2.line 0) }) else kv) }

/-- A WM goes out (R72, R87, R110): it carries every queued line of its row, and enters the write log and the row's remap entries; a
layer that did not take the command merges nothing. -/
def State.issueWm (s : State) (ch : Fin 64) (k row : Nat) (taken : Bool) : State :=
  let c := s.chs[ch].ctl
  let mask := c.rowMask row
  let lines := c.rowLines row
  (s.modCtl ch (fun c => { c.takeRow row with
    issued := c.issued ++ [{ slot := k, cmd := .wm row mask, lines := if taken then lines else [] }],
    log := c.log ++ [{ row := row, mask := mask, slot := k }],
    outs := c.outs.map (fun o => if o.slot = k then { o with bytes := 64 * countIf (List.range 16) (fun i => bit mask i) } else o)
    })).modEcc ch (fun e => e.fillRemap row mask lines)

/-- An RA goes out: one for requests counts and takes an armed injection with it, one of the scrubber its own (R91, R120). -/
def State.issueRow (s : State) (ch : Fin 64) (x : SlotCmd) : State :=
  if isReqRa x then
    let r := s.issueRa ch
    r.1.modCtl ch (fun c => { c with issued := c.issued ++ [{ x with inj := r.2 }] })
  else
    let n := s.chs[ch].ecc.injScrub
    (s.modEcc ch (fun e => { e with injScrub := 0 })).modCtl ch (fun c => { c with issued := c.issued ++ [{ x with inj := n }] })

/-- A chosen command goes out in its command strobe (R42, R84): its word crosses, and its data strobe is to come. -/
def State.issueCmd (s : State) (ch : Fin 64) (x : SlotCmd) (flips : BitVec 160) : State :=
  let s := s.modCtl ch (fun c => { c with chosen := c.chosen.erase x })
  let w := s.sendWord ch x.cmd flips
  let s := w.1
  match x.cmd with
  | .ra _ _ => s.issueRow ch x
  | .wm row _ => s.issueWm ch x.slot row w.2
  | .sts l => s.modCtl ch (fun c => { c with
      program := 8, lastLayer := BitVec.ofNat 4 l, stsCount := c.stsCount + 1, issued := c.issued ++ [x] })
  | .ref _ _ => s.modCtl ch (fun c => { c with program := 6 })
  | .tlr _ => s.modCtl ch (fun c => { c with issued := c.issued ++ [x] })
  | .aln => s.modCtl ch (fun c => { c with cmdFrom := s.strobe + 16, recAln := true })
  | _ => s

/-- The command that goes out in the present strobe: the one chosen for the fourth strobe from now (R42). -/
def Ctl.dueCmd (c : Ctl) (now : Nat) : Option SlotCmd := c.chosen.find? (fun x => x.slot == now + 4)

/-- ROW_COMMAND_ISSUE (R42): in strobe k - 4 the command chosen for slot k goes out; `flips` are the bits of its word that arrive
wrong. -/
def execRowCommandIssue (ch : Fin 64) (flips : BitVec 160) (s : State) : Res :=
  match (s.chs[ch].ctl).dueCmd s.strobe with
  | none => .next s
  | some x => .next (s.issueCmd ch x flips)

/-- The transfer of a kind whose data strobe is the present one. -/
def Ctl.crossing (c : Ctl) (now : Nat) (p : SlotCmd → Bool) : Option SlotCmd := c.issued.find? (fun x => x.slot == now && p x)
/-- The transfer has crossed. -/
def State.crossed (s : State) (ch : Fin 64) (x : SlotCmd) : State := s.modCtl ch (fun c => { c with issued := c.issued.erase x })

/-- The line that the oldest waiting request of a row names; line 0 for a row request (R120). -/
def State.namedLine (s : State) (ch : Fin 64) (row : Nat) : Nat × MasterId × Nat × Bool :=
  match (s.chs[ch].ctl.rq).find? (fun q => q.row == row) with
  | some q => (if isRow q.req.kind then 0 else q.req.addr.toNat / 64 % 16, q.req.master, s.reqAccess q.req,
      (match q.req.kind with | .rowRead st => st | _ => false))
  | none => (0, 0, acRowRead, false)

/-- A row that requests wait for crosses (R49, R69, R86, R95): it is checked, decoded, cached and serves them. An undriven strobe is
discarded; its RA is issued again after the recovery that it starts (R87). -/
def State.rowArrives (s : State) (ch : Fin 64) (x : SlotCmd) (row : Nat) (wrong : BitVec 10240) (parity : BitVec 20)
    (mid : BitVec 14) : State :=
  let layer := (rowOfKey row).layer
  let s := s.crossed ch x
  if s.undriven ch layer mid then (s.modCtl ch (fun c => c.unsched row)).startRecovery ch
  else
    let r := s.crossRead ch layer wrong parity
    let s := r.1
    if s.chs[ch].tsv.offline then s
    else
      let n := s.namedLine ch row
      let d := s.receiveRow ch row r.2 x.inj n.1 n.2.1 n.2.2.1
      let got := ((d.1.chs[ch].ctl).mergeRow row d.2).zipIdx.map (fun y => (row * 16 + y.2, y.1))
      (d.1.cacheRow ch row d.2 n.2.2.2).serveRow? ch row got

/-- ROW_DATA_ARRIVAL (R42): the row of a request's RA crosses in its data strobe, with its wrong bits, wrong parity connections and
connections that stay at mid-level. -/
def execRowDataArrival (ch : Fin 64) (wrong : BitVec 10240) (parity : BitVec 20) (mid : BitVec 14) (s : State) : Res :=
  match (s.chs[ch].ctl).crossing s.strobe isReqRa with
  | none => .next s
  | some x => match x.cmd with
    | .ra row _ => .next (s.rowArrives ch x row wrong parity mid)
    | _ => .next s

/-- A WM's lines reach the array, with the bits that crossed wrong (R43, R54). -/
def State.storeRow (s : State) (ch : Fin 64) (row : Nat) (mask : BitVec 16) (lines : List SLine) (wrong : BitVec 10240) : State :=
  (List.range 16).foldl (fun s i =>
    if bit mask i then s.setDramLine ch.val (row * 16 + i) (nth lines i 0 ^^^ wrong.extractLsb' (640 * i) 640) else s) s

/-- A WM's row crosses (R43, R49): the layer merges the masked lines, each bit of a dead connection as that carries it (R54, log entry
3), and latches the parity errors. A layer that did not take the command takes nothing. -/
def State.wmCrosses (s : State) (ch : Fin 64) (x : SlotCmd) (row : Nat) (mask : BitVec 16) (wrong : BitVec 10240) (parity : BitVec 20) :
    State :=
  let s := s.crossed ch x
  if x.lines.isEmpty then s
  else
    let c := s.crossBits ch wrong
    let mis := parityMismatch c.2 parity
    (c.1.storeRow ch row mask x.lines c.2).modCtl ch (fun c =>
      c.modLayer (rowOfKey row).layer (fun l => { l with wparity := l.wparity ||| mis }))

/-- WM_DATA_STROBE (R42, R43, R49): the WM whose data strobe is the present one crosses. -/
def execWmDataStrobe (ch : Fin 64) (wrong : BitVec 10240) (parity : BitVec 20) (s : State) : Res :=
  match (s.chs[ch].ctl).crossing s.strobe isWm with
  | none => .next s
  | some x => match x.cmd with
    | .wm row mask => .next (s.wmCrosses ch x row mask wrong parity)
    | _ => .next s

/-- STS_RESULT (R84, R86, R87): a layer's status returns in its STS's data strobe. -/
def execStsResult (ch : Fin 64) (mid : BitVec 14) (parity : BitVec 20) (s : State) : Res :=
  match (s.chs[ch].ctl).crossing s.strobe isSts with
  | none => .next s
  | some x => match x.cmd with
    | .sts l => .next ((s.crossed ch x).statusReturns ch l x.slot mid parity)
    | _ => .next s

/-- A read-back crosses (R50, R51, R86): compared, or undriven. -/
def State.latchReturns (s : State) (ch : Fin 64) (x : SlotCmd) (layer : Nat) (misses : List Conn) (mid : BitVec 14) : State :=
  let s := s.crossed ch x
  if s.undriven ch layer mid then
    (s.modTsv ch (fun t => { t with walk := t.walk.map (fun w => { w with tlw := none, tlr := none }) })).startRecovery ch
  else s.walkCompare ch misses

/-- WALK_STEP (R50, R51): a layer's test latch is read back in the data strobe of its TLR and compared; `misses` are the connections
that mismatch. -/
def execWalkStep (ch : Fin 64) (misses : List Conn) (mid : BitVec 14) (s : State) : Res :=
  match (s.chs[ch].ctl).crossing s.strobe isTlr with
  | none => .next s
  | some x => match x.cmd with
    | .tlr l => .next (s.latchReturns ch x l misses mid)
    | _ => .next s

/-! The drain (R89, R90). -/

/-- A write that waits in the slice, with its walk and the RA of its old line, within the drain's first steps: writes in the crypto lane
enter the write queue (R89 step 2, log entry 87). -/
def State.settleWrite (s : State) (ch : Fin 64) (r : Req) (e : W32) (lines : HeldLines) : State :=
  let s :=
    if isFull r.kind || !lines.isEmpty then (s, lines)
    else
      let l := s.decodeAddr r.addr.toNat
      let x := s.lineNow ch l.key r.master (s.reqAccess r) r.cls.toNat false
      (x.1, [(l.key, x.2)])
  let got := s.2
  let as := if isRow r.kind then (List.range 16).map (fun i => r.addr.toNat / 1024 * 1024 + 64 * i) else [r.addr.toNat]
  let w := as.foldl (fun (acc : State × CStatus) a =>
    if acc.2 ≠ .ok || (!isFull r.kind && acc.1.failsEarly got ch (acc.1.decodeAddr a).key) then acc
    else acc.1.ensureCtr ch e a) (s.1, .ok)
  if w.2 = .ok then w.1.serve ch r e got else w.1.completeAt ch r w.2

/-- What a channel holds when its drain begins (R89 step 2): reads complete with CHANNEL_OFFLINE, writes enter the write queue. -/
def State.settleHeld (s : State) (ch : Fin 64) : State :=
  let walking := s.sec.walks.flatMap (fun w => w.waiters.filter (fun x => x.ch == ch.val))
  let queued := s.chs[ch].ctl.rq
  let waiting := s.chs[ch].ctl.waiting
  let s := s.modCtl ch (fun c => { c with rq := [], waiting := [], rc := c.rc.map (fun r => { r with pins := 0 }) })
  let s := { s with sec := { s.sec with walks :=
    (s.sec.walks.map (fun w => { w with waiters := w.waiters.filter (fun x => x.ch != ch.val) })).filter (fun w => !w.waiters.isEmpty) } }
  let s := walking.foldl (fun s x =>
    if isWrite x.req.kind then s.settleWrite ch x.req x.entry x.lines else s.completeAt ch x.req .channelOffline) s
  let s := queued.foldl (fun s q =>
    if isWrite q.req.kind then s.settleWrite ch q.req q.entry [] else s.completeAt ch q.req .channelOffline) s
  waiting.foldl (fun s r =>
    if !isWrite r.kind then s.completeAt ch r .channelOffline
    else match s.pageCheck r.master ch r.addr.toNat (s.reqAccess r) true with
      | (s, some st) => s.completeAt ch r st
      | (s, none) => s.settleWrite ch r (s.pageEntry (r.addr.toNat / 131072)) []) s

/-- Writes that wait for a full write queue enter it while the drain frees lines (R72, R89). -/
def State.admitAll (s : State) (ch : Fin 64) : Nat → State
  | 0 => s
  | n + 1 => if (s.chs[ch].ctl.wqWait).isEmpty then s else (s.admitOne ch).admitAll ch n

/-- Nothing is left to drain: the write queue and what waits for it are empty, every WM has crossed, every layer's write log entries have
been found clean, and no recovery or retrain is under way or due (R89, R90). -/
def Channel.drained (c : Channel) : Bool :=
  c.ctl.wq.isEmpty && c.ctl.wqWait.isEmpty && c.ctl.log.isEmpty && !c.ctl.recovery && c.tsv.hold.isNone && c.tsv.retrainDue.isNone &&
  !(c.ctl.chosen ++ c.ctl.issued).any (fun x => isWm x || isSts x)

/-- SR_ENTRY (R89 steps 5 and 6): SRE to every layer, and the row cache is invalidated. -/
def State.selfRefreshEntry (s : State) (ch : Fin 64) : State :=
  let s := s.modCh ch (fun c => c.cancelAll s.glb.variant.layers (fun _ => true))
  s.modCtl ch (fun c => { c.allLayers s.glb.variant.layers RowCmd.sre with
    state := .selfRefresh, rc := [], issued := [], caCheckDue := false, caCheckRun := false, program := 0xB, srxFrom := s.strobe + 256 })

/-- The drain of a channel moves on: waiting writes are admitted, and once nothing is left its layers enter self-refresh. -/
def State.drainAdvance (s : State) (ch : Fin 64) : State :=
  if s.chs[ch].ctl.state ≠ .draining then s
  else
    let s := s.admitAll ch s.chs[ch].ctl.wqWait.length
    if (s.chs[ch]).drained then s.selfRefreshEntry ch else s

/-- DRAIN of a channel begins (R89, R90): it takes no request and no scrub read more; what it holds is settled; a channel with nothing to
write enters self-refresh at once. -/
def State.startDrain (s : State) (ch : Fin 64) : State :=
  let c := s.chs[ch]
  if c.tsv.offline || c.ctl.state = .off || c.ctl.state = .selfRefresh then s
  else if c.ctl.state = .training then
    s.modCtl ch (fun c => { c with state := .selfRefresh, program := 0xB, srxFrom := s.strobe + 256 })
  else
    let s := s.modCtl ch (fun c => { c with fill := false, state := .draining })
    let s := s.modCh ch (fun c => c.cancelAll s.glb.variant.layers (fun x => !isRef x && !(c.ctl.recovery && isSts x)))
    let s := s.modTsv ch (fun t => { t with walk := none, targeted := [], walkDue := false })
    let s := (s.settleHeld ch).modEcc ch (fun e => { e with reads := [], again := [], due := 0 })
    (s.modCtl ch (fun c => { c with issued := c.issued.filter (fun x => isWm x || isSts x) })).drainAdvance ch

end Sys2Proof.Machine
end

