-- ==== Sys2Proof/Machine/Regul.lean ====
section
/-! DEFINITION. Guarantees, limits, snapshots, and the passing of strobes: slot counters, refills and revolution
boundaries (08_bandwidth_regulation; R457, R459 of 18_thermal_cooling). -/

namespace Sys2Proof.Machine

/-! Placement of guarantees (R210, R217). -/

/-- A slot table. -/
abbrev SlotTable := Vector Byte 256

/-- The entry of a position. -/
def slotAt (t : SlotTable) (p : Nat) : Byte := t.toList.getD (p % 256) 0
/-- A position that placement may take. -/
def slotFree (t : SlotTable) (p : Nat) : Bool := slotAt t p == 0#8
/-- The next free position from `p` upward (R217). -/
def nextFree (t : SlotTable) (p : Nat) : Option Nat :=
  let order := (List.range 256).map (fun i => (p + i) % 256)
  (order.find? (fun q => slotFree t q && q % 16 != 8)).or (order.find? (slotFree t))
/-- Place slot i of the g slots of class c (R217). -/
def placeOne (c g : Nat) (t : SlotTable) (i : Nat) : SlotTable :=
  match nextFree t ((i * 256 / g + c) % 256) with
  | some q => t.setIfInBounds q (0x80#8 ||| BitVec.ofNat 8 c)
  | none => t
/-- Classes with a guarantee, by decreasing guarantee and then increasing class. -/
def placeOrder (g : Vector Nat 16) : List Nat :=
  ((List.range 16).filter (fun c => g.toList.getD c 0 != 0)).mergeSort (fun a b =>
    let ga := g.toList.getD a 0
    let gb := g.toList.getD b 0
    decide (gb < ga) || (ga == gb && decide (a ≤ b)))
/-- The slot table of a channel's guarantees (R217). -/
def placeTable (g : Vector Nat 16) : SlotTable :=
  (placeOrder g).foldl (fun t c => (List.range (g.toList.getD c 0)).foldl (placeOne c (g.toList.getD c 0)) t) resetTable

/-- A value that may be written to a table entry (R210). -/
def slotValueOk (b : Byte) : Bool := b == 0#8 || (decide (0x80 ≤ b.toNat) && decide (b.toNat ≤ 0x8F))
/-- Write one entry of the pending table (R210, R211). -/
def Rbt.writeSlot (r : Rbt) (p : Nat) (b : Byte) : Rbt :=
  if p % 16 = 0 || !slotValueOk b then r else { r with pend := r.pend.setIfInBounds (p % 256) b }

/-- Guaranteed entries of a table, and those at positions ≡ 8 mod 16 (R230). -/
def guarTotal (t : SlotTable) : Nat := countIf (List.range 256) (fun p => entryGuar (slotAt t p))
def guarHot (t : SlotTable) : Nat := countIf (List.range 256) (fun p => p % 16 == 8 && entryGuar (slotAt t p))

/-! CLASS_SET_GUARANTEE (R215, R216, R218). -/

/-- The admitted guarantees of a channel with another value for a class. -/
def Admitted.withSlots (a : Admitted) (c n : Nat) : Admitted := { a with g := a.g.setIfInBounds c n }
/-- Sum of a channel's guarantees. -/
def Admitted.sum (a : Admitted) : Nat := a.g.toList.sum
/-- Channels of a mask. -/
def maskList (m : W64) : List (Fin 64) := (fins 64).filter (fun n => bit m n.val)
/-- New tables are active in every named channel that is ON (R218). -/
def State.tablesActive (s : State) (m : W64) : Bool :=
  (maskList m).all (fun n => !s.distOn (distOf n) || !s.chs[n].rbt.commit)
/-- The result of CLASS_SET_GUARANTEE (R215). -/
def State.guaranteeResult (s : State) (m : W64) : W64 :=
  let sums := (maskList m).map (fun n => (n.val, (s.chs[n].adm).sum))
  let mx := sums.foldl (fun a x => max a x.2) 0
  let ch := ((sums.find? (fun x => x.2 == mx)).map (fun x => x.1)).getD 0
  at64 0 mx ||| at64 8 (b2n (decide (225 ≤ mx))) ||| at64 16 ch

/-- Take an admitted guarantee into a channel: its pending table, and its commit where the District is ON. -/
def Channel.guarantee (c : Channel) (cls slots : Nat) (flags : BitVec 8) (on : Bool) : Channel :=
  let a := c.adm.withSlots cls slots
  let a := if bit flags 1 then { a with borrow := setBit (setBit a.borrow cls (bit flags 0)) 15 true } else a
  if on then
    { c with adm := a, rbt := { c.rbt with
        pend := placeTable a.g, commit := true,
        borrow := if bit flags 1 then setBit (setBit c.rbt.borrow cls (bit flags 0)) 15 true else c.rbt.borrow } }
  else { c with adm := a }

/-- CLASS_SET_GUARANTEE. -/
def cmdClassSetGuarantee (channels : W64) (cls flags : BitVec 8) (slots : BitVec 16) : CmdFn := fun s =>
  checked [
    (decide (15 < cls.toNat) || decide (240 < slots.toNat) || channels = 0 || decide (3 < flags.toNat), .badParam),
    ((maskList channels).any (fun n => decide (240 < ((s.chs[n].adm).withSlots cls.toNat slots.toNat).sum)), .admissionRefused)]
    (fun s =>
      let s := (maskList channels).foldl (fun s n => s.modCh n (fun c => c.guarantee cls.toNat slots.toNat flags (s.distOn (distOf n)))) s
      if s.tablesActive channels then s.okay (s.guaranteeResult channels)
      else (s, .wait (.guarantee channels (s.guaranteeResult channels)))) s

def execClassSetGuarantee (c : CmdCtx) (channels : W64) (cls flags : BitVec 8) (slots : BitVec 16) (s : State) : Res :=
  .next (s.command c 0x0401 true (cmdClassSetGuarantee channels cls flags slots))

/-! CLASS_SET_LIMIT (R226). -/

/-- The Kerbs that KERB names; `none` where KIND or INDEX is out of range. -/
def kerbsOf (kerb : BitVec 16) : Option (List (Fin 140)) :=
  let idx := fieldN kerb 0 8
  let pick := fun (lo n : Nat) =>
    if idx = 0xFF then some ((fins 140).filter (fun j => decide (lo ≤ j.val) && decide (j.val < lo + n)))
    else if idx < n then some ((fins 140).filter (fun j => j.val == lo + idx))
    else none
  match fieldN kerb 12 4 with
  | 0 => pick 0 8
  | 1 => pick 8 64
  | 2 => pick 72 64
  | 3 => pick 136 4
  | 15 => if idx = 0xFF then none else some (fins 140)
  | _ => none

/-- The Kerb works: its District's domain is powered (R228). Host-port and control-core Kerbs always do (R472). -/
def State.kerbPowered (s : State) (j : Fin 140) : Bool :=
  if j.val < 8 then true else match portDist j with | some k => s.distPowered k | none => true

/-- Ask for a new bucket setting at the next refill strobe. -/
def State.askLimit (s : State) (j : Fin 140) (c : Fin 16) (rate burst : BitVec 16) : State :=
  let on := s.kerbPowered j
  s.modKerb j (fun k => { k with cls := vmod k.cls c (fun x =>
    { x with admitted := (rate, burst), next := if on then some (rate, burst) else x.next }) })

/-- CLASS_SET_LIMIT. -/
def cmdClassSetLimit (kerb : BitVec 16) (cls : BitVec 8) (rate burst : BitVec 16) : CmdFn := fun s =>
  match kerbsOf kerb with
  | none => s.refuse .badParam
  | some js =>
    checked [(decide (15 ≤ cls.toNat) || (rate ≠ 0 && burst = 0) || fieldN kerb 8 4 != 0, .badParam)]
      (fun s =>
        let c : Fin 16 := ⟨cls.toNat % 16, Nat.mod_lt _ (by decide)⟩
        let s := js.foldl (fun s j => s.askLimit j c rate burst) s
        if js.any s.kerbPowered then (s, .wait (.limit (res64 js.length))) else s.okay (res64 js.length)) s

def execClassSetLimit (c : CmdCtx) (kerb : BitVec 16) (cls : BitVec 8) (rate burst : BitVec 16) (s : State) : Res :=
  .next (s.command c 0x0402 true (cmdClassSetLimit kerb cls rate burst))

/-! CLASS_COUNTERS_SNAPSHOT (R229). -/

/-- CLASS_COUNTERS_SNAPSHOT: the counters are taken at the next revolution boundary. -/
def cmdClassCountersSnapshot (page : W32) : CmdFn := fun s =>
  checked [
    (!s.pageOk page || s.treePage page.toNat, .badParam),
    (peRetired (s.patRaw page.toNat), .notPermitted)]
    (fun s => (s, .wait (.snapshot page.toNat))) s

def execClassCountersSnapshot (c : CmdCtx) (page : W32) (s : State) : Res :=
  .next (s.command c 0x0403 true (cmdClassCountersSnapshot page))

/-- Bucket level as software reads it (R231): 0 while RATE is 0. -/
def KClass.shown (c : KClass) : W32 := if c.rate = 0 then 0 else BitVec.ofInt 32 c.level
/-- A vector's element as eight bytes. -/
def v64 (v : Vector W64 16) (c : Nat) : List Byte := toBytes (v.toList.getD c 0) 8
/-- A channel's part of a snapshot. -/
def snapChannel (r : Rbt) : List Byte :=
  ((List.range 16).flatMap (fun c => v64 r.used c ++ v64 r.idle c ++ v64 r.borrowed c ++ v64 r.bytes c)) ++
  toBytes r.maint 8 ++ toBytes r.norun 8 ++ toBytes r.quiet 8 ++ List.replicate 104 0
/-- A Kerb's part of a snapshot. -/
def snapKerb (k : Kerb) : List Byte :=
  k.cls.toList.flatMap (fun c => toBytes c.held 8 ++ toBytes c.maxHeld 4 ++ toBytes c.spill 4 ++ toBytes c.shown 4)
/-- The 85,824 bytes of a snapshot. -/
def State.snapshotBytes (s : State) : List Byte :=
  toBytes (res64 s.strobe) 8 ++ toBytes (s.chs[(0 : Fin 64)]).rbt.revs 8 ++ List.replicate 48 0 ++
  s.chs.toList.flatMap (fun c => snapChannel c.rbt) ++ s.kerbs.toList.flatMap snapKerb

/-! The passing of a strobe (R209, R214, R223). -/

/-- Count one slot of a channel (R214). -/
def Channel.countSlot (c : Channel) (k : Nat) : Channel :=
  let o := c.ctl.outs.find? (fun o => o.slot == k)
  let c := { c with ctl := { c.ctl with outs := c.ctl.outs.filter (fun o => decide (k < o.slot)) } }
  let r := c.rbt
  if !r.counting then c
  else if c.ctl.state ≠ .run then { c with rbt := { r with norun := r.norun + 1 } }
  else if r.isMaint k then { c with rbt := { r with maint := r.maint + 1 } }
  else
    let e := slotAt r.active k
    let x := entryClass e
    let inc := fun (v : Vector W64 16) (i : Nat) (n : W64) => v.setIfInBounds i (v.toList.getD i 0 + n)
    let quiet := r.quieted e k
    let r := if quiet then { r with quiet := r.quiet + 1 } else r
    match o with
    | none => { c with rbt := { r with idle := inc r.idle x 1 } }
    | some o =>
      let own := o.denied || o.cls == some x
      let r := if own then { r with used := inc r.used x 1 } else { r with idle := inc r.idle x 1 }
      match o.cls with
      | none => { c with rbt := r }
      | some b =>
        let r := if b = x then r else { r with borrowed := inc r.borrowed b 1 }
        { c with rbt := { r with bytes := inc r.bytes b (res64 o.bytes) } }

/-- The counters of a channel's row path that run with the strobes (R56, R58). -/
def Tsv.strobe (t : Tsv) (now : Nat) (powered : Bool) : Tsv :=
  { t with
    sinceTrain := if powered then t.sinceTrain + 1 else t.sinceTrain,
    holdCount := if t.held now then satAdd t.holdCount 1 else t.holdCount }

/-- Held strobes of a Kerb (R223). -/
def Kerb.countHeld (k : Kerb) : Kerb :=
  { k with cls := k.cls.map (fun c => if c.isHeld k.lifted then { c with held := c.held + 1 } else c) }

/-- Classes that lose guaranteed slots (R220). -/
def Rbt.breaching (r : Rbt) : BitVec 16 :=
  (List.range 256).foldl (fun (v : BitVec 16) p =>
    let e := slotAt r.active p
    if entryGuar e && ((r.hot && p % 16 == 8) || (decide (p / 16 < r.guarQuiet.toNat) && entryClass e != 15)) then
      setBit v (entryClass e) true
    else v) 0

/-- The Roundabout at a revolution boundary (R211, R212, R214, R219). -/
def Rbt.boundary (r : Rbt) (hot on : Bool) (level : Nat) : Rbt :=
  let r := r.turn hot level
  if r.counting then { r with revs := r.revs + 1 } else { r with counting := on }

/-- A slot that a channel's new revolution gives to maintenance, or quiets (R212, R219). -/
def Rbt.barred (r : Rbt) (k : Nat) : Bool := r.isMaint k || r.quieted (r.entry k) k
/-- A maintenance command: every one but a request's RA and a WM. -/
def SlotCmd.maint (x : SlotCmd) : Bool := !isReqRa x && !isWm x
/-- What had been decided for slots of the new revolution and does not fit it any more is decided again: transfers in slots that it bars,
maintenance in slots that are none (R211, R212, R219). -/
def Channel.refit (c : Channel) (n : Nat) : Channel :=
  let draining := decide (c.ctl.state = .draining)
  let c := c.cancelAll n (fun x => if x.maint then !c.rbt.isMaint x.slot && !draining else c.rbt.barred x.slot && !draining)
  { c with ctl := { c.ctl with outs := c.ctl.outs.filter (fun o => !(o.cls.isSome && c.rbt.barred o.slot)) } }

/-- One channel's revolution boundary, with the breaches that begin (R220). -/
def State.channelBoundary (s : State) (ch : Fin 64) : State :=
  if !s.distPowered (distOf ch) then s
  else
    let old := s.chs[ch].rbt.breach
    let hot := s.hotCh ch
    let on := s.distOn (distOf ch)
    let level := s.thm.level
    let s := s.modCh ch (fun c => { c with
      rbt := c.rbt.boundary hot on level,
      tsv := { c.tsv with walkRevs := c.tsv.walkRevs + 1 },
      ecc := { c.ecc with ceRevs := c.ecc.ceRevs.map (fun n => n + 1) } })
    let s := s.modCh ch (fun c => c.refit s.glb.variant.layers)
    let new := s.chs[ch].rbt.breaching
    let s := s.modRbt ch (fun r => { r with breach := new })
    (List.range 16).foldl (fun s c =>
      if bit new c && !bit old c then s.log (evGuaranteeBreach ch.val) (detail ch.val c) acNone else s) s

/-- Commands that wait for a revolution boundary (R218, R229). -/
def State.boundaryCommands (s : State) : State :=
  s.cmd.waits.foldl (fun s w =>
    match w.kind with
    | .guarantee m r => if s.tablesActive m then s.finish w .ok r else s
    | .snapshot page =>
      let revs := (s.chs[(0 : Fin 64)]).rbt.revs
      let x := s.writeBytesNow (s.coreId w.ctx) (page * 131072) acCommand 15 s.snapshotBytes
      x.1.finish w (if x.2 = .ok then .ok else .internal) revs
    | _ => s) s

/-- RETRAIN on a channel that has gone offline ends with NOT_PERMITTED (R350). -/
def State.offlineCommands (s : State) : State :=
  s.cmd.waits.foldl (fun s w => match w.kind with
    | .retrain ch _ => if s.chs[ch].tsv.offline then s.finish w .notPermitted 0 else s
    | _ => s) s

/-- The refill strobe of every Kerb, and the commands that wait for it (R223, R226). -/
def State.refillAll (s : State) : State :=
  let s := { s with kerbs := s.kerbs.map Kerb.refill }
  s.cmd.waits.foldl (fun s w => match w.kind with | .limit r => s.finish w .ok r | _ => s) s

/-- A revolution boundary (R209). -/
def State.boundary (s : State) : State :=
  let s := { s with thm := { s.thm with level := s.thm.nextLevel } }
  ((fins 64).foldl State.channelBoundary s).boundaryCommands

/-- One strobe of waiting of an engine that evaluates no tile (R189): for source rows, or for output, bucket and destination requests;
where both are outstanding it waits for the rows (DEDUCED, log entry 104). -/
def Engine.stall (e : Engine) : Engine :=
  match e.run with
  | none => e
  | some r =>
    let busy := (match r.tile with | some t => t.arrived | none => false) && r.probe.isNone
    if busy then e
    else if e.io.any (fun i => i.src.isSome && i.got.isNone) then
      if e.fracRow + 1 = 64 then { e with fracRow := 0, stallRow := satAdd e.stallRow 1 } else { e with fracRow := e.fracRow + 1 }
    else if e.io.any (fun i => (i.write || i.lane.isSome) && i.got.isNone) then
      if e.fracOut + 1 = 64 then { e with fracOut := 0, stallOut := satAdd e.stallOut 1 } else { e with fracOut := e.fracOut + 1 }
    else e

/-- RBT_COMMIT (R211): reserved to CC0-CC3. -/
def execRbtCommit (p : Path) (m : MasterId) (ch : Fin 64) (s : State) : Res :=
  .next (s.guardCore p m (offChs ch 0x1404) (fun s => s.modRbt ch (fun r => { r with commit := true })))

/-! The RBT and KRB registers (R230, R231). -/

/-- A half of a 64-bit counter. -/
def half (v : W64) (hi : Bool) : W32 := if hi then v.extractLsb' 32 32 else v.setWidth 32

/-- Read of an RBT register at an offset from 0x1400 on; `o` is the offset in the CHS block. -/
def Rbt.read (r : Rbt) (o : Nat) : W32 :=
  let hi := o % 8 == 4
  match o with
  | 0x1400 =>
    at32 16 r.breach.toNat ||| at32 15 (b2n r.hot) ||| at32 14 (b2n r.commit) ||| at32 13 (b2n (decide (225 ≤ guarTotal r.active)))
  | 0x1404 => at32 0 (b2n r.commit)
  | 0x1408 => r.borrow.setWidth 32
  | 0x140C => at32 31 (b2n r.borrowOff) ||| at32 4 r.beQuiet.toNat ||| at32 0 r.guarQuiet.toNat
  | 0x1410 => at32 16 (guarHot r.active) ||| at32 0 (guarTotal r.active)
  | _ =>
    if 0x1418 ≤ o && o < 0x1420 then half r.revs hi
    else if 0x1420 ≤ o && o < 0x1428 then half r.maint hi
    else if 0x1428 ≤ o && o < 0x1430 then half r.norun hi
    else if 0x1430 ≤ o && o < 0x1438 then half r.quiet hi
    else if 0x1500 ≤ o && o < 0x1600 then
      let i := (o - 0x1500) / 4
      (slotAt r.pend (4 * i + 3)) ++ (slotAt r.pend (4 * i + 2)) ++ (slotAt r.pend (4 * i + 1)) ++ (slotAt r.pend (4 * i))
    else if 0x1600 ≤ o && o < 0x1800 then
      let c := (o - 0x1600) / 32
      let v := match (o % 32) / 8 with | 0 => r.used | 1 => r.idle | 2 => r.borrowed | _ => r.bytes
      half (v.toList.getD c 0) hi
    else 0

/-- Write of an RBT register by CC0-CC3 (R211). -/
def Rbt.write (r : Rbt) (o : Nat) (v : W32) : Rbt :=
  if o = 0x1404 then (if bit v 0 then { r with commit := true } else r)
  else if o = 0x1408 then { r with borrow := setBit (v.setWidth 16) 15 true }
  else if 0x1500 ≤ o && o < 0x1600 then
    let i := (o - 0x1500) / 4
    (List.range 4).foldl (fun r j => r.writeSlot (4 * i + j) (byteOf v j)) r
  else r

/-- Read of a KRB register at an offset from the sub-block's base (R231). -/
def Kerb.read (k : Kerb) (o : Nat) : W32 :=
  let c := fun (i : Nat) => k.cls.toList.getD i {}
  if o = 0 then
    (List.range 16).foldl (fun (v : W32) i =>
      setBit (setBit v (16 + i) ((c i).isHeld k.lifted)) i (!(c i).queue.isEmpty)) 0
  else if 0x40 ≤ o && o < 0x80 then
    let x := c ((o - 0x40) / 4)
    let l := x.next.getD (x.rate, x.burst)
    at32 16 l.1.toNat ||| at32 0 l.2.toNat
  else if 0x80 ≤ o && o < 0xC0 then (c ((o - 0x80) / 4)).shown
  else if 0xC0 ≤ o && o < 0x100 then (c ((o - 0xC0) / 4)).maxHeld
  else if 0x100 ≤ o && o < 0x140 then (c ((o - 0x100) / 4)).spill
  else if 0x180 ≤ o && o < 0x200 then half (c ((o - 0x180) / 8)).held (o % 8 == 4)
  else 0

/-- The clearing effect of reading KRB_MAX_HELD or KRB_SPILL. -/
def Kerb.clearRead (k : Kerb) (o : Nat) : Kerb :=
  if 0xC0 ≤ o && o < 0x100 then
    { k with cls := k.cls.setIfInBounds ((o - 0xC0) / 4) { k.cls.toList.getD ((o - 0xC0) / 4) {} with maxHeld := 0 } }
  else if 0x100 ≤ o && o < 0x140 then
    { k with cls := k.cls.setIfInBounds ((o - 0x100) / 4) { k.cls.toList.getD ((o - 0x100) / 4) {} with spill := 0 } }
  else k

/-- Write of KRB_LIMIT[c] by CC0-CC3 (R231): the register reads the new values at once; they apply at the next refill strobe (log
entry 31). -/
def State.krbWrite (s : State) (j : Fin 140) (o : Nat) (v : W32) : State :=
  if 0x40 ≤ o && o < 0x7C then
    let c : Fin 16 := ⟨(o - 0x40) / 4 % 16, Nat.mod_lt _ (by decide)⟩
    let rate := v.extractLsb' 16 16
    let burst := v.extractLsb' 0 16
    if rate ≠ 0 && burst = 0 then s
    else s.modKerb j (fun k => { k with cls := vmod k.cls c (fun x => { x with next := some (rate, burst) }) })
  else s

end Sys2Proof.Machine
end

