-- ==== Sys2Proof/Machine/Power.lean ====
section
/-! DEFINITION. Functions and power: the function state machine (R360-R362), Districts (R19, R46, R61, R401), ports
(R255, R256), engines, the scrubber function, and the power and diagnostic commands (R349). -/

namespace Sys2Proof.Machine

/-! The function state machine (R360). -/

/-- An enable or disable request acts on a function: its next form and the status of the request. A request that
begins a transition sets the state alone; what the transition does to the part is its caller's. -/
def fnAsk (f : Fn) (enable : Bool) : Fn × CmdStatus :=
  match f.st, enable with
  | .off, true => ({ st := .starting }, .ok)
  | .off, false => ({ f with deferred := none }, .ok)
  | .starting, true => ({ f with deferred := none }, .ok)
  | .starting, false => if f.deferred = some false then (f, .ok) else ({ f with deferred := some false }, .deferred)
  | .on, true => ({ f with deferred := none }, .ok)
  | .on, false => ({ st := .stopping }, .ok)
  | .stopping, true => if f.deferred = some true then (f, .ok) else ({ f with deferred := some true }, .deferred)
  | .stopping, false => ({ f with deferred := none }, .ok)

/-- A request begins STARTING. -/
def fnBegins (f : Fn) (enable : Bool) : Bool := enable && decide (f.st = .off)
/-- A request begins STOPPING. -/
def fnEnds (f : Fn) (enable : Bool) : Bool := !enable && decide (f.st = .on)

/-! Ports (R254-R256). -/

/-- The host port that P(8k) carries in a CXL mode. -/
def State.hostOn (s : State) (p : Fin 64) : Option (Fin 8) := s.hostOfSub { port := p, sub := 0 }

/-- A port begins STARTING in its configured mode; CXL_X16 takes P(8k+1) with it (R254). -/
def State.startPort (s : State) (p : Fin 64) : State :=
  let go := fun (m : Nat) (x : Port) => { x with fn := { x.fn with st := .starting }, mode := m, subs := x.subs.map Sub.lost }
  let m := s.ports[p].cfgMode
  if m = 4 then
    if s.ports[pairOf p].fn.st = .off then (s.modPort p (go m)).modPort (pairOf p) (go 5) else s
  else s.modPort p (go m)
/-- The configuration with which a port comes back (R362). -/
def Port.recall (p : Port) : Port :=
  match p.back with
  | some (m, r, d, v) => { p with cfgMode := m, maxRate := r, degradeEn := d, reversalEn := v, back := none }
  | none => p

/-- A port begins STOPPING (R255): Scezo sub-links send their detach notices, a host port stops accepting. -/
def State.stopPort (s : State) (p : Fin 64) : State :=
  let stop := fun (x : Port) => { x with fn := { x.fn with st := .stopping } }
  let s := if scezoMode s.ports[p].mode then s.sendDetach (fun q => decide (q = p)) else s
  let s := match s.hostOn p with | some h => s.hostStop h | none => s
  let pair := s.ports[p].mode == 4
  let s := s.modPort p stop
  if pair then s.modPort (pairOf p) stop else s

/-- A port's lanes go dark: QUIET markers, its links DOWN, OFF (R255, R331 step 3). -/
def State.darkPort (s : State) (p : Fin 64) : State :=
  let off := fun (x : Port) => { x with fn := { x.fn with st := .off }, mode := 0, subs := x.subs.map Sub.lost }
  let s := s.quietLinks (fun q => decide (q = p))
  let s := match s.hostOn p with
    | some h => (s.hostDown h .down).modHost h CxlPort.conventionalReset
    | none => s
  let pair := s.ports[p].mode == 4
  let s := (s.modPort p off).liftKerb p
  if pair then (s.modPort (pairOf p) off).liftKerb (pairOf p) else s

/-- PORT_STOPPING_END (R255, R331): once a host port owes no completion, the port enters OFF. -/
def execPortStoppingEnd (port : Fin 64) (s : State) : Res :=
  let owes := match s.hostOn port with | some h => !(s.hosts[h]).pend.isEmpty | none => false
  if s.ports[port].fn.st = .stopping && !owes then .next (s.darkPort port) else .next s

/-- A mode that a port may take (R254). -/
def modeAllowed (port mode : Nat) : Bool :=
  mode == 1 || mode == 2 || mode == 3 || mode == 7 || ((mode == 4 || mode == 6) && port % 8 == 0)
/-- A rate that a mode may take (R257). -/
def rateAllowed (mode rate : Nat) : Bool := rate ≤ 5 && !(cxlMode mode && (rate == 3 || rate == 5))

/-- PORT_ENABLE (R256, R360). -/
def cmdPortEnable (port mode rate flags : BitVec 8) : CmdFn := fun s =>
  let p : Fin 64 := ⟨port.toNat % 64, Nat.mod_lt _ (by decide)⟩
  let on := bit flags 0
  let x := s.ports[p]
  let pair := s.ports[pairOf p]
  let before : Fin 64 := ⟨p.val - 1, by omega⟩
  checked [
    (decide (64 ≤ port.toNat) || decide (8 ≤ flags.toNat) || !rateAllowed mode.toNat rate.toNat ||
      (if on then !modeAllowed p.val mode.toNat else mode != 0), .badParam),
    (on && ((x.fn.st ≠ .off && x.mode ≠ mode.toNat) ||
      (mode = 4 && pair.fn.st ≠ .off) ||
      (scezoMode mode.toNat && p.val % 8 = 1 && s.ports[before].mode = 4)), .busy),
    (!s.distOn (distOf p), .domainDown)]
    (fun s =>
      let r := fnAsk x.fn on
      let s := s.modPort p (fun y => { y with
        want := on, cfgMode := mode.toNat, maxRate := rate.toNat, degradeEn := bit flags 1, reversalEn := bit flags 2,
        fn := { y.fn with deferred := r.1.deferred } })
      let s := if fnBegins x.fn on then s.startPort p else if fnEnds x.fn on then s.stopPort p else s
      (s, .done r.2 (res64 s.ports[p].gen.toNat))) s

def execPortEnable (c : CmdCtx) (port : BitVec 8) (mode : BitVec 8) (rate : BitVec 8) (flags : BitVec 8) (s : State) : Res :=
  .next (s.command c 0x0903 true (cmdPortEnable port mode rate flags))

/-! Engines (R175, R349, R362). -/

/-- ENGINE_ENABLE. -/
def cmdEngineEnable (engines : W64) (enable : BitVec 8) : CmdFn := fun s =>
  let es := maskList engines
  let on := bit enable 0
  checked [
    (engines = 0 || decide (2 ≤ enable.toNat), .badParam),
    (es.any (fun e => !s.distOn (distOf e)), .domainDown)]
    (fun s =>
      let late := es.any (fun e => (fnAsk (s.engs.eng[e]).fn on).2 == CmdStatus.deferred)
      let s := es.foldl (fun s e => s.modEng e (fun x => { x with want := on, fn := (fnAsk x.fn on).1 })) s
      let low := (es.head?.map (fun e => s.engs.eng[e].gen)).getD 0
      (s, .done (if late then .deferred else .ok) (res64 low.toNat))) s

def execEngineEnable (c : CmdCtx) (engines : W64) (enable : BitVec 8) (s : State) : Res :=
  .next (s.command c 0x0904 true (cmdEngineEnable engines enable))

/-- ENGINE_STARTING_END (R361, R362): the engine enters ON with a new generation. -/
def execEngineStartingEnd (e : Fin 64) (s : State) : Res :=
  if s.engs.eng[e].fn.st = .starting then
    .next (s.modEng e (fun x => { x with fn := { x.fn with st := .on }, gen := x.gen + 1 }))
  else .next s

/-- The engine runs no job and holds none, and no job that names it runs elsewhere: its generation never changes during a job (R175). -/
def State.engIdle (s : State) (e : Fin 64) : Bool :=
  (s.engs.eng[e].run).isNone && (s.engs.eng[e].pending).isEmpty && !s.engs.jobs.any (fun j => bit j.set e.val)

/-- ENGINE_STOPPING_END (R175): its running and dispatched jobs have ended. -/
def execEngineStoppingEnd (e : Fin 64) (s : State) : Res :=
  if s.engs.eng[e].fn.st = .stopping && s.engIdle e then
    .next (s.modEng e (fun x => { x with fn := { x.fn with st := .off } }))
  else .next s

/-! The scrubber function (R102, R106, R360-R362). -/

/-- The scrubber begins STARTING: every pass starts again at 0, and held targeted scrubs stay (R98, R106). -/
def State.startScrub (s : State) : State :=
  ({ s with scrub := { s.scrub with fn := { s.scrub.fn with st := .starting } } }).mapChs (fun _ c =>
    { c with ecc := { c.ecc with pos := 0, due := 0, again := c.ecc.again.filter (fun r => r.targeted) } })

/-- SCRUBBER_STARTING_END (R361, R362): at the next revolution boundary the scrubber enters ON. -/
def execScrubberStartingEnd (s : State) : Res :=
  if s.scrub.fn.st = .starting then
    .next { s with scrub := { s.scrub with fn := { s.scrub.fn with st := .on }, gen := s.scrub.gen + 1 } }
  else .next s

/-- No channel has a scrub read or a rewrite outstanding (R106). -/
def State.scrubIdle (s : State) : Bool := s.chs.toList.all (fun c =>
  c.ecc.reads.isEmpty && !c.ctl.wq.any (fun w => w.rewrite) && !c.ctl.wqWait.any (fun w => w.wline.rewrite))

/-- SCRUBBER_STOPPED (R106). -/
def execScrubberStopped (s : State) : Res :=
  if s.scrub.fn.st = .stopping && s.scrubIdle then
    .next { s with scrub := { s.scrub with fn := { s.scrub.fn with st := .off } } }
  else .next s

/-- SCRUB_CONFIG (R102, R349): the channels of Districts that are not ON are skipped. -/
def cmdScrubConfig (channels : W64) (flags rows fix : BitVec 8) (celog : BitVec 16) : CmdFn := fun s =>
  let f := s.scrub.fn
  let on := bit flags 0
  checked [(channels = 0 || decide (8 ≤ flags.toNat) || (bit flags 2 && (decide (8 < rows.toNat) || decide (4 < fix.toNat))), .badParam)]
    (fun s =>
      let s := if bit flags 2 then
          ((maskList channels).filter (fun n => s.distOn (distOf n))).foldl (fun s n => s.modEcc n (fun e => { e with
            cfg := (e.cfg &&& 0xF00F0000#32) ||| at32 24 rows.toNat ||| at32 20 fix.toNat ||| at32 0 celog.toNat })) s
        else s
      if bit flags 1 then
        let r := fnAsk f on
        let s := { s with scrub := { s.scrub with fn := r.1 } }
        let s := if fnBegins f on then s.startScrub else s
        (s, .done r.2 (res64 s.scrub.gen.toNat))
      else s.okay (res64 s.scrub.gen.toNat)) s

def execScrubConfig (c : CmdCtx) (channels : W64) (flags : BitVec 8) (rows : BitVec 8) (fix : BitVec 8) (celog : BitVec 16)
    (s : State) : Res := .next (s.command c 0x0A02 true (cmdScrubConfig channels flags rows fix celog))

/-- REMAP_MODE_SET (R108, R114, R349). -/
def cmdRemapModeSet (channels : W64) (mode ceLimit action sets : BitVec 8) : CmdFn := fun s =>
  checked [
    (channels = 0 || sets = 0 || decide (4 ≤ sets.toNat) ||
      (bit sets 0 && (decide (2 < mode.toNat) || ceLimit = 0 || decide (4 < ceLimit.toNat))) ||
      (bit sets 1 && decide (2 < action.toNat)), .badParam)]
    (fun s =>
      let s := if bit sets 0 then
          ((maskList channels).filter (fun n => s.distOn (distOf n))).foldl (fun s n => s.modEcc n (fun e => { e with
            remapCfg := (e.remapCfg &&& 0x07FFFFFF#32) ||| at32 30 mode.toNat ||| at32 27 ceLimit.toNat })) s
        else s
      let s := if bit sets 1 then { s with retire := { s.retire with action := action.toNat } } else s
      s.okay) s

def execRemapModeSet (c : CmdCtx) (channels : W64) (mode : BitVec 8) (ceLimit : BitVec 8) (action : BitVec 8) (sets : BitVec 8)
    (s : State) : Res := .next (s.command c 0x0A03 true (cmdRemapModeSet channels mode ceLimit action sets))

/-! Row path commands (R349). -/

/-- TSV_STATUS.STATE (R62): OFFLINE, TRAINING during a test or full retrain, ERASURE, NORMAL. -/
def Channel.tsvState (c : Channel) : Nat :=
  if c.tsv.offline then 2
  else if c.ctl.state = .training || (match c.tsv.hold with | some h => decide (h.kind = .full) | none => false) then 3
  else if c.tsv.erasedCount ≠ 0 then 1 else 0

/-- Spares of a range that are neither in use nor failed; 0 until the repairs have been applied (R62). -/
def Channel.sparesFree (c : Channel) (lo n : Nat) : Nat :=
  if !c.tsv.repaired then 0 else countIf (List.range n) (fun i => c.tsv.spareFree (lo + i))

/-- TSV_REPAIR_STATUS. -/
def cmdTsvRepairStatus (channel : BitVec 8) : CmdFn := fun s =>
  let n : Fin 64 := ⟨channel.toNat % 64, Nat.mod_lt _ (by decide)⟩
  checked [(decide (64 ≤ channel.toNat), .badParam), (!s.distOn (distOf n), .domainDown)]
    (fun s =>
      let c := s.chs[n]
      let fused := countIf c.tsv.spares (fun kv => kv.2.used && !kv.2.inService)
      let late := countIf c.tsv.spares (fun kv => kv.2.used && kv.2.inService)
      s.okay (at64 0 (c.sparesFree 0 160) ||| at64 8 (c.sparesFree 160 2) ||| at64 10 (c.sparesFree 162 2) |||
        at64 12 c.tsv.erasedCount ||| at64 18 c.tsvState ||| at64 20 (b2n c.tsv.clkSpare) ||| at64 21 fused ||| at64 29 late)) s

def execTsvRepairStatus (c : CmdCtx) (channel : BitVec 8) (s : State) : Res :=
  .next (s.command c 0x0A01 true (cmdTsvRepairStatus channel))

/-- RETRAIN: the retrain is due, and the reply waits for the end of its hold (R56). -/
def cmdRetrain (channel kind : BitVec 8) : CmdFn := fun s =>
  let n : Fin 64 := ⟨channel.toNat % 64, Nat.mod_lt _ (by decide)⟩
  checked [
    (decide (64 ≤ channel.toNat) || decide (1 < kind.toNat), .badParam),
    (s.chs[n].tsv.offline, .notPermitted),
    (!s.distOn (distOf n), .domainDown)]
    (fun s => (s.modTsv n (fun t => t.askRetrain (if kind = 0 then .incremental else .full)), .wait (.retrain n false))) s

def execRetrain (c : CmdCtx) (channel : BitVec 8) (kind : BitVec 8) (s : State) : Res :=
  .next (s.command c 0x0A04 true (cmdRetrain channel kind))

/-- A hold ends, and the RETRAIN commands whose hold it was reply with the epoch (R56, R57, R349). -/
def State.retrainEnds (s : State) (ch : Fin 64) (h : Hold) (failed : Bool) (found : List Conn) (age : AgeCounts) : State :=
  let s := s.endHold ch h failed found age
  s.cmd.waits.foldl (fun s w =>
    if w.kind = .retrain ch true then s.finish w .ok (res64 s.chs[ch].ctl.epoch.toNat) else s) s

/-- The hold of a channel whose length has passed (R57). -/
def State.holdOver (s : State) (ch : Fin 64) : Option Hold :=
  s.chs[ch].tsv.hold.filter (fun h => decide (h.start + holdLength s.glb.variant h.kind ≤ s.strobe))

/-- RETRAIN_HOLD_END (R55-R57): a hold whose length has passed ends. -/
def execRetrainHoldEnd (ch : Fin 64) (failed : Bool) (found : List Conn) (age : AgeCounts) (s : State) : Res :=
  match s.holdOver ch with
  | none => .next s
  | some h => .next (s.retrainEnds ch h failed found age)

/-! Districts (R19, R401). -/

/-- The channels, ports and engines of District k. -/
def membersOf (k : Fin 8) : List (Fin 64) := (fins 64).filter (fun n => decide (distOf n = k))

/-- District k begins STARTING: the forwarded clocks of its channels that are not offline run, and these are repaired, tested and trained
(R40, R88). -/
def State.startDistrict (s : State) (k : Fin 8) : State :=
  let s := s.modDist k (fun d => { d with fn := { d.fn with st := .starting }, drained := false, accepted := [] })
  (membersOf k).foldl (fun s n => if s.chs[n].tsv.offline then s
    else (s.modTsv n (fun t => { t with clk := true })).modCtl n (fun c => { c with state := .training, program := 1 })) s

/-- District k begins STOPPING (R19 steps 1-3): ports and engines follow it, its Kerbs lift every limit (R227), requests
that its ports have issued or that its switch holds are remembered, and a RETRAIN whose hold has not begun ends with DOMAIN_DOWN (R350). -/
def State.stopDistrict (s : State) (k : Fin 8) : State :=
  let ms := membersOf k
  let inside := ((fins 140).filter (fun j => portDist j = some k)).flatMap (fun j =>
      (s.mports[j].outst).map (fun o => (o.req.master, o.req.tag))) ++
    (s.reqPlane.filter (fun c => c.spot = some (.sw k))).map (fun c => (c.load.req.master, c.load.req.tag))
  let s := s.modDist k (fun d => { d with fn := { d.fn with st := .stopping }, drained := false, accepted := inside })
  let s := ms.foldl (fun s p =>
    let s := s.modPort p (fun x => { x with fn := { x.fn with deferred := none } })
    if (s.ports[p].fn.st = .on || s.ports[p].fn.st = .starting) && s.ports[p].mode ≠ 5 then s.stopPort p else s) s
  let s := ms.foldl (fun s e => s.modEng e (fun x => { x with fn :=
    { st := if x.fn.st = .off then .off else .stopping } })) s
  let s := ms.foldl (fun s n =>
    (s.modKerb (portEngine n) (fun j => { j with lifted := true })).modKerb (portLink n) (fun j => { j with lifted := true })) s
  s.cmd.waits.foldl (fun s w => match w.kind with
    | .retrain ch false => if distOf ch = k then
        (s.modTsv ch (fun t => { t with retrainDue := none })).finish w .domainDown 0 else s
    | _ => s) s

/-- The jobs and requests of R19 steps 1 and 3 have ended in District k, and no command waits for a hold there. -/
def State.distQuiet (s : State) (k : Fin 8) : Bool :=
  (s.dist[k].accepted).isEmpty &&
  (membersOf k).all (fun n => s.engIdle n && (s.heldRequests n).isEmpty &&
    !s.cmd.waits.any (fun w => w.kind == .retrain n true))

/-- DISTRICT_JOBS_ENDED (R19 step 4, R89, R142): counters of the District's channels go back, and its channels begin to
drain into DRAM. -/
def execDistrictJobsEnded (d : Fin 8) (s : State) : Res :=
  if s.dist[d].fn.st = .stopping && !s.dist[d].drained && s.distQuiet d then
    let s := s.flushCtrs (fun s key => decide (distOf (s.decodeAddr (key * 64)).ch = d))
    let s := (membersOf d).foldl State.startDrain s
    .next (s.modDist d (fun x => { x with drained := true }))
  else .next s

/-- Channel n as the switching off of its domain leaves it (R62, R91, R120, R154, R228, R382): the epoch, INIT_DONE and the
admitted guarantees are kept, and its layers stay in self-refresh, with their forwarded clock. -/
def Channel.powerOff (c : Channel) (n : Nat) : Channel :=
  let r := Channel.reset n
  { r with
    tsv := { r.tsv with clk := c.tsv.clk },
    ctl := { r.ctl with epoch := c.ctl.epoch, layers := c.ctl.layers, srxFrom := c.ctl.srxFrom },
    ecc := { r.ecc with initDone := c.ecc.initDone }, adm := c.adm }

/-- Port p as the switching off of its domain leaves it (R273, R309): GEN and link epochs are kept, and the
configuration of a port that is to come back (R362). -/
def Port.powerOff (p : Port) : Port :=
  { gen := p.gen, want := p.want, back := if p.want then some (p.cfgMode, p.maxRate, p.degradeEn, p.reversalEn) else none,
    subs := p.subs.map (fun u => { epoch := u.epoch }) }

/-- A Kerb as the switching off of its domain leaves it (R228): the admitted limits are kept for the next ON. -/
def Kerb.powerOff (k : Kerb) : Kerb := { cls := k.cls.map (fun c => { admitted := c.admitted }) }
/-- The admitted limits return (R228). -/
def Kerb.restore (k : Kerb) : Kerb :=
  { k with lifted := false, cls := k.cls.map (fun c => if c.admitted = (0, 0) then c else { c with next := some c.admitted }) }

/-- A channel that is not offline is in self-refresh, or its domain has not started it (R89). -/
def Channel.parked (c : Channel) : Bool :=
  c.tsv.offline || decide (c.ctl.state = .selfRefresh) || decide (c.ctl.state = .off)

/-- The Kerbs and switch of District k hold no request. -/
def State.distEmpty (s : State) (k : Fin 8) : Bool :=
  (membersOf k).all (fun n => [portEngine n, portLink n].all (fun j =>
    (s.kerbs[j]).cls.toList.all (fun c => c.queue.isEmpty) && (s.mports[j]).waiting.isEmpty)) && (s.hosts[k]).pend.isEmpty &&
  s.reqPlane.all (fun c => c.spot != some (.sw k)) && s.mports.toList.all (fun p => p.inflight.all (fun c => c.spot != some (.sw k)))

/-- DISTRICT_OFF (R19 step 6): the domain switches off. -/
def execDistrictOff (d : Fin 8) (s : State) : Res :=
  if s.dist[d].fn.st = .stopping && s.dist[d].drained && s.distEmpty d && (membersOf d).all (fun n => (s.chs[n]).parked) then
    let ms := membersOf d
    let s := ms.foldl (fun s p => if s.ports[p].fn.st = .off then s else s.darkPort p) s
    let s := ms.foldl (fun s n =>
      let s := s.modCh n (fun c => c.powerOff n.val)
      let s := s.modPort n Port.powerOff
      let s := s.modEng n (fun e => { gen := e.gen, want := e.want })
      (s.modKerb (portEngine n) Kerb.powerOff).modKerb (portLink n) Kerb.powerOff) s
    let s := s.modHost d (fun h => { perst := h.perst, linkDisabled := h.linkDisabled })
    .next (s.modDist d (fun x => { fn := { x.fn with st := .off }, gen := x.gen }))
  else .next s

/-! The start of a District (R46, R61, R401). -/

/-- The repair entry of a region 1 word for a channel, if it is valid (R45, R46): the spare, numbered as TSV_MAP_INDEX
does, and the position. -/
def repairOf (ch : Nat) (w : W32) : Option (Nat × Nat) :=
  let g := fieldN w 17 8
  let p := fieldN w 11 6
  let sp := fieldN w 10 1
  if !bit w 31 || fieldN w 25 6 ≠ ch || fieldN w 0 10 ≠ 0 then none
  else if g < 160 then (if sp = 0 then some (g, p) else none)
  else if g = 160 then (if p < 40 then some (160 + sp, p) else none)
  else if g = 161 then (if p < 20 then some (162 + sp, p) else none)
  else if g = 162 then (if p = 0 && sp = 0 then some (164, 0) else none)
  else none

/-- APPLY_REPAIR (R46): the channel's entries in ascending word order; a spare already claimed is left. -/
def State.applyRepair (s : State) (ch : Fin 64) : State :=
  (List.range 511).foldl (fun s i =>
    match repairOf ch.val (s.shadowWord (16 + i)) with
    | some (k, p) =>
      if (s.chs[ch].tsv.spare k).used then s
      else s.modTsv ch (fun t => { t with spares := smPut t.spares k { used := true, pos := p } })
    | none => s) s

/-- A marginal region 1 word names the channel: its full test ignores the channel's entries (R61, R392). Where the
region's check word does not verify, every word counts as marginal (R411). -/
def State.repairDoubt (s : State) (ch : Fin 64) : Bool :=
  bit s.fuse.crcBad 1 ||
  s.fuse.marginal.any (fun w => decide (16 ≤ w) && decide (w < 527) && fieldN (s.shadowWord w) 25 6 == ch.val)

/-- The word of ECC_SELFTEST (R120). -/
def testWord (t : TestRes) : W32 :=
  at32 30 (if t.codeFail || t.tagFail || t.aesFail then 2 else 1) ||| at32 29 (b2n t.codeFail) ||| at32 28 (b2n t.tagFail) |||
    at32 27 (b2n t.aesFail) ||| (if t.codeFail || t.tagFail || t.aesFail then t.pattern.setWidth 32 else 0)

/-- A slice's self-test ends (R117-R119): a failing slice takes its channel offline. -/
def State.selfTest (s : State) (ch : Fin 64) (t : TestRes) : State :=
  let s := s.modEcc ch (fun e => { e with selftest := testWord t })
  if t.codeFail || t.tagFail || t.aesFail then
    (s.log (evSelftestFail ch.val) (detail ch.val (testWord t).toNat) acSequencer).goOffline ch 5
  else s

/-- SR_EXIT and full training end (R56, R57, R78, R88): ALN, the spares that it steers in, the baseline, the epoch; the counter of strobes
counts on. -/
def State.trainFull (s : State) (ch : Fin 64) (locked : Bool) (age : AgeCounts) : State :=
  if s.chs[ch].tsv.offline then s
  else if !locked then s.goOffline ch 6
  else
    let n := s.glb.variant.layers
    let w := at32 16 age.stress.toNat ||| at32 0 age.ref.toNat
    let s := s.modTsv ch (fun t => { t.caPending.foldl (fun t x => t.steerIn (160 + x.1) x.2) t with
      retrainDue := none, ageBase := w, ageNow := w, caPending := [], clk := true, aligned := true })
    let s := s.modCtl ch (fun c => { (c.layerDo n .aln).allLayers n RowCmd.srx with state := .run, program := 0, rowFrom := s.strobe + 64 })
    s.bumpEpoch ch

/-- One channel through APPLY_REPAIR, the self-test that follows a switch-off, CONNECT_TEST, SR_EXIT and TRAIN_FULL (R401
step 3). -/
def State.startChannel (s : State) (r : ChanStart) : State :=
  if s.chs[r.ch].tsv.offline then s
  else
    let s := if s.repairDoubt r.ch then s else s.applyRepair r.ch
    let s := s.modTsv r.ch (fun t => { t with repaired := true })
    let s := if s.chs[r.ch].ecc.selftest = 0 then s.selfTest r.ch r.test else s
    let s := (orderDead r.dead).foldl (fun s c => s.declareDead r.ch true c) s
    s.trainFull r.ch r.locked r.age

/-- The admitted guarantees of a channel return (R228). -/
def Channel.restore (c : Channel) : Channel :=
  { c with rbt := { c.rbt with active := placeTable c.adm.g, pend := placeTable c.adm.g, borrow := c.adm.borrow } }

/-- DISTRICT_STARTING_END (R401 step 3, R228, R361, R362): the District enters ON. A channel that the results do not
name starts with nothing found. No layer leaves self-refresh within 256 strobes of its entry (R78). -/
def execDistrictStartingEnd (d : Fin 8) (results : List ChanStart) (s : State) : Res :=
  if s.dist[d].fn.st = .starting && s.fwRunning && (membersOf d).all (fun n => decide (s.chs[n].ctl.srxFrom ≤ s.strobe)) then
    let ms := membersOf d
    let find := fun (n : Fin 64) =>
      (results.find? (fun r => r.ch = n)).getD { ch := n, test := {}, dead := [], locked := true, age := { stress := 0, ref := 0 } }
    let s := ms.foldl (fun s n => s.startChannel (find n)) s
    let s := s.modDist d (fun x => { x with fn := { x.fn with st := .on }, gen := x.gen + 1 })
    let s := ms.foldl (fun s n =>
      let s := s.modCh n Channel.restore
      (s.modKerb (portEngine n) Kerb.restore).modKerb (portLink n) Kerb.restore) s
    let s := ms.foldl (fun s p =>
      let s := s.liftKerb p
      if s.ports[p].want && s.ports[p].fn.st = .off && s.ports[p].mode = 0 then (s.modPort p Port.recall).startPort p else s) s
    .next (ms.foldl (fun s e => s.modEng e (fun x =>
      if x.want && x.fn.st = .off then { x with fn := { st := .starting } } else x)) s)
  else .next s

/-- DIST_POWER (R19, R349, R360). -/
def cmdDistPower (district enable : BitVec 8) : CmdFn := fun s =>
  let k : Fin 8 := ⟨district.toNat % 8, Nat.mod_lt _ (by decide)⟩
  let on := bit enable 0
  let f := s.dist[k].fn
  checked [(decide (8 ≤ district.toNat) || decide (2 ≤ enable.toNat), .badParam)]
    (fun s =>
      let r := fnAsk f on
      let s := s.modDist k (fun d => { d with fn := r.1 })
      let s := if fnBegins f on then s.startDistrict k else if fnEnds f on then s.stopDistrict k else s
      (s, .done r.2 (res64 s.dist[k].gen.toNat))) s

def execDistPower (c : CmdCtx) (district : BitVec 8) (enable : BitVec 8) (s : State) : Res :=
  .next (s.command c 0x0902 true (cmdDistPower district enable))

/-! Deferred transitions (R360). -/

/-- A transition deferred on a function that has come to rest. -/
def fnDue (f : Fn) : Option Bool :=
  match f.st, f.deferred with
  | .off, some true => some true
  | .on, some false => some false
  | _, _ => none

/-- FUNCTION_DEFERRED_START (R360): every deferred transition whose function has come to rest begins. -/
def execFunctionDeferredStart (s : State) : Res :=
  let s := (fins 8).foldl (fun s k =>
    let f := s.dist[k].fn
    let s := s.modDist k (fun d => { d with fn := if (fnDue f).isSome then { f with deferred := none } else f })
    match fnDue f with
    | some true => s.startDistrict k
    | some false => s.stopDistrict k
    | none => s) s
  let s := (fins 64).foldl (fun s p =>
    let f := s.ports[p].fn
    let s := s.modPort p (fun x => { x with fn := if (fnDue f).isSome then { f with deferred := none } else f })
    match fnDue f with
    | some true => s.startPort p
    | some false => s.stopPort p
    | none => s) s
  let s := (fins 64).foldl (fun s e => s.modEng e (fun x =>
    match fnDue x.fn with
    | some true => { x with fn := { st := .starting } }
    | some false => { x with fn := { st := .stopping } }
    | none => x)) s
  match fnDue s.scrub.fn with
  | some true => .next ({ s with scrub := { s.scrub with fn := {} } }).startScrub
  | some false => .next { s with scrub := { s.scrub with fn := { st := .stopping } } }
  | none => .next s

end Sys2Proof.Machine
end

