-- ==== Sys2Proof/Machine/Pages.lean ====
section
/-! DEFINITION. The page, access-group and integrity commands (R113, R116, R126, R128, R129, R136, R148, R335, R348). -/

namespace Sys2Proof.Machine

/-- Free the remap entries of a page (R112). -/
def State.freeRemap (s : State) (page : Nat) : State :=
  s.mapChs (fun n c => { c with ecc := { c.ecc with remap := c.ecc.remap.filter (fun kv => s.addrOf n.val kv.2.row kv.2.line / 131072 != page) } })

/-- A page becomes RETIRED, which nothing clears (R112, R113, R348). -/
def State.setRetired (s : State) (page : Nat) : State :=
  let s := (s.setEntry page (s.patRaw page ||| 0x04000000#32)).freeRemap page
  { s with retire := { s.retire with reserve := s.retire.reserve.filter (fun p => p != page) } }

/-- A page is reserved: in the reserve, or the reserve page that a migration is filling (R115, R116). -/
def State.isReserve (s : State) (page : Nat) : Bool :=
  s.retire.reserve.contains page || (match s.retire.migrating with | some (_, dst, _, _) => dst == page | none => false)

/-- A page lies in the command area or the tree store. -/
def State.specialPage (s : State) (page : Nat) : Bool := inCmdArea page || s.treePage page

/-! PAGE_SET (R128, R129). -/

/-- PAGE_SET (R128, R129). Where a command meets several rows of R129, the first of them decides: the rule gives them no order (DESIGN
CHOICE, log entry 91). A change that clears the page waits until no request uses the old entry (R25). -/
def cmdPageSet (c : CmdCtx) (page entry : W32) : CmdFn := fun s =>
  let p := page.toNat
  let old := s.patRaw p
  checked [
    (!s.sec.configured, .notPermitted),
    (!s.pageOk page || s.specialPage p || s.isReserve p, .badParam),
    (peRetired old, .notPermitted),
    (peRetired entry || fieldN entry 24 2 != 0 || fieldN entry 0 4 != 0, .badParam),
    (peInt entry && !(peEnc entry && s.inProtected (p * 131072)), .badParam),
    (peEnc entry && !(s.keySlot (peSlot entry)).usable, .badParam)]
    (fun s =>
      let olds := s.lookups (fun q _ => q == p)
      if s.changing p then s.actLater olds (.setPage p entry (s.coreId c))
      else if !clears old entry then (s.setEntry p entry).afterLookups olds .ok (old.setWidth 64)
      else match s.channelBar (s.decodeAddr (p * 131072)).ch with
        | some st => s.refuse st
        | none =>
          if olds.isEmpty then
            let x := s.setPageNow (s.coreId c) p entry
            (x.1, .done x.2 (old.setWidth 64))
          else s.actLater olds (.setPage p entry (s.coreId c))) s

def execPageSet (c : CmdCtx) (page entry : W32) (s : State) : Res := .next (s.command c 0x0301 true (cmdPageSet c page entry))

/-- PAGE_GET. -/
def cmdPageGet (page : W32) : CmdFn := fun s =>
  let p := page.toNat
  checked [(!s.pageOk page || s.specialPage p, .badParam)]
    (fun s => s.okay ((s.patRaw p).setWidth 64 ||| at64 32 (b2n (s.isReserve p)) |||
      at64 33 (b2n (s.sec.sticky.contains p || s.sec.stickyPend.contains p)))) s

def execPageGet (c : CmdCtx) (page : W32) (s : State) : Res := .next (s.command c 0x0302 true (cmdPageGet page))

/-- PAGE_RETIRE (R113, R335). -/
def cmdPageRetire (page : W32) : CmdFn := fun s =>
  let p := page.toNat
  checked [(!s.pageOk page || inCmdArea p, .badParam)]
    (fun s => (s.setRetired p).afterLookups (s.lookups (fun q _ => q == p)) .ok 0) s

def execPageRetire (c : CmdCtx) (page : W32) (s : State) : Res := .next (s.command c 0x0303 true (cmdPageRetire page))

/-- PAGE_RESERVE (R116, R335). -/
def cmdPageReserve (page : W32) : CmdFn := fun s =>
  let p := page.toNat
  checked [(!s.pageOk page || s.specialPage p || peValid (s.patRaw p) || peRetired (s.patRaw p) ||
      s.isReserve p || decide (1024 ≤ s.retire.reserve.length), .badParam)]
    (fun s => ({ s with retire := { s.retire with reserve := s.retire.reserve ++ [p] } }).okay) s

def execPageReserve (c : CmdCtx) (page : W32) (s : State) : Res := .next (s.command c 0x0304 true (cmdPageReserve page))

/-- PAGE_RECORD_READ (R116). -/
def cmdPageRecordRead : CmdFn := fun s =>
  match s.retire.records with
  | [] => s.okay 0
  | r :: rest => ({ s with retire := { s.retire with records := rest } }).okay r

def execPageRecordRead (c : CmdCtx) (s : State) : Res := .next (s.command c 0x0305 true cmdPageRecordRead)

/-- Group and index are in range (R126). -/
def groupBad (group : BitVec 16) (index : BitVec 8) : Bool := decide (255 < group.toNat) || decide (15 < index.toNat)

/-- ACCESS_GROUP_SET (R126). -/
def cmdAccessGroupSet (group : BitVec 16) (index : BitVec 8) (pattern : W64) : CmdFn := fun s =>
  checked [(groupBad group index || fieldN pattern 40 21 != 0, .badParam)]
    (fun s =>
      let olds := s.lookups (fun _ e => peGroup e == group.toNat)
      let key := 16 * group.toNat + index.toNat
      ({ s with sec := { s.sec with groups := if pattern = 0 then smDel s.sec.groups key else smPut s.sec.groups key pattern } }).afterLookups
        olds .ok 0) s

def execAccessGroupSet (c : CmdCtx) (group : BitVec 16) (index : BitVec 8) (pattern : W64) (s : State) : Res :=
  .next (s.command c 0x0306 true (cmdAccessGroupSet group index pattern))

/-- ACCESS_GROUP_GET (R126). -/
def cmdAccessGroupGet (group : BitVec 16) (index : BitVec 8) : CmdFn := fun s =>
  checked [(groupBad group index, .badParam)] (fun s => s.okay (s.groupPat group.toNat index.toNat)) s

def execAccessGroupGet (c : CmdCtx) (group : BitVec 16) (index : BitVec 8) (s : State) : Res :=
  .next (s.command c 0x0307 true (cmdAccessGroupGet group index))

/-- INTEGRITY_CONFIG (R136). -/
def cmdIntegrityConfig (code : BitVec 8) : CmdFn := fun s =>
  checked [
    (s.sec.configured, .locked),
    (!s.glb.mapLock || (fins 64).any (fun n => !s.chs[n].tsv.offline && !s.chs[n].ecc.initDone), .notPermitted),
    (decide (3 < code.toNat), .badParam)]
    (fun s =>
      let s := s.buildTree code.toNat
      s.okay (res64 (if code = 0 then 0 else treeBasePage s.glb.variant code.toNat))) s

def execIntegrityConfig (c : CmdCtx) (code : BitVec 8) (s : State) : Res := .next (s.command c 0x0310 true (cmdIntegrityConfig code))

/-- Remove one page from the sticky lists, and move the pending pages over where they fit (R148). -/
def Sec.clearSticky (k : Sec) (page : Nat) : Sec :=
  let k := { k with sticky := k.sticky.filter (fun p => p != page), stickyPend := k.stickyPend.filter (fun p => p != page) }
  if !k.stickyLost && k.sticky.length + k.stickyPend.length ≤ 1024 then
    { k with sticky := k.sticky ++ k.stickyPend, stickyPend := [], stickyOverflow := false }
  else k

/-- PAGE_CLEAR_STICKY (R148). -/
def cmdPageClearSticky (page : W32) (all : BitVec 8) : CmdFn := fun s =>
  checked [(!s.pageOk page || decide (1 < all.toNat) || (all = 1 && page ≠ 0), .badParam)]
    (fun s =>
      let olds := s.lookups (fun q e => if all = 1 then peSticky e else q == page.toNat)
      let k := if all = 1 then { s.sec with sticky := [], stickyPend := [], stickyOverflow := false, stickyLost := false }
        else s.sec.clearSticky page.toNat
      ({ s with sec := k }).afterLookups olds .ok 0) s

def execPageClearSticky (c : CmdCtx) (page : W32) (all : BitVec 8) (s : State) : Res :=
  .next (s.command c 0x0311 true (cmdPageClearSticky page all))

end Sys2Proof.Machine
end

