-- ==== Sys2Proof/Machine/Scrub.lean ====
section
/-! DEFINITION. Initial fill, scrubber, remap table and the retirement service (R101-R116, R514). -/

namespace Sys2Proof.Machine

/-! Initial fill (R101). -/

/-- The fill of a channel starts: requests wait until it ends, and transfers chosen for them are chosen again after it. INIT on a channel
that is offline, or whose District is not ON, has no effect (log entry 88). -/
def State.startFill (s : State) (ch : Fin 64) : State :=
  if s.chs[ch].tsv.offline || !s.distOn (distOf ch) then s
  else (s.modCh ch (fun c => c.cancelAll s.glb.variant.layers (fun x => !isRef x))).modCtl ch (fun c =>
    { c with fill := true, state := if c.state = .run then .hold else c.state })

/-- INITIAL_FILL_START (R101): ECC_SCRUB_CFG.INIT is set. -/
def execInitialFillStart (p : Path) (m : MasterId) (ch : Fin 64) (s : State) : Res :=
  .next (s.guardWrite p m (offChs ch 0x804) (fun s => s.startFill ch))

/-- Every line of a channel with zero data, state byte 0 and check bytes 0: what an unlisted cell reads. -/
def State.eraseChannel (s : State) (ch : Fin 64) : State :=
  { s with dram := s.dram.filter (fun (c : Host.Cell) => c.1 / 80 / 67108864 != ch.val) }

/-- The remap entries of a channel take the line that the fill's WMs carry (R101, R110). -/
def Ecc.fillAll (e : Ecc) : Ecc := { e with remap := e.remap.map (fun kv => (kv.1, { kv.2 with content := some 0 })) }

/-- INITIAL_FILL_END (R101): every line of the channel and its remap entries have been written, the row cache is invalidated and the write
queue is empty; writes that had gone out before are behind the fill's. -/
def execInitialFillEnd (ch : Fin 64) (s : State) : Res :=
  if s.chs[ch].ctl.fill then
    let s := s.eraseChannel ch
    let s := s.modEcc ch (fun e => { e.fillAll with initDone := true })
    let s := s.modCtl ch (fun c => { c with
      fill := false, rc := [], wq := [], log := [], issued := c.issued.filter (fun x => !isWm x),
      state := if c.state = .hold && !c.recovery && s.chs[ch].tsv.hold.isNone then .run else c.state })
    .next (s.drainWaiting ch)
  else .next s

/-! The scrubber (R102-R106). -/

/-- SCRUB_READ_DUE (R102): ROWS_PER_REV reads fall due once in each revolution while the scrubber is ON and the channel
is in RUN. -/
def execScrubReadDue (ch : Fin 64) (s : State) : Res :=
  let rev := s.strobe / 256
  let e := s.chs[ch].ecc
  if s.scrub.fn.st = .on && s.chs[ch].ctl.state = .run && decide (e.dueRev ≤ rev) then
    .next (s.modEcc ch (fun e => { e with due := e.due + fieldN e.cfg 24 4, dueRev := rev + 1 }))
  else .next s

/-- FIX_THRESHOLD, remap mode and CE_THRESHOLD (R108, R120); the larger threshold of R103. -/
def Ecc.fixAt (e : Ecc) : Nat := fieldN e.cfg 20 4
def Ecc.remapMode (e : Ecc) : Nat := fieldN e.remapCfg 30 2
def Ecc.remapAt (e : Ecc) : Nat := max (fieldN e.remapCfg 27 3) e.fixAt

/-- REMAP_INSERT (R109, R111): the lowest free entry takes the line; with none free REMAP_FULL is logged. -/
def State.remapInsert (s : State) (ch : Fin 64) (key : Nat) (origin : Bool) (content : Option SLine) : State × Bool :=
  let e := s.chs[ch].ecc
  if (e.remapOf (key / 16) (key % 16)).isSome then (s, true)
  else match (List.range 32).find? (fun k => (smGet? e.remap k).isNone) with
    | some k => (s.modEcc ch (fun e => { e with
        remap := smPut e.remap k { row := key / 16, line := key % 16, origin := origin, content := content } }), true)
    | none => ((s.modEcc ch (fun e => { e with remapFull := true })).log (evRemapFull ch.val) (s.addrOf ch.val (key / 16) (key % 16))
        acScrub (s.self agentScrubber), false)

/-- What the scrubber decided for a line (R103). -/
structure ScrubAct where
  /-- The rewrite, and whether it is a poison rewrite. -/
  line : SLine
  poison : Bool
  insert : Bool
  origin : Bool
deriving DecidableEq, Repr

/-- A good copy of a line in the row cache (R105). -/
def Ctl.cachedGood (c : Ctl) (key : Nat) : Option SLine :=
  match c.rcRow? (key / 16) with
  | some r => (match nth r.lines (key % 16) (0, .uncorrectable) with
    | (_, .uncorrectable) => none
    | (l, _) => some l)
  | none => none

/-- The action on a line by outcome and remap mode (R103, R105). -/
def Channel.scrubAct (c : Channel) (key : Nat) (l : SLine) (o : DecodeOut) : Option ScrubAct :=
  let f := c.ecc.fixAt
  let both := c.ecc.remapMode == 2
  match o with
  | .clean => none
  | .corrected t _ =>
    if f = 0 || t < f then none
    else some { line := refresh l, poison := false, insert := both && decide (c.ecc.remapAt ≤ t), origin := true }
  | .uncorrectable =>
    match c.ctl.cachedGood key with
    | some g => some { line := refresh g, poison := false, insert := both && f != 0 && decide (c.ecc.remapAt ≤ 4), origin := false }
    | none => some { line := poisonLine, poison := true, insert := c.ecc.remapMode != 0, origin := false }

/-- Record an UNCORRECTABLE decode of a scrub read (R97, R120). -/
def State.noteScrubUe (s : State) (ch : Fin 64) (key : Nat) (remapped : Bool) : State :=
  s.modEcc ch (fun e => { e with ueCount := satAdd e.ueCount 1, lastUe := posWord key ||| at32 5 1 ||| at32 4 (b2n remapped) })

/-- The rewrite of a scrubbed line, unless a write to the line entered the slice after the RA (R104, R241). A rewrite that is dropped does
not count in ECC_SCRUB_FIXES (log entry 89). -/
def State.scrubRewrite (s : State) (ch : Fin 64) (key : Nat) (x : ScrubAct) (written : Bool) : State × Bool :=
  let r := if written then (s, false) else s.rewrite ch key x.line true
  (r.1.modEcc ch (fun e =>
    if !r.2 then e
    else if x.poison then { e with fixPoisoned := satAdd e.fixPoisoned 1 } else { e with fixFixed := satAdd e.fixFixed 1 }), r.2)

/-- The remap insertion of a scrubbed line, if it is due: with the rewritten line, or, where the rewrite is dropped, with the content that
the newer write's WM brings or has brought (R109). Whether the line is in the table. -/
def State.scrubInsert (s : State) (ch : Fin 64) (key : Nat) (x : ScrubAct) (rewritten : Bool) : State × Bool :=
  if !x.insert then (s, false)
  else
    let c := s.chs[ch].ctl
    let pending := (c.queued? key).isSome || c.lineWaits key || c.waiting.any (fun r => isWrite r.kind && (s.reqKeys r).contains key) ||
      (s.walkers ch).any (fun r => isWrite r.kind && (s.reqKeys r).contains key)
    s.remapInsert ch key x.origin (if rewritten then some x.line else if pending then none
      else some ((c.inFlight? key).getD (s.dramLine ch.val key)))

/-- What the scrubber logs of an UNCORRECTABLE line that it acts on (R105, R106, R113): ECC_UE, and a targeted scrub, where a cached copy
was good; else SCRUB_UE, unless a request's ECC_UE has reported the line (`asked`, log entry 90). -/
def State.scrubReport (s : State) (ch : Fin 64) (key : Nat) (x : ScrubAct) (asked : Bool) : State :=
  let a := s.addrOf ch.val (key / 16) (key % 16)
  let page := a / 131072
  let who := s.self agentScrubber
  if !x.poison then
    ((s.modEcc ch (fun e => e.target key)).log (evEccUe ch.val) a acScrub who CStatus.uncorrectable.code).retireReason page 1
  else if asked then s
  else (s.log (evScrubUe ch.val) a acScrub who CStatus.uncorrectable.code).retireReason page 1

/-- Handle one line of a scrubbed row (R103-R106, R109): `written` where a write to it has entered the slice since the RA. A line that the
write queue held before the RA is left to its queued line. -/
def State.scrubLine (s : State) (ch : Fin 64) (key : Nat) (d : (SLine × DecodeOut) × Bool) (written asked : Bool) : State :=
  if d.2 then s
  else
    let c := s.chs[ch].ctl
    let queued := !written && ((c.queued? key).isSome || (c.waitingLine? key).isSome)
    let s := match d.1.2 with
      | .corrected t e => s.noteCorrected ch key t e (s.self agentScrubber) acScrub
      | _ => s
    let ue := d.1.2 = .uncorrectable
    match if queued then none else (s.chs[ch]).scrubAct key d.1.1 d.1.2 with
    | none => if ue then s.noteScrubUe ch key false else s
    | some x =>
      let r := s.scrubRewrite ch key x written
      let ins := r.1.scrubInsert ch key x r.2
      let s := if ue then ins.1.noteScrubUe ch key ins.2 else ins.1
      let s := if x.insert && ins.2 && x.origin then s.retireReason (s.addrOf ch.val (key / 16) 0 / 131072) 3 else s
      if ue then s.scrubReport ch key x asked else s

/-- A row of a scrub read crosses and its 16 lines are handled; an undriven strobe is discarded, starts command-word recovery, and the row
is read again (R86, R87, R103). -/
def State.scrubArrives (s : State) (ch : Fin 64) (x : SlotCmd) (row : Nat) (wrong : BitVec 10240) (parity : BitVec 20) (mid : BitVec 14) :
    State :=
  let layer := (rowOfKey row).layer
  let s := s.crossed ch x
  if s.undriven ch layer mid then (s.modEcc ch (fun e => e.readAgain row)).startRecovery ch
  else
    let ra := (s.chs[ch].ecc.reads.find? (fun r => r.row = row)).getD { row := row, targeted := false }
    let asked := ra.asked.toList ++ s.chs[ch].ecc.targeted
    let s := s.modEcc ch (fun e => { e with reads := e.reads.filter (fun r => r.row ≠ row) })
    let c := s.crossRead ch layer wrong parity
    if c.1.chs[ch].tsv.offline then c.1
    else
      let s := (List.range 16).foldl (fun (s : State) i =>
        let key := row * 16 + i
        s.scrubLine ch key (s.decodeAt ch key (c.2.extractLsb' (640 * i) 640) (if i = 0 then x.inj else 0)) (ra.written.contains i)
          (asked.contains key)) c.1
      { s with free := s.free + x.inj }

/-- SCRUB_ROW_RESULT (R103): the row of the scrub RA whose data strobe is the present one arrives. -/
def execScrubRowResult (ch : Fin 64) (wrong : BitVec 10240) (parity : BitVec 20) (mid : BitVec 14) (s : State) : Res :=
  match (s.chs[ch].ctl).crossing s.strobe isScrubRa with
  | none => .next s
  | some x => match x.cmd with
    | .ra row _ => .next (s.scrubArrives ch x row wrong parity mid)
    | _ => .next s

/-! The retirement service (R113-R116, R514). -/

/-- A record of R116. -/
def retireRecord (migrated noReserve : Bool) (reason new old : Nat) : W64 :=
  at64 63 1 ||| at64 62 (b2n migrated) ||| at64 61 (b2n noReserve) ||| at64 56 reason ||| at64 21 new ||| at64 0 old

/-- Post a record, and remember the page and reason as acted on. -/
def Retire.post (r : Retire) (w : W64) (page reason : Nat) : Retire :=
  { r with records := r.records ++ [w], acted := (page, reason) :: r.acted }

/-- The oldest free reserve page whose channel is in RUN and not in erasure mode (R115 step 2). -/
def State.freeReserve (s : State) : Option Nat :=
  s.retire.reserve.find? (fun p =>
    let c := s.chs[(s.decodeAddr (p * 131072)).ch]
    decide (c.ctl.state = .run) && c.tsv.erasedCount == 0)

/-- The descriptor of the COPY of one page (R115 step 3, R166, R185). -/
def migrateDesc (e src : Nat) (dst : Nat) : BitVec 1024 :=
  let put := fun (i : Nat) (v : Nat) => BitVec.ofNat 1024 v <<< (8 * i)
  put 0 opCopy ||| put 8 (2 ^ e) ||| put 16 src ||| put 20 1 ||| put 88 dst

/-- Steps 1 and 2 of R115: RO at the source; the reserve page takes the source's entry except VALID and RO. -/
def State.beginMigration (s : State) (page reason dst : Nat) : State :=
  let old := s.patRaw page
  let s := s.setEntry page (old ||| 0x08000000#32)
  let s := s.setEntry dst (old &&& 0x77FFFFFF#32)
  { s with retire := { s.retire with
      reserve := s.retire.reserve.filter (fun p => p ≠ dst), migrating := some (page, dst, reason, peRo old) } }

/-- RETIREMENT_REASON (R113, R114, R116): the service acts on its oldest pending reason, one page at a time. A migration
waits until the engine of the page's channel is ON. -/
def execRetirementReason (s : State) : Res :=
  match s.retire.reasons with
  | [] => .next s
  | (page, reason) :: rest =>
    if s.boot.phase ≠ .ready || !s.dieUp || s.retire.migrating.isSome || decide (1024 ≤ s.retire.records.length) then .next s
    else
      let e := s.patRaw page
      let ch := (s.decodeAddr (page * 131072)).ch
      let done : State := { s with retire := { s.retire with reasons := rest, acted := (page, reason) :: s.retire.acted } }
      let post := fun (nr : Bool) => { s with retire :=
        { s.retire with reasons := rest }.post (retireRecord false nr reason 0 page) page reason }
      if s.retire.action = 0 || peRetired e || s.retire.acted.contains (page, reason) then .next done
      else if !peValid e then
        .next (if s.retire.action = 2 && s.retire.reserve.contains page then (post false).setRetired page else post false)
      else if s.retire.action = 1 || s.chs[ch].tsv.offline then .next (post false)
      else match s.freeReserve with
        | none => .next (post true)
        | some dst =>
          if s.engs.eng[ch].fn.st = .on then
            .next (({ s with retire := { s.retire with reasons := rest } }).beginMigration page reason dst)
          else .next s

/-- The COPY of the migration, once dispatched (R115 step 3). -/
def State.migrateJob (s : State) : Option Job := s.engs.jobs.find? (fun j => j.queue.isNone)

/-- Undo a migration (R115): the source's RO, and the reserve page's entry but for RETIRED, which the stack never clears (R113); the
reserve page returns to the reserve, or is retired where a destination write was refused. -/
def State.undoMigration (s : State) (page dst : Nat) (ro refused : Bool) : State :=
  let s := if ro then s else s.setEntry page (s.patRaw page &&& 0xF7FFFFFF#32)
  let gone := peRetired (s.patRaw dst)
  let s := s.setEntry dst (s.patRaw dst &&& 0x04000000#32)
  let s := { s with retire := { s.retire with migrating := none } }
  if refused then s.setRetired dst
  else if gone then s else { s with retire := { s.retire with reserve := dst :: s.retire.reserve } }

/-- Steps 4-6 of R115. -/
def State.endMigration (s : State) (page dst reason : Nat) (ro : Bool) : State :=
  let s := s.setEntry dst (s.patRaw dst ||| 0x80000000#32 ||| (if ro then 0x08000000#32 else 0))
  let s := s.setRetired page
  let s := { s with retire := { s.retire with migrating := none }.post (retireRecord true false reason dst page) page reason }
  s.log evPageMigrated (page * 131072) acEngineRead (s.self agentCC0)

/-- PAGE_MIGRATE (R115): the COPY starts once no request holds the page's old entry (R25) and the engine has room for it (R156); when it has ended, the service
retires the source or undoes the migration. -/
def execPageMigrate (page : Nat) (s : State) : Res :=
  match s.retire.migrating with
  | none => .next s
  | some (src, dst, reason, ro) =>
    if src ≠ page || s.boot.phase ≠ .ready || !s.dieUp then .next s
    else
      let ch := (s.decodeAddr (src * 131072)).ch
      match s.migrateJob with
      | none =>
        if (s.lookups (fun q _ => q == src || q == dst)).isEmpty && s.engRoom (BitVec.twoPow 64 ch.val) then
          .next (s.dispatch none 0 (migrateDesc ch.val src (s.fab.nodeId.toNat * 1099511627776 + dst * 131072)) 0
            (BitVec.twoPow 64 ch.val) 15 (some (s.self agentCC0)))
        else .next s
      | some j =>
        if !j.ended then .next s
        else
          let s := s.dropJob j.id
          if j.parts.any (fun p => p.failed) then
            let s := s.undoMigration src dst ro (j.parts.any (fun p => p.refused))
            .next { s with retire := s.retire.post (retireRecord false false reason 0 src) src reason }
          else .next (s.endMigration src dst reason ro)

/-- RETIREMENT_RESTART (R514): restarted firmware takes the service's state up again and undoes a migration that a warm
reset cut short; its reason acts again. -/
def execRetirementRestart (s : State) : Res :=
  match s.retire.migrating, s.migrateJob with
  | some (src, dst, reason, ro), none =>
    if s.boot.phase ≠ .starting then .next s
    else
      let s := s.undoMigration src dst ro false
      .next { s with retire := { s.retire with reasons := (src, reason) :: s.retire.reasons } }
  | _, _ => .next s

end Sys2Proof.Machine
end

