-- ==== Sys2Proof/Machine/Boot.lean ====
section
/-! DEFINITION. Supplies, clocks, resets, straps, the boot ROM, the boot window, firmware load and firmware start-up
(15_bring_up, R377-R407; detach of this node, R304). -/

namespace Sys2Proof.Machine

/-! Cold reset (R380, R384, R386, R388). -/

/-- The machine as a cold reset leaves it: fuses, input pins, supplies and the host's link-disable control persist. A
trip and a lost reference clock hold it in reset (R383, R456). -/
def State.coldState (s : State) (cause uvRail : Nat) : State :=
  { pending := s.pending, outbox := s.outbox, wires := s.wires, free := s.free, strobe := s.strobe, slot := s.slot,
    glb := { variant := s.glb.variant },
    thm := { cap := s.glb.variant.maxCap, capNow := s.glb.variant.maxCap },
    hosts := s.hosts.map (fun h => { perst := h.perst, linkDisabled := h.linkDisabled }),
    fuse := { blown := s.fuse.blown },
    boot := {
      phase := .held, rails := s.boot.rails, ref0 := s.boot.ref0, ref1 := s.boot.ref1,
      devRstHigh := s.boot.devRstHigh, warmRstHigh := s.boot.warmRstHigh, cause := cause, uvRail := uvRail,
      tripHold := s.boot.tripHold, refHold := s.boot.refHold } }

/-- The stack leaves reset once nothing holds it there (R380, R383, R385, R456). -/
def State.leaveReset (s : State) : State :=
  let b := s.boot
  if b.phase = .held && b.devRstHigh && b.warmRstHigh && decide (b.rails = 0x7F#7) && !b.refHold && !b.tripHold then
    { s with boot := { b with phase := .released, leftReset := s.now } }
  else s

/-- DEV_RST_ASSERT (R384, R385): the falling edge starts a cold reset. -/
def execDevRstAssert (s : State) : Res :=
  if !s.boot.devRstHigh then .next s
  else .next (({ s with boot := { s.boot with devRstHigh := false } }).coldState 1 0)

/-- DEV_RST_DEASSERT (R385, R391). -/
def execDevRstDeassert (s : State) : Res := .next ({ s with boot := { s.boot with devRstHigh := true } }).leaveReset

/-- CAUSE and UV_RAIL of an undervoltage (R407): one of VDD_CORE reads as power-up. -/
def uvCause (rail : Nat) : Nat × Nat :=
  if rail = 3 then (0, 0) else (2, if rail < 3 then rail else rail - 1)

/-- RAIL_UNDERVOLTAGE (R380). -/
def execRailUndervoltage (rail : Fin 7) (s : State) : Res :=
  let c := uvCause rail.val
  .next (({ s with boot := { s.boot with rails := setBit s.boot.rails rail.val false } }).coldState c.1 c.2)

/-- RAILS_GOOD (R380). -/
def execRailsGood (s : State) : Res := .next ({ s with boot := { s.boot with rails := 0x7F#7 } }).leaveReset

/-! Causes of a warm reset (R383, R384, R388). -/

/-- WARM_RST_ASSERT. -/
def execWarmRstAssert (s : State) : Res :=
  if !s.boot.warmRstHigh then .next s
  else .next (({ s with boot := { s.boot with warmRstHigh := false } }).askWarm 4)

/-- WARM_RST_DEASSERT (R385, R387): the stack leaves reset only once the input is high. -/
def execWarmRstDeassert (s : State) : Res := .next ({ s with boot := { s.boot with warmRstHigh := true } }).leaveReset

/-- REFCLK_LOSS (R383): `input` names the reference clock lost. -/
def execRefclkLoss (input : Bool) (s : State) : Res :=
  let s := { s with boot := { s.boot with ref0 := s.boot.ref0 && input, ref1 := s.boot.ref1 && !input, refHold := true } }
  let s := s.log evRefclkLoss (detail 0 (b2n (!s.boot.ref0) + 2 * b2n (!s.boot.ref1)))
  .next (s.askWarm 6)

/-- REFCLK_RESTORED (R383): both inputs have been within specification for 1 ms. -/
def execRefclkRestored (s : State) : Res :=
  .next ({ s with boot := { s.boot with ref0 := true, ref1 := true, refHold := false } }).leaveReset

/-! The warm-reset sequence (R387). -/

/-- Requests that a port holds before its Kerb forwards them complete with CHANNEL_OFFLINE (R227); those that wait at
the port count as issued, so that each receives its one completion. -/
def State.failKerb (s : State) (j : Fin 140) : State :=
  let held := (s.kerbs[j]).cls.toList.flatMap (fun c => c.queue.map (fun q => q.req)) ++
    ((s.mports[j]).outst.filter (fun o => !o.entered)).map (fun o => o.req)
  let waits := (s.mports[j]).waiting
  let s := s.modKerb j (fun k => { k with cls := k.cls.map (fun c => { c with queue := [] }) })
  let s := s.modMport j (fun p => { p with
    waiting := [], outst := p.outst.map (fun o => { o with entered := true }) ++
      waits.map (fun r => { req := r, table := r.node != s.fab.nodeId, entered := true }) })
  (held ++ waits).foldl (fun s r => s.complete { req := r, status := .channelOffline }) s

/-- A hold ends at once when a warm reset arrives (R58): the layers of a full retrain leave self-refresh for the drain (R90), and a
recovery that waits for the retrain ends. -/
def State.cutHold (s : State) (ch : Fin 64) : State :=
  let c := s.chs[ch]
  let n := s.glb.variant.layers
  let full : Bool := match c.tsv.hold with | some h => decide (h.kind = .full) | none => false
  let s := s.modTsv ch (fun t => { t with hold := none, retrainDue := none })
  let s := if c.tsv.hold.isNone then s else s.modCtl ch (fun c =>
    { (if full then c.allLayers n RowCmd.srx else c) with
      state := if c.state = .hold && !c.fill && !c.recovery then .run else c.state,
      rowFrom := if full then s.strobe + 64 else c.rowFrom })
  if c.ctl.recovery && c.ctl.recChecked then s.endRecovery ch else s

/-- Step 1 of R387: detach, host ports and engines stop, holds end, held requests of local masters complete. -/
def State.warmBegin (s : State) : State :=
  let s := ({ s with fab := { s.fab with detaching := true } }).sendDetach (fun _ => true)
  let s := (fins 8).foldl State.hostStop s
  let s := (fins 64).foldl State.cutHold s
  let s := ({ s with cmd := { s.cmd with stopped := true } }).stopEngines
  ((fins 140).filter (fun j => decide (j.val < 8) || decide (72 ≤ j.val))).foldl State.failKerb s

/-- WARM_RESET_BEGIN (R387 step 1): a warm reset that has been asked for begins. A stopped device, and a stack whose DIE
is in reset, have nothing to drain (R388, R430). -/
def execWarmResetBegin (s : State) : Res :=
  match s.boot.warmReq, s.boot.phase with
  | none, _ => .next s
  | some _, .warm _ => .next s
  | some _, _ =>
    if s.flt.stopped || s.dieInReset then .next { s with boot := { s.boot with phase := .warm 2 } }
    else
      let s := s.warmBegin
      .next { s with boot := { s.boot with phase := .warm 1 } }

/-- A link port holds nothing: no request in its Kerb, none outstanding, no completion on its way. -/
def State.linkPortEmpty (s : State) (p : Fin 64) : Bool :=
  let j := portLink p
  (s.kerbs[j]).cls.toList.all (fun c => c.queue.isEmpty) && (s.mports[j]).outst.isEmpty && (s.mports[j]).inflight.isEmpty &&
  (s.ports[p]).subs.toList.all (fun u => u.rx.isEmpty && u.tx.isEmpty)
/-- The transit table is empty and the ports hold nothing (R304 step 5). -/
def State.throughEmpty (s : State) : Bool := s.fab.transit.isEmpty && (fins 64).all s.linkPortEmpty

/-- What every channel that will drain holds is settled before the counter lines are flushed: a write that enters the write queue may still
change its counter (R89, R142). -/
def State.settleAll (s : State) : State :=
  (fins 64).foldl (fun s ch =>
    match s.chs[ch].ctl.state with
    | .run | .hold => if s.chs[ch].tsv.offline then s else s.settleHeld ch
    | _ => s) s

/-- What the REQ plane holds reaches its slice or the dispatcher before the drain (R89). -/
def State.settlePlane (s : State) : State :=
  s.reqPlane.foldl (fun s c =>
    let s := s.countFwd (c.spot.toList ++ c.todo)
    if isDispatch c.load.req.kind then s.takeDispatch c.load.req else s.admitted c.load.req)
    { s with reqPlane := [], credits := { s.credits with req := hopEntries 512 1024 } }

/-- Steps 2 to 5 of R387: QUIET markers; job completions and command replies; counter write-backs; drain of every
channel. Requests already forwarded reach their slices first. -/
def State.warmDrained (s : State) : State :=
  let s := s.settlePlane
  let s := (s.quietLinks (fun _ => true)).abortJobs.endCommands
  let s := s.settleAll.flushCtrs (fun _ _ => true)
  let s := (fins 64).foldl State.startDrain s
  { s with boot := { s.boot with phase := .warm 2 } }

/-- THROUGH_TRAFFIC_DRAINED (R387 steps 2-5). -/
def execThroughTrafficDrained (s : State) : Res :=
  if s.boot.phase = .warm 1 && s.throughEmpty then .next s.warmDrained else .next s

/-- A channel after a warm reset: in self-refresh where it was (R404). -/
def Channel.warm (c : Channel) (n : Nat) : Channel :=
  let r := c.powerOff n
  { r with adm := {}, ctl := { r.ctl with state := if c.tsv.offline || c.ctl.state = .off then .off else .selfRefresh } }

/-- The collector across a warm reset: broken wires are whole again, and a device stop ends, from which moment FAULT_N's 10 µs
run (R433, R443, R448). -/
def Flt.warm (f : Flt) (now : Nat) : Flt :=
  { f with
    stopped := false, wireFault := false, faultSince := if f.stopped then now else f.faultSince,
    srcs := f.srcs.map (fun kv => (kv.1, { kv.2 with broken := false })) }

/-- The machine as a warm reset leaves it (R18, R365, R386, R407, R468). -/
def State.warmState (s : State) (cause : Nat) : State :=
  { pending := s.pending, outbox := s.outbox, free := s.free, strobe := s.strobe, slot := s.slot,
    glb := { variant := s.glb.variant, mapLock := s.glb.mapLock, mapOrder := s.glb.mapOrder,
             nodeEpoch := s.glb.nodeEpoch, grants := s.glb.grants },
    dist := s.dist.map (fun d => { gen := d.gen }),
    chs := Vector.ofFn (fun i : Fin 64 => (s.chs[i]).warm i.val),
    sec := { s.sec with cache := [], dirty := [], walks := [], ahead := [], ctrCfg := 0x400#13, ctrMisses := 0,
                        agreeReady := false, agreePub := Vector.replicate 24 0 },
    retire := s.retire,
    tap := s.tap, wires := s.wires,
    scrub := { gen := s.scrub.gen },
    flt := s.flt.warm s.now,
    thm := { s.thm with sensors := s.thm.sensors.map (fun x => { x with failed := false, disagree := 0 }) },
    hosts := s.hosts.map (fun h => { perst := h.perst, linkDisabled := h.linkDisabled }),
    ports := s.ports.map (fun p => { gen := p.gen, subs := p.subs.map (fun u => { epoch := u.epoch }) }),
    fab := { cur := s.fab.cur, prev := s.fab.prev, kg := s.fab.kg, gen := s.fab.gen, nonce := s.fab.nonce,
             heldIds := s.fab.heldIds },
    cmd := { segs := s.cmd.segs, isets := s.cmd.isets },
    mbx := { ch := s.mbx.ch.map (fun x => { bindA := x.bindA, bindB := x.bindB }), lock := s.mbx.lock },
    boot := {
      phase := .held, rails := s.boot.rails, ref0 := s.boot.ref0, ref1 := s.boot.ref1,
      devRstHigh := s.boot.devRstHigh, warmRstHigh := s.boot.warmRstHigh, cause := cause,
      warmCount := satAdd s.boot.warmCount 1, fillNeeded := !s.glb.mapLock, cold := s.boot.cold && !s.glb.mapLock,
      tripHold := s.boot.tripHold, refHold := s.boot.refHold, i3cDyn := s.boot.i3cDyn },
    fuse := { blown := s.fuse.blown },
    engs := { eng := s.engs.eng.map (fun e => { gen := e.gen }) },
    dram := s.dram }

/-- WARM_DRAIN_END (R387 steps 6-7): every channel is parked and the host ports owe nothing; DIE and the Districts reset.
Dirty counter lines that could not be written back, or that a device stop leaves behind, are lost, each reported by TREE_FAIL (R142,
R430). -/
def execWarmDrainEnd (s : State) : Res :=
  let ready := s.flt.stopped ||
    (s.chs.toList.all Channel.parked && s.hosts.toList.all (fun h => h.pend.isEmpty))
  if s.boot.phase = .warm 2 && ready then
    let s := s.sec.dirty.foldl (fun s k => s.log evTreeFail (k * 64) acWriteBack (s.self agentWalker)) s
    .next (s.warmState (s.boot.warmReq.getD 4)).leaveReset
  else .next s

/-! Detach of this node (R304). -/

/-- Step 5 and the ACTION of a detach. -/
def State.finishDetach (s : State) : State :=
  let s := s.quietLinks (fun _ => true)
  match s.fab.detachAction with
  | 0 =>
    let s := (fins 64).foldl (fun s p =>
      if scezoMode s.ports[p].mode then (s.darkPort p).modPort p (fun x => { x with want := false, fn := { st := .off } }) else s) s
    { s with fab := { s.fab with detaching := false, nodeId := 0xFFF#12, route := [], parent := none } }
  | 1 => s.askWarm 5
  | _ => (s.coldState 3 0).leaveReset

/-- A detach of this node drains. -/
def State.detachDrains (s : State) : Bool :=
  s.fab.detaching && s.boot.warmReq.isNone && (match s.boot.phase with | .warm _ => false | _ => true)

/-- DETACH_DRAIN_END (R304 steps 4-5). -/
def execDetachDrainEnd (s : State) : Res :=
  if s.detachDrains && s.throughEmpty then .next s.finishDetach else .next s

/-- DRAIN_TIME_LIMIT (R304, R383, R387): the drain's limit runs out. -/
def execDrainTimeLimit (s : State) : Res :=
  if s.boot.phase = .warm 1 then .next s.warmDrained
  else if s.detachDrains then .next s.finishDetach
  else .next s

/-! Straps, self-test and the boot ROM (R389-R393, R117). -/

/-- STRAP_SAMPLE (R389): the majority of three samples, each laid out as GLB.STRAPS. -/
def execStrapSample (s1 s2 s3 : BitVec 6) (s : State) : Res :=
  if s.boot.phase = .released then
    .next { s with boot := { s.boot with straps := (s1 &&& s2) ||| (s1 &&& s3) ||| (s2 &&& s3), phase := .strapped } }
  else .next s

/-- CHECKER_SELFTEST (R117-R119): every slice is tested; one that the results do not name passes. -/
def execCheckerSelftest (results : List ChanTest) (s : State) : Res :=
  if s.boot.phase = .sensed then
    let s := (fins 64).foldl (fun s n => s.selfTest n (((results.find? (fun r => r.ch = n)).map (fun r => r.test)).getD {})) s
    .next { s with boot := { s.boot with phase := .tested } }
  else .next s

/-- BOOT_SRC (R389). -/
def State.bootSrc (s : State) : Nat := fieldN s.boot.straps 3 2
/-- Word 897 (R425): its valid bit, and a bit that is in force. -/
def State.bootDefault (s : State) (i : Nat) : Bool := bit (s.shadowWord 897) 31 && bit (s.shadowWord 897) i
/-- The paths that are open (R390, R425). -/
def State.cxlOpen (s : State) : Bool := (s.bootSrc == 0 || s.bootSrc == 2) && !s.bootDefault 30
def State.scezoOpen (s : State) : Bool := (s.bootSrc == 1 || s.bootSrc == 2) && !s.bootDefault 29
/-- The I3C path (R390, R426): I3C_FW_DISABLE takes effect as soon as it is programmed. -/
def State.i3cOpen (s : State) : Bool := s.boot.i3cPath && !s.fusePolicy 1

/-- A region counts as marginal for R392 (R411): a marginal word, or a check word that does not verify. -/
def State.regionDoubt (s : State) (r : Nat) : Bool := s.regionMarginal r || bit s.fuse.crcBad r
/-- The boot ROM enters FUSE_ALARM (R392). -/
def State.bootHalts (s : State) (usable : BitVec 4) : Bool :=
  (s.regionDoubt 3 && usable == 0) ||
  (s.fusePolicy 2 && [0, 2, 4, 5, 6, 7].any s.regionDoubt)

/-- PORT_DEFAULT[p] (R425, R426): mode and rate of a VALID byte that R256 would allow the port. -/
def State.portDefault (s : State) (p : Fin 64) : Option (Nat × Nat) :=
  let b := byteOf (s.shadowWord (898 + p.val / 4)) (p.val % 4)
  let mode := fieldN b 0 3
  let rate := fieldN b 4 3
  if bit b 7 && mode != 0 && mode != 7 && modeAllowed p.val mode && rateAllowed mode rate then some (mode, rate) else none
/-- No PORT_DEFAULT byte is VALID (R426). -/
def State.noPortDefault (s : State) : Bool :=
  (List.range 64).all (fun p => !bit (byteOf (s.shadowWord (898 + p / 4)) (p % 4)) 7)

/-- The boot ROM's choice for a port (R269, R426). -/
def State.bootPort (s : State) (p : Fin 64) : Option (Nat × Nat) :=
  if s.noPortDefault then
    if s.cxlOpen && p.val == 0 then some (4, 4)
    else if s.cxlOpen && p.val == 1 then none
    else if s.scezoOpen then some (1, 5) else none
  else match s.portDefault p with
    | some (m, r) => if (cxlMode m && p.val == 0 && s.cxlOpen) || (scezoMode m && s.scezoOpen) then some (m, r) else none
    | none => none

/-- A configuration conflicts with the port's pair (R256). -/
def State.pairTaken (s : State) (p : Fin 64) (mode : Nat) : Bool :=
  (mode == 4 && decide (s.ports[pairOf p].fn.st ≠ .off)) || decide (s.ports[p].fn.st ≠ .off)

/-- A port that the boot ROM brings up is ON (R404). -/
def Port.bootOn (mode cfg rate : Nat) (x : Port) : Port :=
  { x with fn := { st := .on }, mode := mode, cfgMode := cfg, maxRate := rate, want := true, degradeEn := true, reversalEn := true, gen := x.gen + 1 }

/-- The boot ROM configures a port (R269, R404). -/
def State.bootPortOn (s : State) (p : Fin 64) : State :=
  match s.bootPort p with
  | some (m, r) =>
    if s.pairTaken p m then s
    else
      let s := s.modPort p (Port.bootOn m m r)
      let s := if m = 4 then s.modPort (pairOf p) (Port.bootOn 5 0 5) else s
      s.liftKerb p
  | none => s

/-- BOOT_ROM_READY (R391 step 5, R392, R404, R424): the boot ROM decides on the fuses, opens the paths, configures the
ports and starts the Districts' switches. -/
def execBootRomReady (s : State) : Res :=
  if s.boot.phase ≠ .tested || s.flt.stopped then .next s
  else
    let usable : BitVec 4 := (List.range 4).foldl (fun (v : BitVec 4) i => setBit v i (s.digestUsable i)) 0
    let s := { s with
      boot := { s.boot with
        usable := usable, cxlPath := s.cxlOpen, scezoPath := s.scezoOpen, i3cPath := true, fullTest := s.regionDoubt 1,
        phase := if s.bootHalts usable then .fuseAlarm else .boot },
      dist := s.dist.map (fun d => { d with fn := { st := .starting } }) }
    .next ((fins 64).foldl State.bootPortOn s)

/-! The boot window (R394, R395). -/

/-- A path into the boot window is open (R390, R395). -/
def State.pathOpen (s : State) (p : Path) : Bool :=
  match p with
  | .host _ => s.boot.cxlPath
  | .i3c => s.i3cOpen
  | .scezo _ _ => s.boot.scezoPath
  | .core _ => false

/-- I3C serves (R396). -/
def State.i3cServes (s : State) : Bool := s.sidebandUp && s.boot.devRstHigh && s.fuse.sensed
/-- An I3C write is ignored (R394, R397). -/
def State.i3cRefuse (s : State) : State := { s with boot := { s.boot with i3cRefused := true } }

/-- The window takes a write of path p at an offset (R300, R394). -/
def State.windowTakes (s : State) (p : Path) (m : MasterId) (off : Nat) : Bool :=
  s.inBoot && s.pathOpen p && s.winTakes off &&
  (match p with
   | .scezo _ _ => isCoreAgent m && decide (MasterId.node m = 0#12)
   | .host h => h == 0
   | .core _ | .i3c => true)

/-- BOOT_WINDOW_WRITE (R394): taken, or refused as the path's kind of write is. -/
def execBootWindowWrite (p : Path) (m : MasterId) (offset : BitVec 22) (data : List Byte) (s : State) : Res :=
  if s.windowTakes p m offset.toNat then .next (s.winStore offset.toNat data)
  else match p with
    | .host h =>
      if !s.hostAccepts h then .next s
      else .next (s.refusedWrite h 0 acLineWrite .notPermitted (h != 0 || !s.boot.cxlPath || !s.inBoot) offset.toNat
        (s.fab.nodeId.toNat * 2 ^ 40 + offset.toNat))
    | .i3c => if s.i3cServes then .next s.i3cRefuse else .next s
    | .scezo _ _ | .core _ => .next s

/-- WIN_WRITE (R397). -/
def execWinWrite (offset : BitVec 32) (data : List Byte) (scl : Nat) (s : State) : Res :=
  let o := offset.toNat
  if !s.i3cServes then .next s
  else if decide (o < 4194304) && !data.isEmpty && decide (data.length ≤ 256) && s.windowTakes .i3c (s.self agentFuse) o then
    .next ((s.winStore o data).i3cStop scl)
  else .next (s.i3cRefuse.i3cStop scl)

/-- A byte whose value the spec does not state (log entry 3). -/
def State.freeByte (s : State) : Byte := (Config.freeValue s.free).setWidth 8

/-- WIN_READ (R394, R397): an open path returns the window; beyond its end, through a closed path, or in FUSE_ALARM, where the window is
closed (R393), no value is stated. -/
def execWinRead (offset : BitVec 32) (count : Nat) (scl : Nat) (s : State) : Res :=
  let o := offset.toNat
  if !s.i3cServes then .next s
  else if 4194304 ≤ o then .next (s.i3cRefuse.i3cStop scl)
  else
    let bs := (List.range count).map (fun i =>
      if s.i3cOpen && decide (s.boot.phase ≠ .fuseAlarm) && decide (o + i < 4194304) then smGetD s.boot.window (o + i) 0 else s.freeByte)
    .next ((s.bump.emit (.i3c bs)).i3cStop scl)

/-- I3C_ADDRESS_ASSIGN (R396). -/
def execI3cAddressAssign (addr : BitVec 7) (scl : Nat) (s : State) : Res :=
  if s.i3cServes then .next (({ s with boot := { s.boot with i3cDyn := some addr } } : State).i3cStop scl) else .next s

/-- I3C_REFUSED (R397): an unknown operation byte, or an offset outside its operation's range. -/
def execI3cRefused (_op : Byte) (scl : Nat) (s : State) : Res := if s.i3cServes then .next (s.i3cRefuse.i3cStop scl) else .next s

/-! The firmware commands (R347, R393, R395, R399, R400). -/

/-- The refusals common to the firmware commands (R347, R393). -/
def State.fwRefusals (s : State) : List (Bool × CmdStatus) :=
  [(decide (s.boot.phase = .fuseAlarm) || s.fwRunning, .notPermitted), (decide (s.boot.phase = .verifying), .busy)]

/-- FW_BEGIN: the window is zeroed and a new load starts. -/
def cmdFwBegin (size : W32) : CmdFn := fun s =>
  checked (s.fwRefusals ++ [(size = 0 || decide (4194304 < size.toNat), .badParam)])
    (fun s => ({ s with boot := { s.boot with window := [], size := size.toNat, loading := true, begun := true } }).okay) s

def execFwBegin (c : CmdCtx) (size : W32) (s : State) : Res := .next (s.command c 0x0101 true (cmdFwBegin size))

/-- The path that carried a packet (R395). -/
def CmdCtx.path (c : CmdCtx) : Path :=
  match c.src with
  | .ring _ => .host 0
  | .direct p _ => p
  | .remote _ p u _ => .scezo p u

/-- FW_CHUNK. -/
def cmdFwChunk (c : CmdCtx) (offset : W32) (len : BitVec 8) (data : BitVec 384) : CmdFn := fun s =>
  checked (s.fwRefusals ++ [
    (!s.boot.begun || !s.boot.loading || !s.pathOpen (CmdCtx.path c), .notPermitted),
    (len = 0 || decide (48 < len.toNat) || decide (s.boot.size < offset.toNat + len.toNat), .badParam)])
    (fun s => (s.winStore offset.toNat (toBytes data len.toNat)).okay) s

def execFwChunk (c : CmdCtx) (offset : W32) (len : BitVec 8) (data : BitVec 384) (s : State) : Res :=
  .next (s.command c 0x0102 true (cmdFwChunk c offset len data))

/-- FW_COMMIT: the window closes to writes, and verification begins. -/
def cmdFwCommit : CmdFn := fun s =>
  checked (s.fwRefusals ++ [(!s.boot.begun, .notPermitted)])
    (fun s => ({ s with boot := { s.boot with loading := false, phase := .verifying } }, .wait .verify)) s

def execFwCommit (c : CmdCtx) (s : State) : Res := .next (s.command c 0x0103 true cmdFwCommit)

/-- Bytes of the staged image. -/
def State.image (s : State) (off len : Nat) : List Byte := s.winRead off len
/-- A little-endian number of the image. -/
def State.imageNum (s : State) (off len : Nat) : Nat := (ofBytes (8 * len) (s.image off len)).toNat
/-- Reserved header bytes are 0 (R398). -/
def State.imageReserved (s : State) : Bool :=
  [(24, 104), (225, 31), (352, 160)].all (fun r => (s.image r.1 r.2).all (fun b => b == 0))

/-- The checks of R399 in order: the first that fails decides. -/
def State.verify (s : State) : CmdStatus :=
  let n := s.imageNum 8 4
  let vs := s.imageNum 6 1
  let key := s.image 128 97
  let q := (beNat (s.image 129 48), beNat (s.image 177 48))
  let sig := (beNat (s.image 256 48), beNat (s.image 304 48))
  (firstFail [
    (s.image 0 4 != [0x4B#8, 0x56#8, 0x46#8, 0x57#8] || s.imageNum 4 2 != 1 || !s.imageReserved || decide (4 ≤ vs) ||
      n != s.boot.size || decide (n < 1024) || decide (4194304 < n) || n % 64 != 0, .badParam),
    (!(match s.glb.variant with | .kv9216 => vs % 2 == 1 | .kv9208 => vs / 2 % 2 == 1) || decide (1 < s.imageNum 7 1), .badParam),
    (s.boot.usable == 0, .notPermitted),
    (!((List.range 4).any (fun i => bit s.boot.usable i && sha384 key == s.digestBytes i)) || s.imageNum 128 1 != 4 || !ecOn q,
      .integrityFail),
    (!ecdsaVerify q (sha384 (s.image 0 256 ++ s.image 512 (n - 512))) sig.1 sig.2, .integrityFail)]).getD .ok

/-- The waiting FW_COMMIT replies. -/
def State.replyCommit (s : State) (st : CmdStatus) : State :=
  match s.cmd.waits.find? (fun w => w.kind == .verify) with
  | some w => s.finish w st 0
  | none => s

/-- FW_VERIFY_END (R399, R400). -/
def execFwVerifyEnd (s : State) : Res :=
  if s.boot.phase ≠ .verifying || s.flt.stopped then .next s
  else
    match s.verify with
    | .ok =>
      let s := { s with
        boot := { s.boot with
          verifyFail := false, phase := .starting, fwStep := 0, window := [], version := BitVec.ofNat 64 (s.imageNum 16 8) },
        retire := { s.retire with action := 2 } }
      .next (s.replyCommit .ok)
    | st =>
      let s := { s with boot := { s.boot with verifyFail := true, phase := .boot } }
      .next ((s.log evFwVerifyFail (detail 0 st.code) acNone (s.self agentCC0)).replyCommit st)

/-! Firmware start-up (R401-R403). -/

/-- Step 1: the mapping order of the boot defaults, after a cold reset. -/
def State.fwOrder (s : State) : State :=
  if s.boot.cold && !s.glb.mapLock && s.bootDefault 26 then
    { s with glb := { s.glb with mapOrder := (s.shadowWord 897).extractLsb' 24 2 } }
  else s

/-- Step 2: the port modes of the boot defaults, for ports that the boot ROM left OFF. -/
def State.fwPorts (s : State) : State :=
  (fins 64).foldl (fun s p =>
    match s.portDefault p with
    | some (m, r) =>
      if s.pairTaken p m then s
      else (s.modPort p (fun x => { x with cfgMode := m, maxRate := r, want := true, degradeEn := true, reversalEn := true })).startPort p
    | none => s) s

/-- MB63 is bound to the master's CC0 on every other node (R375). -/
def State.fwMailbox (s : State) : State :=
  if s.boot.cold && !s.fabMaster then s.modMbx 63 (fun _ => Mbx.rebind 0x800FFF50#32 0x80000050#32) else s

/-- Steps 1 to 3 begin (R401), with the agreement key pair (R149) and the binding of MB63. -/
def State.fwFirst (s : State) : State :=
  let s := s.fwOrder.fwPorts.deriveAgree.fwMailbox
  let s := (fins 8).foldl (fun s k => if s.dist[k].fn.st = .starting then s.startDistrict k else s) s
  { s with boot := { s.boot with fwStep := 1 } }

/-- Step 4: the initial fill of every channel whose INIT_DONE reads 0. -/
def State.fwFill (s : State) : State :=
  let s := (fins 64).foldl (fun s n => if s.chs[n].ecc.initDone then s else s.startFill n) s
  { s with boot := { s.boot with fwStep := 2 } }

/-- Ring r as firmware sets it (R337). -/
def fwRing (r : Fin 32) : Ring :=
  if r.val < 8 then
    { en := true, log2 := 6, hostPort := ⟨r.val % 8, Nat.mod_lt _ (by decide)⟩, owner := BitVec.ofNat 20 (0xFFF00 + r.val),
      vector := 8, groups := 0x7FF#11 }
  else {}

/-- Segment map entry 0 that reaches the command area (R401 step 5). -/
def segDefault : W64 := at64 63 1 ||| at64 40 0xFFF

/-- A Scezo sub-link is in RUN. -/
def State.anyRun (s : State) : Bool := allSubs.any (fun l => decide ((s.subAt l).ll = .run))

/-- Steps 4 to 8: LOCK, the segment map, the rings, the scrubber and, on the master, its ID and the enumeration. -/
def State.fwLast (s : State) : State :=
  let s := { s with glb := { s.glb with mapLock := true } }
  let s := if s.boot.cold && !segValid (smGetD s.cmd.segs 0 0) then ({ s with cmd := { s.cmd with segs := smPut s.cmd.segs 0 segDefault } }).copyOut 0 (toBytes segDefault 8) else s
  let s := { s with cmd := { s.cmd with rings := Vector.ofFn fwRing, ringsReady := true } }
  let s := if s.scrub.fn.st = .off then s.startScrub else s
  let s := { s with boot := { s.boot with fwStep := 3 } }
  if s.fabMaster then
    let s := { s with fab := { s.fab with nodeId := 0 } }
    if s.anyRun && s.fab.enum.isNone then s.startEnum else s
  else s

/-- Every District is ON. -/
def State.allOn (s : State) : Bool := (fins 8).all s.distOn
/-- No channel fills, and every channel that is not offline reads INIT_DONE. -/
def State.filled (s : State) : Bool := s.chs.toList.all (fun c => c.tsv.offline || (c.ecc.initDone && !c.ctl.fill))

/-- FIRMWARE_STARTUP (R401): the image takes the next step that is due. -/
def execFirmwareStartup (s : State) : Res :=
  if s.boot.phase ≠ .starting || s.flt.stopped then .next s
  else match s.boot.fwStep with
    | 0 => .next s.fwFirst
    | 1 => if !s.allOn then .next s else if s.boot.fillNeeded && !s.glb.mapLock then .next s.fwFill else .next s.fwLast
    | 2 => if s.filled then .next s.fwLast else .next s
    | _ => .next s

/-- STACK_READY (R403). -/
def execStackReady (s : State) : Res :=
  if s.boot.phase = .starting && !s.flt.stopped && s.allOn && s.glb.mapLock && (!s.boot.fillNeeded || s.chs.toList.all (fun c => c.tsv.offline || c.ecc.initDone)) &&
     segValid (smGetD s.cmd.segs 0 0) && s.cmd.ringsReady && s.scrub.fn.st = .on then
    .next { s with boot := { s.boot with phase := .ready, readyTime := BitVec.ofNat 32 ((s.now - s.boot.leftReset) / 1000) } }
  else .next s

end Sys2Proof.Machine
end

