-- ==== Sys2Proof/Machine/Conserve.lean ====
section
/-! DEFINITION. The conservation check, the USED registers and the District registers (R232, R249-R253). -/

namespace Sys2Proof.Machine

/-- Entries of the REQ plane in use at a hop (R232). -/
def State.reqUsed (s : State) (h : Spot) : Nat :=
  (s.reqPlane.map (fun c => if c.spot = some h then reqEntries c.load.req.kind else 0)).sum
/-- Entries of the CMP plane in use at a hop. -/
def State.cmpUsed (s : State) (h : Spot) : Nat :=
  (s.mports.toList.map (fun p => (p.inflight.map (fun c => if c.spot = some h then reqEntries c.load.req.kind else 0)).sum)).sum
/-- Entries of the MGT plane in use at a hop: what the hop does not hold as credits. -/
def State.mgtUsed (s : State) (h : Spot) : Nat := (hopEntries 64 128)[h.ix] - s.credits.mgt[h.ix]
/-- A hop's buffers hold nothing. -/
def State.hopEmpty (s : State) (h : Spot) : Bool := s.reqUsed h == 0 && s.cmpUsed h == 0 && s.mgtUsed h == 0

/-- Slots counted since the last boundary agree with R214: the slots of the current revolution are counted one by one. -/
def Rbt.identity (r : Rbt) (strobe : Nat) : Bool :=
  let sum := (r.used.toList.map BitVec.toNat).sum + (r.idle.toList.map BitVec.toNat).sum + r.maint.toNat + r.norun.toNat
  !r.counting || sum == 256 * r.revs.toNat + strobe % 256

/-- The checks of R250 that fail in this state, in the Districts that are ON. -/
def State.consFails (s : State) : BitVec 12 :=
  let chs := (fins 64).filter (fun n => s.distOn (distOf n))
  let ds := (fins 8).filter (fun k => s.distOn k)
  let test : List Bool := [
    chs.any (fun n => s.chs[n].ctl.rqLevel != 0),
    chs.any (fun n => (s.chs[n].ctl.rc).any (fun r => r.held || r.pins != 0)),
    chs.any (fun n => decide (128 < s.chs[n].ctl.wq.length)),
    ds.any (fun k => !s.hopEmpty (.sw k)),
    !s.hopEmpty .plaza,
    s.kerbs.toList.any (fun k => k.cls.toList.any (fun c => !c.queue.isEmpty)),
    decide (s.credits ≠ {}),
    s.mports.toList.any (fun p => !p.outst.isEmpty),
    s.mports.toList.any (fun p => !p.outst.isEmpty),
    chs.any (fun n => !(s.chs[n].rbt).identity s.strobe),
    s.cmd.queues.any (fun kv => kv.2.head != kv.2.done),
    !s.sec.walks.isEmpty]
  (List.range 12).foldl (fun (v : BitVec 12) i => setBit v i (nth test i false)) 0

/-- A START written to GLB.CONS_CHECK; ignored while a check runs (R250). -/
def State.consStart (s : State) : State :=
  if s.glb.cons.running then s else { s with glb := { s.glb with cons := { running := true } } }

/-- CONS_CHECK_START (R250). -/
def execConsCheckStart (p : Path) (m : MasterId) (s : State) : Res := .next (s.guardWrite p m 0x11C State.consStart)

/-- CONS_CHECK_END (R250, R251): DONE sets, with ABORTED, or with PASS or FAIL. -/
def execConsCheckEnd (s : State) : Res :=
  if !s.glb.cons.running then .next s
  else if s.glb.cons.aborted then .next { s with glb := { s.glb with cons := { done := true, aborted := true } } }
  else
    let f := s.consFails
    let s := { s with glb := { s.glb with cons := { done := true, pass := f == 0, fail := f } } }
    match (List.range 12).find? (fun i => bit f i) with
    | some i => .next (s.log evConsFail (detail 0 i) acNone)
    | none => .next s

/-- The word of GLB.CONS_CHECK (R252). -/
def ConsCheck.word (c : ConsCheck) : W32 :=
  at32 31 (b2n c.running) ||| at32 30 (b2n c.done) ||| at32 29 (b2n c.pass) ||| at32 28 (b2n c.aborted) ||| c.fail.setWidth 32

/-- Read of a DIST register (R253). -/
def State.distRead (s : State) (k : Fin 8) (o : Nat) : W32 :=
  let d := s.dist[k]
  match o with
  | 0x000 => at32 30 d.fn.st.code ||| d.gen.setWidth 32
  | 0x010 => at32 16 0x200 ||| at32 0 (s.reqUsed (.sw k))
  | 0x014 => at32 16 0x200 ||| at32 0 (s.cmpUsed (.sw k))
  | 0x018 => at32 16 0x040 ||| at32 0 (s.mgtUsed (.sw k))
  | 0x020 => d.swFwd
  | 0x024 => d.swUpStall
  | _ => 0

end Sys2Proof.Machine
end

