-- ==== Sys2Proof/Machine/Operands.lean ====
section
/-! DEFINITION. The operand forms of a command packet (R341, R344, R346): the fields of its 64 bytes, the bytes that
every opcode uses, and the bytes and bits that must be 0. -/

namespace Sys2Proof.Machine

/-- A command packet, byte k at bits 8k (R341). -/
abbrev Packet := BitVec 512

/-- OPCODE of a packet. -/
def pktOp (p : Packet) : Nat := fieldN p 0 16
/-- Parameter byte k. -/
def pktB (p : Packet) (k : Nat) : BitVec 8 := byteOf p k
/-- Parameter bytes k and k+1. -/
def pkt16 (p : Packet) (k : Nat) : BitVec 16 := BitVec.extractLsb' (8 * k) 16 p
/-- Parameter bytes k to k+3. -/
def pkt32 (p : Packet) (k : Nat) : W32 := BitVec.extractLsb' (8 * k) 32 p
/-- Parameter bytes k to k+7. -/
def pkt64 (p : Packet) (k : Nat) : W64 := BitVec.extractLsb' (8 * k) 64 p

/-- The parameter bytes that an opcode uses, as first byte and count (R215, R226, R229, R256, R306, R323,
R337, R347-R349, R353, R354, R366, R416, R421, R427, R446, R460). -/
def usedBytes (op : Nat) : List (Nat × Nat) :=
  if op == 0x0002 || op == 0x0310 || op == 0x0702 || op == 0x0A01 then [(8, 1)]
  else if op == 0x0003 then [(8, 10)]
  else if op == 0x0004 then [(8, 1), (12, 8)]
  else if op == 0x0101 || op == 0x0302 || op == 0x0303 || op == 0x0304 || op == 0x0403 || op == 0x0903 then [(8, 4)]
  else if op == 0x0102 then [(8, 5), (16, 48)]
  else if op == 0x0201 || op == 0x0605 then (if op == 0x0605 then [(8, 2), (16, 12)] else [(8, 2), (16, 8)])
  else if op == 0x0202 || op == 0x0203 || op == 0x0502 || op == 0x0703 || op == 0x0803 || op == 0x0901 || op == 0x0902 ||
    op == 0x0A04 || op == 0x0801 then [(8, 2)]
  else if op == 0x0301 then [(8, 8)]
  else if op == 0x0306 then [(8, 3), (16, 8)]
  else if op == 0x0307 then [(8, 3)]
  else if op == 0x0311 then [(8, 5)]
  else if op == 0x0401 then [(8, 12)]
  else if op == 0x0402 then [(8, 3), (12, 4)]
  else if op == 0x0501 then [(8, 40)]
  else if op == 0x0602 then [(8, 6), (16, 8)]
  else if op == 0x0603 then [(8, 3)]
  else if op == 0x0604 then [(8, 1), (10, 2), (16, 8)]
  else if op == 0x0607 then [(8, 4), (16, 16)]
  else if op == 0x0608 then [(8, 2), (16, 32)]
  else if op == 0x0701 then [(8, 2), (12, 4)]
  else if op == 0x0802 then [(8, 1)]
  else if op == 0x0804 then [(8, 6)]
  else if op == 0x0904 then [(8, 9)]
  else if op == 0x0A02 then [(8, 11), (20, 2)]
  else if op == 0x0A03 then [(8, 12)]
  else []

/-- Byte 3, FLAGS [7:1] and every reserved parameter byte are 0 (R344). -/
def pktReservedOk (p : Packet) : Bool :=
  decide (fieldN p 17 7 = 0) && decide (fieldN p 24 8 = 0) &&
  ((List.range 56).all fun i =>
    let k := 8 + i
    (usedBytes (pktOp p)).any (fun u => decide (u.1 ≤ k) && decide (k < u.1 + u.2)) || decide (pktB p k = 0))

/-- The common part of a packet. -/
def pktCtx (src : CmdSrc) (p : Packet) : CmdCtx := { src := src, tag := pkt32 p 4, irq := bit p 16 }

end Sys2Proof.Machine
end

