-- ==== Sys2Proof/Machine/Packet.lean ====
section
/-! DEFINITION. Command packets (13_command_interface, R339, R345, R346): the command that a packet names, the packet
of a command, and the three carriers that take a packet (COMMAND_TAKE, DIRECT_GO, REMOTE_CMD). -/

namespace Sys2Proof.Machine

/-- The command that a packet names, with its parameters (R346). -/
def pktFn (c : CmdCtx) (p : Packet) : CmdFn :=
  match pktOp p with
  | 0x0001 => cmdDevIdentify
  | 0x0002 => cmdDevStatus (pktB p 8)
  | 0x0003 => cmdRingSet c (pktB p 8) (pktB p 9) (pktB p 10) (pktB p 11) (pkt32 p 12) (pkt16 p 16)
  | 0x0004 => cmdMbxBind c (pktB p 8) (pkt32 p 12) (pkt32 p 16)
  | 0x0005 => cmdMbxLock c
  | 0x0101 => cmdFwBegin (pkt32 p 8)
  | 0x0102 => cmdFwChunk c (pkt32 p 8) (pktB p 12) (BitVec.extractLsb' 128 384 p)
  | 0x0103 => cmdFwCommit
  | 0x0201 => cmdKeyLoadWrapped c (pkt16 p 8) (pkt64 p 16)
  | 0x0202 => cmdKeyErase (pkt16 p 8)
  | 0x0203 => cmdKeyQuery (pkt16 p 8)
  | 0x0301 => cmdPageSet c (pkt32 p 8) (pkt32 p 12)
  | 0x0302 => cmdPageGet (pkt32 p 8)
  | 0x0303 => cmdPageRetire (pkt32 p 8)
  | 0x0304 => cmdPageReserve (pkt32 p 8)
  | 0x0305 => cmdPageRecordRead
  | 0x0306 => cmdAccessGroupSet (pkt16 p 8) (pktB p 10) (pkt64 p 16)
  | 0x0307 => cmdAccessGroupGet (pkt16 p 8) (pktB p 10)
  | 0x0310 => cmdIntegrityConfig (pktB p 8)
  | 0x0311 => cmdPageClearSticky (pkt32 p 8) (pktB p 12)
  | 0x0401 => cmdClassSetGuarantee (pkt64 p 8) (pktB p 16) (pktB p 17) (pkt16 p 18)
  | 0x0402 => cmdClassSetLimit (pkt16 p 8) (pktB p 10) (pkt16 p 12) (pkt16 p 14)
  | 0x0403 => cmdClassCountersSnapshot (pkt32 p 8)
  | 0x0501 => cmdQueueCreate (pkt16 p 8) (pktB p 15) (pktB p 13) (pktB p 14) (pktB p 12) (pkt32 p 16) (pkt64 p 24) (pkt64 p 32)
      (pkt64 p 40) (pkt16 p 10) (pkt16 p 20) (pkt16 p 22)
  | 0x0502 => cmdQueueDestroy (pkt16 p 8)
  | 0x0601 => cmdFabEnumerate
  | 0x0602 => cmdRouteSet c (pkt16 p 8) (pkt16 p 10) (pkt16 p 12) (pkt64 p 16)
  | 0x0603 => cmdNodeDetach (pkt16 p 8) (pktB p 10)
  | 0x0604 => cmdTimeSync (pktB p 8) (pkt16 p 10) (pkt64 p 16)
  | 0x0605 => cmdFwPush c (pkt16 p 8) (pkt64 p 16) (pkt32 p 24)
  | 0x0606 => cmdFabSealInit
  | 0x0607 => cmdSegmentSet (pkt16 p 8) (pkt16 p 10) (pkt64 p 16) (pkt64 p 24)
  | 0x0608 => cmdIsetSet (pkt16 p 8) (BitVec.extractLsb' 128 256 p)
  | 0x0701 => cmdFuseProgramWord (pkt16 p 8) (pkt32 p 12) []
  | 0x0702 => cmdFuseLockRegion (pktB p 8) [] []
  | 0x0703 => cmdFuseReadShadow (pkt16 p 8)
  | 0x0801 => cmdFaultRead (pktB p 8) (pktB p 9)
  | 0x0802 => cmdFaultClear (pktB p 8)
  | 0x0803 => cmdFaultForce c (pkt16 p 8)
  | 0x0804 => cmdReactionSet (pkt16 p 8) (pkt16 p 10) (pktB p 12) (pktB p 13)
  | 0x0901 => cmdPowerCapSet (pkt16 p 8)
  | 0x0902 => cmdDistPower (pktB p 8) (pktB p 9)
  | 0x0903 => cmdPortEnable (pktB p 8) (pktB p 9) (pktB p 10) (pktB p 11)
  | 0x0904 => cmdEngineEnable (pkt64 p 8) (pktB p 16)
  | 0x0A01 => cmdTsvRepairStatus (pktB p 8)
  | 0x0A02 => cmdScrubConfig (pkt64 p 8) (pktB p 16) (pktB p 17) (pktB p 18) (pkt16 p 20)
  | 0x0A03 => cmdRemapModeSet (pkt64 p 8) (pktB p 16) (pktB p 17) (pktB p 18) (pktB p 19)
  | 0x0A04 => cmdRetrain (pktB p 8) (pktB p 9)
  | _ => fun s => s.refuse .badOpcode

/-- Run a packet that a carrier brings. -/
def State.runPacket (s : State) (src : CmdSrc) (p : Packet) : State :=
  let c := pktCtx src p
  s.command c (pktOp p) (pktReservedOk p) (pktFn c p)

/-- Local address of the packet that a ring takes next (R336). -/
def State.ringSlot (s : State) (r : Fin 32) : Nat := ringBase r + 64 * ((s.cmd.rings[r]).head.toNat % 2 ^ (s.cmd.rings[r]).log2)

/-- COMMAND_TAKE (R339): the next packet of a ring is read by its control core and carried out; it waits while its channel is in a hold
(R58). A packet that cannot be read stops the ring (R350). -/
def execCommandTake (ring : Fin 32) (s : State) : Res :=
  let x := s.cmd.rings[ring]
  if !s.ringFree ring || x.head == x.tail || s.heldAt (s.ringSlot ring) then .next s
  else
    let r := s.readBytesNow (s.self (0x50 + ring.val % 4)) (s.ringSlot ring) acCommand 64
    if r.2.1 ≠ .ok then .next (r.1.ringFail ring)
    else .next (r.1.runPacket (.ring ring) (ofBytes 512 r.2.2))

/-- The packet in CMD.DIRECT_PKT. -/
def State.directPkt (s : State) : Packet := s.cmd.pkt.toList.foldr (fun w (acc : Packet) => (acc <<< 32) ||| w.setWidth 512) 0

/-- A write of 1 to DIRECT_CTL.GO (R345). -/
def State.directGo (s : State) (p : Path) (m : MasterId) : State := s.runPacket (.direct p m) s.directPkt

/-- DIRECT_GO. -/
def execDirectGo (p : Path) (m : MasterId) (s : State) : Res :=
  .next (s.guardWrite p m 0x050850 (fun s => s.directGo p m))

/-- REMOTE_CMD (R288, R300, R339): slots 1-4 hold the packet; CC0 carries it out for MASTER. One for this node is not taken while a warm
reset runs (R351). -/
def execRemoteCmd (l : SubLink) (msg : Msg) (s : State) : Res :=
  if !s.cmdUp && decide ((s.egress msg).2 = .here) then .next s
  else .next (s.forMaster l msg mtRemoteCmd (fun s =>
    let p : Packet := (List.range 4).foldr (fun i (acc : Packet) => (acc <<< 128) ||| (nth msg.slots i 0).setWidth 512) 0
    s.runPacket (.remote (hMaster msg.hdr) l.port l.sub (hTag msg.hdr)) p))

/-! The packet of a command (R341, R346): the bytes that software writes. -/

/-- A packet from its common part and its parameter bytes from byte 8; the bytes after them are 0. -/
def mkPacket (op : Nat) (c : CmdCtx) (ps : List Byte) : Packet :=
  ofBytes 512 (toBytes (BitVec.ofNat 16 op) 2 ++ [if c.irq then 1 else 0, 0] ++ toBytes c.tag 4 ++ ps)

/-- Reserved bytes. -/
def pad (n : Nat) : List Byte := List.replicate n 0

/-- The carrier's context and the packet of a command that a packet can carry. The attempts of a fuse command are no part of
its packet. -/
def packetOf : Instr → Option (CmdCtx × Packet)
  | .devIdentify c => some (c, mkPacket 0x0001 c [])
  | .devStatus c select => some (c, mkPacket 0x0002 c [select])
  | .ringSet c ring log2 hostPort vector owner groups =>
    some (c, mkPacket 0x0003 c ([ring, log2, hostPort, vector] ++ toBytes owner 4 ++ toBytes groups 2))
  | .mbxBind c channel a b => some (c, mkPacket 0x0004 c ([channel] ++ pad 3 ++ toBytes a 4 ++ toBytes b 4))
  | .mbxLock c => some (c, mkPacket 0x0005 c [])
  | .fwBegin c size => some (c, mkPacket 0x0101 c (toBytes size 4))
  | .fwChunk c offset len data => some (c, mkPacket 0x0102 c (toBytes offset 4 ++ [len] ++ pad 3 ++ toBytes data 48))
  | .fwCommit c => some (c, mkPacket 0x0103 c [])
  | .keyLoadWrapped c slot addr => some (c, mkPacket 0x0201 c (toBytes slot 2 ++ pad 6 ++ toBytes addr 8))
  | .keyErase c slot => some (c, mkPacket 0x0202 c (toBytes slot 2))
  | .keyQuery c slot => some (c, mkPacket 0x0203 c (toBytes slot 2))
  | .pageSet c page entry => some (c, mkPacket 0x0301 c (toBytes page 4 ++ toBytes entry 4))
  | .pageGet c page => some (c, mkPacket 0x0302 c (toBytes page 4))
  | .pageRetire c page => some (c, mkPacket 0x0303 c (toBytes page 4))
  | .pageReserve c page => some (c, mkPacket 0x0304 c (toBytes page 4))
  | .pageRecordRead c => some (c, mkPacket 0x0305 c [])
  | .accessGroupSet c group index pattern => some (c, mkPacket 0x0306 c (toBytes group 2 ++ [index] ++ pad 5 ++ toBytes pattern 8))
  | .accessGroupGet c group index => some (c, mkPacket 0x0307 c (toBytes group 2 ++ [index]))
  | .integrityConfig c code => some (c, mkPacket 0x0310 c [code])
  | .pageClearSticky c page all => some (c, mkPacket 0x0311 c (toBytes page 4 ++ [all]))
  | .classSetGuarantee c channels cls flags slots => some (c, mkPacket 0x0401 c (toBytes channels 8 ++ [cls, flags] ++ toBytes slots 2))
  | .classSetLimit c kerb cls rate burst =>
    some (c, mkPacket 0x0402 c (toBytes kerb 2 ++ [cls] ++ pad 1 ++ toBytes rate 2 ++ toBytes burst 2))
  | .classCountersSnapshot c page => some (c, mkPacket 0x0403 c (toBytes page 4))
  | .queueCreate c queue flags log2 vector cls owner engines descBase cmplBase doorbell targetNode targetQueue =>
    some (c, mkPacket 0x0501 c (toBytes queue 2 ++ toBytes doorbell 2 ++ [cls, log2, vector, flags] ++ toBytes owner 4 ++
      toBytes targetNode 2 ++ toBytes targetQueue 2 ++ toBytes engines 8 ++ toBytes descBase 8 ++ toBytes cmplBase 8))
  | .queueDestroy c queue => some (c, mkPacket 0x0502 c (toBytes queue 2))
  | .fabEnumerate c => some (c, mkPacket 0x0601 c [])
  | .routeSet c node first count src =>
    some (c, mkPacket 0x0602 c (toBytes node 2 ++ toBytes first 2 ++ toBytes count 2 ++ pad 2 ++ toBytes src 8))
  | .nodeDetach c node action => some (c, mkPacket 0x0603 c (toBytes node 2 ++ [action]))
  | .timeSync c flags period time => some (c, mkPacket 0x0604 c ([flags, 0] ++ toBytes period 2 ++ pad 4 ++ toBytes time 8))
  | .fwPush c node image size => some (c, mkPacket 0x0605 c (toBytes node 2 ++ pad 6 ++ toBytes image 8 ++ toBytes size 4))
  | .fabSealInit c => some (c, mkPacket 0x0606 c [])
  | .segmentSet c first count entry stride =>
    some (c, mkPacket 0x0607 c (toBytes first 2 ++ toBytes count 2 ++ pad 4 ++ toBytes entry 8 ++ toBytes stride 8))
  | .isetSet c set members => some (c, mkPacket 0x0608 c (toBytes set 2 ++ pad 6 ++ toBytes members 32))
  | .fuseProgramWord c word value [] => some (c, mkPacket 0x0701 c (toBytes word 2 ++ pad 2 ++ toBytes value 4))
  | .fuseLockRegion c region [] [] => some (c, mkPacket 0x0702 c [region])
  | .fuseReadShadow c word => some (c, mkPacket 0x0703 c (toBytes word 2))
  | .faultRead c select quad => some (c, mkPacket 0x0801 c [select, quad])
  | .faultClear c what => some (c, mkPacket 0x0802 c [what])
  | .faultForce c source => some (c, mkPacket 0x0803 c (toBytes source 2))
  | .reactionSet c first count reaction restore =>
    some (c, mkPacket 0x0804 c (toBytes first 2 ++ toBytes count 2 ++ [reaction, restore]))
  | .powerCapSet c cap => some (c, mkPacket 0x0901 c (toBytes cap 2))
  | .distPower c district enable => some (c, mkPacket 0x0902 c [district, enable])
  | .portEnable c port mode rate flags => some (c, mkPacket 0x0903 c [port, mode, rate, flags])
  | .engineEnable c engines enable => some (c, mkPacket 0x0904 c (toBytes engines 8 ++ [enable]))
  | .tsvRepairStatus c channel => some (c, mkPacket 0x0A01 c [channel])
  | .scrubConfig c channels flags rows fix celog =>
    some (c, mkPacket 0x0A02 c (toBytes channels 8 ++ [flags, rows, fix, 0] ++ toBytes celog 2))
  | .remapModeSet c channels mode ceLimit action sets =>
    some (c, mkPacket 0x0A03 c (toBytes channels 8 ++ [mode, ceLimit, action, sets]))
  | .retrain c channel kind => some (c, mkPacket 0x0A04 c [channel, kind])
  | _ => none

end Sys2Proof.Machine
end

