-- ==== Sys2Proof/Machine/TestPort.lean ====
section
/-! DEFINITION. The test access port: boundary scan and the stack test access of IEEE 1838 (R59, R60, R272). -/

namespace Sys2Proof.Machine

/-- The layers of the stack, tower S0 first. -/
def State.layerCount (s : State) : Nat := 2 * s.glb.variant.layers
/-- Layer i of a tower is in the chain: it and every layer below it are selected, since the chain runs through every die (R59). -/
def State.inChain (s : State) (i : Nat) : Bool :=
  let n := s.glb.variant.layers
  (List.range (i % n + 1)).all (fun j => nth s.tap.chain (i / n * n + j) false)
/-- The die identification register of layer i: layer, tower and die lot, least significant bit first. The lot is what each die
carries (`Config.dieLot`); the widths are not stated (DESIGN CHOICE, log entry 98). -/
def State.dieIdBits (s : State) (i : Nat) : List Bool :=
  let n := s.glb.variant.layers
  let w := at64 0 (i % n) ||| at64 4 (i / n) ||| ((Config.dieLot (16 * (i / n) + i % n)).setWidth 64 <<< 5)
  (List.range 37).map (fun k => bit w k)

/-- What the register that an instruction selects captures (R59, R272): the bypass register a 0, the identification registers of the
layers in the chain their content, the control register the chain, the cells of pins and connections what they find there. -/
def State.tapCapture (s : State) (i : TapInstr) (pins : List Bool) : List Bool :=
  match i with
  | .bypass => [false]
  | .control => (List.range s.layerCount).map (fun k => nth s.tap.chain k false)
  | .dieId => ((List.range s.layerCount).filter s.inChain).flatMap s.dieIdBits
  | _ => pins

/-- What a scan leaves in the register that it went through. -/
def Tap.update (t : Tap) (i : TapInstr) (bits : List Bool) : Tap :=
  match i with
  | .bypass | .dieId => { t with instr := i }
  | .control => { t with instr := i, chain := bits }
  | .wrapper => { t with instr := i, wrapper := bits }
  | _ => { t with instr := i, boundary := bits }

/-- Every lane leaves its port, and each ACTIVE link ends as an unclean loss (R266, R272). -/
def State.lanesLost (s : State) : State :=
  let s := allSubs.foldl (fun (s : State) l =>
    match (s.subAt l).lstate with
    | .active | .recovery => if scezoMode s.ports[l.port].mode then s.linkDown l false else s
    | _ => s) s
  (fins 8).foldl State.hostLost s

/-- BOUNDARY_SCAN_LOAD (R59, R60, R272, R504): a scan through the test access port. An instruction that debug disable takes away
selects the bypass register, as IEEE 1149.1 has it for unknown codes (PRESUMED, log entry 98). TDO shifts at its present slew step,
and takes the step of the scan's clock once the port is idle again. -/
def execBoundaryScanLoad (scan : TapScan) (s : State) : Res :=
  if !s.sidebandUp then .next s
  else
    let i := if scan.instr.stacked && s.debugDisable then TapInstr.bypass else scan.instr
    let out := (s.tapCapture i scan.pins ++ scan.shift).take scan.shift.length
    let s := if i.takesLanes then s.lanesLost else s
    let s := ({ s with tap := s.tap.update i scan.shift }).emit (.tdo out s.slew.tdo)
    .next { s with slew := { s.slew with tdo := slewStep scan.tck } }

end Sys2Proof.Machine
end

