-- ==== Sys2Proof/Machine/Thermal.lean ====
section
/-! DEFINITION. Sensors, thermal steps, the governor, flow inference, the THM registers, and the device stop
(18_thermal_cooling; R430). -/

namespace Sys2Proof.Machine

/-! The device stop (R430). -/

/-- A channel enters self-refresh without DRAIN: queued lines are lost, and no layer leaves it within 256 strobes (R78). -/
def Channel.stop (c : Channel) (layers now : Nat) : Channel :=
  if c.tsv.offline || c.ctl.state = .off then c
  else { c with
    tsv := { c.tsv with hold := none, retrainDue := none, walk := none, targeted := [], walkDue := false },
    ecc := { c.ecc with reads := [], due := 0 },
    ctl := { c.ctl.allLayers layers RowCmd.sre with
      state := .selfRefresh, program := 0, rq := [], rc := [], wq := [], wqWait := [], waiting := [], chosen := [], issued := [],
      log := [], recovery := false, recChecked := false, locked := [], caCheckDue := false, caCheckRun := false, fill := false,
      srxFrom := now + 256 } }

/-- A warm-reset sequence in progress is abandoned (R455). -/
def Boot.abandon (b : Boot) : Boot :=
  match b.phase with
  | .warm _ => { b with phase := .boot, warmReq := none }
  | _ => b

/-- The device stops: lanes idle without QUIET, host links disabled, engines, dispatcher and cores stopped, every channel
in self-refresh by an SRE that a locked-out layer does not take (DEDUCED, log entry 102). Requests, jobs and commands that were under way end without an answer. -/
def State.deviceStop (s : State) : State :=
  if s.flt.stopped then s
  else
    let s := (fins 8).foldl (fun s h => s.hostDown h .down) s
    { s.mapChs (fun _ c => c.stop s.glb.variant.layers s.strobe) with
      flt := { s.flt with stopped := true, faultLow := true, faultSince := s.now },
      ports := s.ports.map (fun p => { p with subs := p.subs.map Sub.lost }),
      fab := { s.fab with transit := [], mgmt := [], enum := none, routeSet := none, push := none, sealing := none },
      engs := { s.engs with eng := s.engs.eng.map (fun x => { x with run := none, pending := [], io := [] }), jobs := [], checking := [] },
      cmd := { s.cmd with stopped := true, waits := [], go := false },
      sec := { s.sec with walks := [], ahead := [] },
      kerbs := s.kerbs.map (fun k => { k with cls := k.cls.map (fun c => { c with queue := [] }) }),
      mports := Vector.replicate 140 {}, reqPlane := [], credits := {},
      boot := s.boot.abandon }

/-- CORE_FAIL (R430). -/
def execCoreFail (core : Fin 4) (s : State) : Res :=
  if s.dieUp then .next ((s.log evCoreFail (detail core.val 0) acNone (s.self (0x50 + core.val))).deviceStop) else .next s

/-! Sensors (R451-R453). -/

/-- The sensor exists on the variant. -/
def sensorExists (v : Variant) (i : Nat) : Bool := decide (128 ≤ i) || decide (i % 64 / 4 < v.layers)
/-- The die code of a sensor (R451). -/
def dieOf (i : Nat) : Nat := if i < 128 then i / 4 else if i < 160 then 0x20 else 0x21 + (i - 160)
/-- Sensors of a die. -/
def dieSensors (d : Nat) : List (Fin 162) := (fins 162).filter (fun i => decide (dieOf i.val = d))

/-- Insert into an ascending list. -/
def insertInt (x : Int) : List Int → List Int
  | [] => [x]
  | y :: ys => if x ≤ y then x :: y :: ys else y :: insertInt x ys
/-- Twice the median of a list; `none` for an empty one. -/
def median2 (xs : List Int) : Option Int :=
  let ys := xs.foldr insertInt []
  let n := ys.length
  if n = 0 then none else if n % 2 = 1 then some (2 * nth ys (n / 2) 0) else some (nth ys (n / 2 - 1) 0 + nth ys (n / 2) 0)

/-- A temperature in whole °C as an 8-bit field: saturates at 0 and 255 (log entry 45). -/
def degC (t : Int) : Nat := min 255 (t / 16).toNat

/-- Take the readings of a sample; a sensor that is not named reads as before. -/
def Thm.takeReadings (t : Thm) (v : Variant) (rs : List SensorRead) : Thm :=
  { t with sensors := Vector.ofFn (fun i : Fin 162 =>
      match rs.find? (fun r => r.sensor = i) with
      | some r => if sensorExists v i.val then { t.sensors[i] with valid := true, temp := r.temp } else t.sensors[i]
      | none => t.sensors[i]) }

/-- A sensor reads out of range (R453). -/
def Sensor.outOfRange (x : Sensor) : Bool := x.valid && !x.failed && (decide (x.temp < -320) || decide (2400 < x.temp))
/-- A sensor differs by more than 15 K from the median of the other sensors of its die (R453). -/
def Thm.disagrees (t : Thm) (i : Fin 162) : Bool :=
  let x := t.sensors[i]
  let others := (dieSensors (dieOf i.val)).filter (fun j => j != i && (t.sensors[j]).valid && !(t.sensors[j]).failed)
  match median2 (others.map (fun j => (t.sensors[j]).temp)) with
  | some m => x.valid && !x.failed && decide (480 < (2 * x.temp - m).natAbs)
  | none => false

/-- Sensor i fails: SENSOR_FAIL once (R453, R462). -/
def State.sensorFails (s : State) (i : Fin 162) (cause : Nat) : State :=
  ({ s with thm := { s.thm with sensors := vmod s.thm.sensors i (fun x => { x with failed := true }) } }).log evSensorFail
    (detail (dieOf i.val) (cause * 256 + i.val)) acSensor

/-- Failures of a sample (R453). -/
def State.sensorChecks (s : State) : State :=
  let s := (fins 162).foldl (fun s i => if (s.thm.sensors[i]).outOfRange then s.sensorFails i 1 else s) s
  let bad := (fins 162).filter s.thm.disagrees
  let s := { s with thm := { s.thm with sensors := Vector.ofFn (fun i : Fin 162 =>
    { s.thm.sensors[i] with disagree := if bad.contains i then s.thm.sensors[i].disagree + 1 else 0 }) } }
  (fins 162).foldl (fun s i => if decide (16 ≤ s.thm.sensors[i].disagree) && !s.thm.sensors[i].failed then s.sensorFails i 2 else s) s

/-! Dies (R452). -/

/-- A die's temperature and the sensor that reads it; a die whose sensors have all failed counts as 106 °C. -/
def Thm.dieTemp (t : Thm) (d : Nat) : Option (Int × Nat) :=
  let xs := (dieSensors d).filter (fun i => (t.sensors[i]).valid)
  match xs.filter (fun i => !(t.sensors[i]).failed), xs with
  | i :: is, _ => some (is.foldl (fun (b : Int × Nat) j => if b.1 < (t.sensors[j]).temp then ((t.sensors[j]).temp, j.val) else b)
      ((t.sensors[i]).temp, i.val))
  | [], i :: _ => some (1696, i.val)
  | [], [] => none

/-- A threshold with its hysteresis of 2 K. -/
def crosses (was : Bool) (t : Int) (x : Int) : Bool := if was then decide ((x - 2) * 16 < t) else decide (x * 16 < t)

/-- The thresholds of a die after a sample. -/
def DieHeat.sample (h : DieHeat) (t : Option (Int × Nat)) : DieHeat :=
  match t with
  | none => h
  | some (t, _) => { a85 := crosses h.a85 t 85, a103 := crosses h.a103 t 103, a105 := crosses h.a105 t 105, a110 := crosses h.a110 t 110 }

/-- The hottest die: temperature and code. -/
def Thm.hottest (t : Thm) : Option (Int × Nat) :=
  (List.range 33).foldl (fun (b : Option (Int × Nat)) d =>
    match t.dieTemp d, b with
    | some (x, _), some (y, _) => if y < x then some (x, d) else b
    | some (x, _), none => some (x, d)
    | none, _ => b) none

/-- The first die of a list that is above a threshold: its code, temperature and sensor. -/
def Thm.firstAbove (t : Thm) (ds : List (Fin 33)) (f : DieHeat → Bool) : Option (Nat × Int × Nat) :=
  (ds.find? (fun d => f t.dies[d])).bind (fun d => (t.dieTemp d.val).map (fun x => (d.val, x.1, x.2)))

/-- Layers of a tower. -/
def towerDies (south : Bool) : List (Fin 33) := (fins 33).filter (fun d => if south then decide (16 ≤ d.val) && decide (d.val < 32) else decide (d.val < 16))

/-- A tower turns hot or stops being hot (R454). -/
def State.hotStep (s : State) (south : Bool) : State :=
  let was := if south then s.thm.southHot else s.thm.northHot
  let hit := s.thm.firstAbove (towerDies south) (fun d => d.a85)
  let now := (towerDies south).any (fun d => (s.thm.dies[d]).a85)
  let s := { s with thm := if south then { s.thm with southHot := now } else { s.thm with northHot := now } }
  match hit with
  | some (d, t, _) => if now && !was then s.log evThermHot (detail (b2n south) (degC t * 256 + d % 16)) acSensor else s
  | none => s

/-- Log the entry of a step with die, temperature and sensor (R462). -/
def State.stepLog (s : State) (ev : Nat) (hit : Option (Nat × Int × Nat)) : State :=
  match hit with
  | some (d, t, i) => s.log ev (detail d (degC t * 256 + i)) acSensor
  | none => s

/-- Throttle and Scale (R454, R459). -/
def State.heatSteps (s : State) : State :=
  let t := s.thm
  let throttle := (fins 33).any (fun d => (t.dies[d]).a105)
  let scale := (fins 33).any (fun d => (t.dies[d]).a110)
  let s := { s with thm := { s.thm with throttle := throttle, scale := scale } }
  let s : State := if throttle && !t.throttle then s.stepLog evThermThrottle (t.firstAbove (fins 33) (fun d => d.a105)) else s
  let s : State := if scale && !t.scale then s.stepLog evThermScale (t.firstAbove (fins 33) (fun d => d.a110)) else s
  if scale && decide (s.thm.nextLevel < 32) then { s with thm := { s.thm with nextLevel := 32 } } else s

/-- The trip (R454-R456): any sensor above 115 °C, failed or not. -/
def State.trip (s : State) : State :=
  if s.boot.tripHold then s
  else match (fins 162).find? (fun i => (s.thm.sensors[i]).valid && decide (1840 < (s.thm.sensors[i]).temp)) with
    | none => s
    | some i =>
      let t := degC (s.thm.sensors[i]).temp
      let s := { s with
        thm := { s.thm with tripped := true, tripLast := at32 16 i.val ||| at32 8 t ||| at32 0 (dieOf i.val) },
        boot := { s.boot with tripHold := true } }
      (s.log evThermTrip (detail (dieOf i.val) (t * 256 + i.val)) acSensor).deviceStop

/-- SENSOR_SAMPLE (R451-R456, R459). -/
def execSensorSample (readings : List SensorRead) (s : State) : Res :=
  let s := ({ s with thm := s.thm.takeReadings s.glb.variant readings }).sensorChecks
  let t := s.thm
  let dies := Vector.ofFn (fun d : Fin 33 => (t.dies[d]).sample (t.dieTemp d.val))
  let top := t.hottest.getD (0, 0)
  let s := { s with thm := { t with dies := dies, maxTemp := BitVec.ofNat 8 (degC top.1), maxDie := BitVec.ofNat 8 top.2 } }
  .next (((s.hotStep false).hotStep true).heatSteps).trip

/-- TRIP_COOLED (R456): every sensor that has not failed reads 95 °C or below. -/
def execTripCooled (s : State) : Res :=
  if s.boot.tripHold && (fins 162).all (fun i => !sensorExists s.glb.variant i.val || (s.thm.sensors[i]).failed ||
      ((s.thm.sensors[i]).valid && decide ((s.thm.sensors[i]).temp ≤ 1520))) then
    .next ({ s with boot := { s.boot with tripHold := false } }).leaveReset
  else .next s

/-! The governor (R457-R460). -/

/-- The level after an interval (R459), and whether rule 2 acted because of P alone. -/
def govLevel (level p cap : Nat) (a103 a105 a110 : Bool) : Nat × Bool :=
  if a110 && decide (level < 32) then (32, false)
  else if a110 || decide (10 * cap < p) || (a105 && decide (level < 31)) then (min 46 (level + 1), !a110 && !(a105 && decide (level < 31)))
  else if !a103 && decide (p + 50 ≤ 10 * cap) then (level - 1, false)
  else (level, false)

/-- The effective cap of R459. -/
def Thm.effCap (t : Thm) : Nat := if t.flowLoss then 120 else t.capNow

/-- The end of an interval (R459, R460). -/
def State.govern (s : State) (p : Nat) : State :=
  let t := s.thm
  let g := govLevel t.nextLevel p t.effCap ((fins 33).any (fun d => (t.dies[d]).a103)) t.throttle t.scale
  let alone := g.2 && t.nextLevel == 0
  let s := { s with thm := { t with
    power := BitVec.ofNat 16 p, nextLevel := g.1, capNow := t.cap,
    limitArmed := if alone then false else t.limitArmed || g.1 == 0 } }
  if alone && t.limitArmed then s.log evPowerLimit (detail 0 (t.effCap * 65536 + p)) acSensor else s

/-! Flow inference (R461). -/

/-- FLOW, FACTOR and FLOW_EN of FLOW_CFG (R463). -/
def Thm.cfgFlow (t : Thm) : Nat := fieldN t.flowCfg 24 8
def Thm.cfgFactor (t : Thm) : Nat := fieldN t.flowCfg 16 8
def Thm.flowEn (t : Thm) : Bool := bit t.flowCfg 0
/-- Both port sensors work. -/
def Thm.portsWork (t : Thm) : Bool := t.sensors[160].valid && !t.sensors[160].failed && t.sensors[161].valid && !t.sensors[161].failed
/-- Inlet, outlet and rise in 1/16 K. -/
def Thm.inlet (t : Thm) : Int := t.sensors[160].temp
def Thm.rise (t : Thm) : Int := t.sensors[161].temp - t.sensors[160].temp
/-- The rise in 0.1 K, to the nearest, at most `top`. -/
def Thm.rise10 (t : Thm) (top : Nat) : Nat := min top ((t.rise * 10 + 8) / 16).toNat
/-- Cause 1: the rise exceeds FACTOR times the expected rise, plus 1 K, for P in 0.1 W. -/
def Thm.riseBad (t : Thm) (p : Nat) : Bool :=
  decide (((t.cfgFactor * p * 1527 : Nat) : Int) < (t.rise - 16) * 50000 * ((t.cfgFlow : Nat) : Int))
/-- Cause 2: the inlet lies outside 15-45 °C. -/
def Thm.inletBad (t : Thm) : Bool := decide (t.inlet < 240) || decide (720 < t.inlet)

/-- The estimated flow in 0.01 L/min; where the rise is not positive no value is stated (log entry 3). -/
def State.flowEst (s : State) (p : Nat) : Nat :=
  let t := s.thm
  if !t.flowEn || !t.portsWork then 0
  else if t.rise ≤ 0 then (s.freeByte).toNat
  else
    let d := 10000 * t.rise.toNat
    min 255 ((p * 1527 * 16 + d / 2) / d)

/-- THM.FLOW after an interval. -/
def State.flowWord (s : State) (p : Nat) : W32 :=
  let t := s.thm
  at32 24 (degC t.inlet) ||| at32 16 (degC t.sensors[161].temp) ||| at32 8 (t.rise10 255) ||| at32 0 (s.flowEst p)

/-- FLOW_LOSS ends and its runs restart. -/
def Thm.flowClear (t : Thm) : Thm := { t with flowLoss := false, run1 := 0, run2 := 0, runClear := 0 }

/-- The comparison at the end of an interval (R461). -/
def State.flowCheck (s : State) (p : Nat) : State :=
  let s := ({ s with thm := { s.thm with flow := s.flowWord p } }).bump
  let t := s.thm
  if !t.flowEn then { s with thm := t.flowClear }
  else if p < 400 || !t.portsWork then s
  else
    let c1 := t.riseBad p
    let c2 := t.inletBad
    let t := { t with run1 := if c1 then t.run1 + 1 else 0, run2 := if c2 then t.run2 + 1 else 0,
                      runClear := if c1 || c2 then 0 else t.runClear + 1 }
    if t.flowLoss then { s with thm := if 16 ≤ t.runClear then { t with flowLoss := false } else t }
    else if 16 ≤ t.run1 || 16 ≤ t.run2 then
      ({ s with thm := { t with flowLoss := true } }).log evFlowLoss
        (detail 0 ((if 16 ≤ t.run1 then 1 else 2) * 268435456 + degC t.inlet * 65536 + t.rise10 65535)) acSensor
    else { s with thm := t }

/-- GOVERNOR_INTERVAL (R459, R461): P of the interval, in 0.1 W. -/
def execGovernorInterval (power : BitVec 16) (s : State) : Res := .next ((s.govern power.toNat).flowCheck power.toNat)

/-! The THM registers (R463). -/

/-- THM.STATUS. -/
def Thm.status (t : Thm) : W32 :=
  at32 31 (b2n t.tripped) ||| at32 30 (b2n t.flowLoss) ||| at32 29 (b2n t.southHot) ||| at32 28 (b2n t.northHot) |||
  at32 27 (b2n t.scale) ||| at32 26 (b2n t.throttle) ||| at32 8 t.maxTemp.toNat ||| at32 0 t.maxDie.toNat

/-- THM.GOV: the quantities of the level in force (R457). -/
def Thm.gov (t : Thm) : W32 :=
  let l := t.level
  at32 31 (b2n (govBorrowOff l)) ||| at32 20 (govBeQuiet l) ||| at32 16 (govGuarQuiet l) ||| at32 8 (govEngRate l) ||| at32 0 l

/-- Read of a THM register. -/
def Thm.read (t : Thm) (o : Nat) : W32 :=
  match o with
  | 0x00 => t.status
  | 0x04 => at32 16 t.cap ||| at32 0 t.power.toNat
  | 0x08 => t.gov
  | 0x0C => t.flow
  | 0x10 => t.flowCfg
  | 0x14 => t.tripLast
  | _ =>
    match (fins 162).find? (fun i => o == 0x100 + 4 * i.val) with
    | some i => let x := t.sensors[i]; if x.valid then at32 31 1 ||| at32 30 (b2n x.failed) ||| (BitVec.ofInt 16 x.temp).setWidth 32 else 0
    | none => 0

/-- Write of a THM register by CC0-CC3: FLOW_CFG; reserved bits stay 0 (R8, R463). -/
def Thm.write (t : Thm) (core : Bool) (o : Nat) (v : W32) : Thm :=
  if core && o == 0x10 && decide (4 ≤ fieldN v 24 8) && decide (fieldN v 24 8 ≤ 12) && decide (9 ≤ fieldN v 16 8) && decide (fieldN v 16 8 ≤ 32) then
    let t := { t with flowCfg := v &&& 0xFFFF0001#32 }
    if bit v 0 then t else t.flowClear
  else t

end Sys2Proof.Machine
end

