-- ==== Sys2Proof/Machine/Time.lean ====
section
/-! DEFINITION. The passing of strobes: what the stack does on its own in each strobe, and the events that time brings (R42, R57, R75,
R79, R82, R89, R209, R214, R223; log entry 47). -/

namespace Sys2Proof.Machine

/-- The transfer whose data strobe is the present one crosses cleanly, where no command has let it cross with errors (R42). -/
def State.flowCross (s : State) (ch : Fin 64) : State :=
  match s.chs[ch].ctl.issued.find? (fun x => x.slot == s.strobe) with
  | none => s
  | some x =>
    match x.cmd with
    | .ra row false => s.rowArrives ch x row 0 0 0
    | .ra row true => s.scrubArrives ch x row 0 0 0
    | .wm row mask => s.wmCrosses ch x row mask 0 0
    | .sts l => (s.crossed ch x).statusReturns ch l x.slot 0 0
    | .tlr l => s.latchReturns ch x l [] 0
    | _ => s.crossed ch x

/-- A hold whose length has passed ends with nothing found, where no command has ended it (R57). -/
def State.flowHold (s : State) (ch : Fin 64) : State :=
  match s.holdOver ch with
  | none => s
  | some h =>
    let w := s.chs[ch].tsv.ageNow
    s.retrainEnds ch h false [] { stress := w.extractLsb' 16 16, ref := w.extractLsb' 0 16 }

/-- REFs fall due on the grid of a channel that refreshes. The spec leaves open where the grid of a channel starts: 30 strobes apart for
the channels of a tower, so that their REFs do not meet (DESIGN CHOICE, log entry 16). -/
def State.flowRefresh (s : State) (ch : Fin 64) : State :=
  if !(s.chs[ch]).refreshes then s
  else match s.chs[ch].ctl.lastRefDue with
    | none => s.modCtl ch (fun c => { c with lastRefDue := some (s.strobe + 30 * (ch.val % 32)) })
    | some l =>
      let d := l + s.refInterval ch
      if d ≤ s.strobe then s.modCtl ch (fun c => { c with lastRefDue := some d, refDue := c.refDue ++ [d] }) else s

/-- The maintenance slot twelve strobes ahead takes its work, where no command has decided it (R75, R82). -/
def State.flowMaint (s : State) (ch : Fin 64) : State :=
  let k := s.strobe + 12
  let c := s.chs[ch]
  let off := match c.ctl.state with | .run | .hold | .draining => c.tsv.offline | _ => true
  if off || !(s.rbtAt ch k).isMaint k || decide (k ≤ c.ctl.lastMaint) then s
  else (s.modCtl ch (fun x => { x with lastMaint := k })).maintain ch k

/-- The command chosen for the slot four strobes ahead goes out, where no command has sent it with errors (R42). -/
def State.flowIssue (s : State) (ch : Fin 64) : State :=
  match (s.chs[ch].ctl).dueCmd s.strobe with
  | none => s
  | some x => s.issueCmd ch x 0

/-- A write that waits for the write queue enters it, and a drain moves on (R72, R89). -/
def State.flowQueue (s : State) (ch : Fin 64) : State := (s.admitOne ch).drainAdvance ch

/-- What a strobe does in every channel on its own. -/
def State.flow (s : State) : State :=
  let s := (fins 64).foldl State.flowCross s
  let s := (fins 64).foldl State.flowHold s
  let s := (fins 64).foldl State.flowRefresh s
  let s := if s.slot < s.strobe + 12 then s.schedule (s.strobe + 12) else s
  let s := (fins 64).foldl State.flowMaint s
  let s := (fins 64).foldl State.flowIssue s
  let s := (fins 64).foldl State.laneStrobe s
  (fins 64).foldl State.flowQueue s

/-- The microprogram that CTL_SEQ_STATUS shows once a strobe has passed (R88): those that take command strobes only have ended,
STATUS_POLL ends with its result, and the repairs of STARTING are followed by the connection test (DEDUCED, log entry 109). -/
def Ctl.programNext (c : Ctl) : Nat :=
  match c.program with
  | 1 => 2
  | 8 => if c.issued.any isSts then 8 else 0
  | 6 | 0xB | 0xC => 0
  | p => p

/-- An item at the switch of District k waits for a credit of the Plaza (R253). -/
def State.upStalled (s : State) (k : Fin 8) : Bool :=
  s.reqPlane.any (fun c => c.spot == some (.sw k) && c.todo.head? == some .plaza) ||
  s.mports.toList.any (fun p => p.inflight.any (fun c => c.spot == some (.sw k) && c.todo.head? == some .plaza))

/-- One strobe of 4 ns passes: what it brings happens, its slot is counted, then the next strobe's refill and boundary fall due. -/
def State.elapse1 (s0 : State) : State :=
  let s := s0.advance.flow
  let s := { s with dist := Vector.ofFn (fun k : Fin 8 =>
    if s.upStalled k then { s.dist[k] with swUpStall := satAdd s.dist[k].swUpStall 1 } else s.dist[k]) }
  let k := s0.strobe
  let s := s.mapChs (fun n c => { c.countSlot k with
    tsv := c.tsv.strobe k (s.distPowered (distOf n)), ctl := { (c.countSlot k).ctl with program := c.ctl.programNext } })
  let s := { s with
    strobe := k + 1, pending := s0.pending,
    kerbs := s.kerbs.map Kerb.countHeld, engs := { s.engs with eng := s.engs.eng.map Engine.stall },
    fab := if s.dieInReset then s.fab else { s.fab with time := s.fab.time + 4 },
    flt := if s.dieInReset then { s.flt with time := s.flt.time + 4 } else s.flt }
  let s := s.offlineCommands
  let s := if (k + 1) % 16 = 0 then s.refillAll else s
  let s := if (k + 1) % 256 = 0 then s.boundary else s
  { s with strobe := k + 1, pending := s0.pending }

/-- Strobes pass. -/
def State.elapse (s : State) : Nat → State
  | 0 => s
  | n + 1 => s.elapse1.elapse n

/-- KERB_REFILL (R223): the time up to the next strobe with s mod 16 = 0 passes. -/
def execKerbRefill (s : State) : Res := .next (s.elapse (16 - s.strobe % 16))

/-- REVOLUTION_BOUNDARY (R209-R214, R220): the time up to the next strobe with s mod 256 = 0 passes. -/
def execRevolutionBoundary (s : State) : Res := .next (s.elapse (256 - s.strobe % 256))

end Sys2Proof.Machine
end

