-- ==== Sys2Proof/Machine/Flags.lean ====
section
/-! DEFINITION. The words of flags, levels and counts that registers read, and what a read clears (R6, R471; the field
tables of R62, R91, R120, R154, R189, R252, R363, R407, R466). -/

namespace Sys2Proof.Machine

/-! Reads of a channel slice (R62, R91, R120, R154, R189). -/

/-- A word of two 16-bit fields. -/
def two16 (hi lo : BitVec 16) : W32 := hi ++ lo

/-- Read of a TSV register (R62). -/
def Channel.tsvRead (c : Channel) (now o : Nat) : W32 :=
  let t := c.tsv
  match o with
  | 0x000 =>
    at32 30 c.tsvState ||| at32 29 (b2n t.clkSpare) ||| at32 28 (b2n (t.held now)) ||| at32 16 (c.sparesFree 0 160) |||
      at32 14 (c.sparesFree 160 2) ||| at32 12 (c.sparesFree 162 2) ||| at32 0 t.erasedCount
  | 0x004 => t.ctl
  | 0x010 => t.parityCount
  | 0x014 => t.parityLast
  | 0x018 => t.ageBase
  | 0x01C => t.ageNow
  | 0x020 => at32 0 (t.sinceTrain % 2 ^ 31)
  | 0x024 => t.holdCount
  | 0x028 => t.mapIndex.setWidth 32
  | 0x02C =>
    if 164 < t.mapIndex.toNat then 0
    else
      let x := t.spare t.mapIndex.toNat
      at32 31 (b2n x.used) ||| at32 30 (b2n x.inService) ||| at32 29 (b2n x.failed) ||| at32 0 (if t.mapIndex.toNat = 164 then 0 else x.pos)
  | 0x030 => t.eraseIndex.setWidth 32
  | 0x034 =>
    let e := t.erased t.eraseIndex.toNat
    at32 30 e.length ||| at32 14 (nth e 2 0) ||| at32 7 (nth e 1 0) ||| at32 0 (nth e 0 0)
  | 0x038 => t.deadLast
  | 0x03C => two16 t.sweeps t.transients
  | 0x040 => t.lostWrites
  | _ => 0

/-- Read of a CTL register (R91). -/
def State.ctlRead (s : State) (n : Fin 64) (o : Nat) : W32 :=
  let c := s.chs[n].ctl
  match o with
  | 0x400 =>
    at32 29 c.state.code ||| at32 28 (b2n (s.hotCh n)) ||| at32 27 (b2n (decide (512 ≤ c.logLoad))) ||| at32 26 (b2n c.recovery) |||
      at32 16 c.wq.length ||| at32 8 c.rqLevel
  | 0x404 => c.cfg
  | 0x408 => at32 20 (s.refInterval n) ||| at32 14 c.nextBank ||| at32 7 c.nextGroup
  | 0x40C => at32 28 (s.chs[n]).program ||| at32 16 c.lastLayer.toNat ||| c.stsCount.setWidth 32
  | 0x410 => two16 c.denyGuar c.denyOther
  | 0x414 => c.rcHits
  | 0x418 => c.rcMisses
  | 0x41C => c.wqFwd
  | 0x420 => c.wqCoalesce
  | 0x424 => at32 26 c.caLastConn.toNat ||| at32 22 c.caLastLayer.toNat ||| at32 8 c.lockouts.toNat
  | 0x428 => c.caCount
  | 0x42C => c.epoch.setWidth 32
  | 0x430 => c.lostLines
  | _ => 0

/-- ECC_REMAP_DATA of an entry (R120). -/
def remapWord (r : Remap) : W32 :=
  let poison := match r.content with | some l => linePoison l | none => false
  at32 31 1 ||| at32 30 (b2n poison) ||| (posWord (16 * r.row + r.line) >>> 2) ||| at32 3 (b2n r.origin)

/-- Read of an ECC register (R120). -/
def State.eccRead (s : State) (n : Fin 64) (o : Nat) : W32 :=
  let e := s.chs[n].ecc
  match o with
  | 0x800 => at32 30 s.scrub.fn.st.code ||| at32 29 (b2n e.initDone) ||| at32 23 e.remap.length ||| at32 22 (b2n e.remapFull)
  | 0x804 => setBit e.cfg 31 (s.chs[n].ctl.fill)
  | 0x808 => at32 0 e.pos
  | 0x80C => e.passes
  | 0x810 => e.ceCount
  | 0x814 => e.eraseCount
  | 0x818 => e.ueCount
  | 0x81C => e.lastCe
  | 0x820 => e.lastUe
  | 0x824 => two16 e.fixPoisoned e.fixFixed
  | 0x828 => e.remapCfg
  | 0x82C => e.remapIndex.setWidth 32
  | 0x830 => match smGet? e.remap e.remapIndex.toNat with | some r => remapWord r | none => 0
  | 0x834 => e.selftest
  | _ => 0

/-- Read of a CRY register (R154). -/
def State.cryRead (s : State) (n : Fin 64) (o : Nat) : W32 :=
  let c := s.chs[n].cry
  match o with
  | 0xC00 => at32 26 (s.walksOf n)
  | 0xC04 => c.cfg
  | 0xC08 => c.tagFail
  | 0xC0C => c.lastFail
  | 0xC10 => two16 c.deniedAccess c.deniedSticky
  | 0xC14 => c.walkCount
  | 0xC18 => c.sealedCount
  | _ => 0

/-- Work queue of the job that runs on an engine (R189). -/
def State.engQueue (s : State) (x : Engine) : Nat :=
  match x.run with
  | none => 0
  | some r => ((s.engs.jobs.find? (fun (j : Job) => j.id == r.job)).bind (fun j => j.queue)).getD 0

/-- Read of an ENG register (R189). -/
def State.engRegRead (s : State) (n : Fin 64) (o : Nat) : W32 :=
  let x := s.engs.eng[n]
  match o with
  | 0x1000 => at32 30 x.fn.st.code ||| at32 29 (b2n x.run.isSome) ||| at32 27 (min 3 x.pending.length) ||| at32 0 (s.engQueue x)
  | 0x1004 => x.cfg
  | 0x1008 => x.gen.setWidth 32
  | 0x100C => x.jobs
  | 0x1010 => x.rows
  | 0x1014 => x.values
  | 0x1018 => x.tileFaults
  | 0x101C => two16 x.stallRow x.stallOut
  | 0x1020 => x.lastFault
  | _ => 0

/-- Read of a CHS register. -/
def State.chsRead (s : State) (n : Fin 64) (o : Nat) : W32 :=
  if o < 0x400 then s.chs[n].tsvRead s.strobe o
  else if o < 0x800 then s.ctlRead n o
  else if o < 0xC00 then s.eccRead n o
  else if o < 0x1000 then s.cryRead n o
  else if o < 0x1200 then s.engRegRead n o
  else if o < 0x1400 then (s.kerbs[portEngine n]).read (o - 0x1200)
  else if o < 0x1800 then s.chs[n].rbt.read o
  else 0

/-! Reads of the other families. -/

/-- Bit k is 1 while Dist k is ON. -/
def State.distOnBits (s : State) : Nat := (fins 8).foldl (fun n k => n + (if s.distOn k then 2 ^ k.val else 0)) 0

/-- Read of a GLB register (R466, R252, R91, R407). -/
def State.glbRead (s : State) (o : Nat) : W32 :=
  let g := s.glb
  let b := s.boot
  match o with
  | 0x000 => at32 16 (deviceId g.variant) ||| at32 8 0x01 ||| at32 0 (variantByte g.variant)
  | 0x004 =>
    at32 29 (stateCode b.phase) ||| at32 28 (b2n s.fwRunning) ||| at32 27 (b2n s.flt.stopped) ||| at32 16 s.distOnBits |||
      at32 0 (countIf (fins 64) (fun n => s.chs[n].tsv.offline))
  | 0x008 => s.serial.setWidth 32
  | 0x00C => s.serial.extractLsb' 32 32
  | 0x0C0 => g.denied
  | 0x0C4 => g.lastDenied
  | 0x100 => at32 31 (b2n g.mapLock) ||| g.mapOrder.setWidth 32
  | 0x110 => g.nodeEpoch
  | 0x114 => g.lateCmp
  | 0x118 => g.synthCmp
  | 0x11C => g.cons.word
  | 0x200 => at32 16 0x400 ||| at32 0 (s.reqUsed .plaza)
  | 0x204 => at32 16 0x400 ||| at32 0 (s.cmpUsed .plaza)
  | 0x208 => at32 16 0x080 ||| at32 0 (s.mgtUsed .plaza)
  | 0x20C => g.plzFwd
  | 0x300 => b.straps.setWidth 32
  | 0x304 => at32 28 b.cause ||| at32 24 b.uvRail ||| b.warmCount.setWidth 32
  | 0x308 =>
    at32 29 (stateCode b.phase) ||| at32 28 (b2n b.verifyFail) ||| at32 27 (b2n b.loading) ||| at32 26 (b2n b.cxlPath) |||
      at32 25 (b2n b.i3cPath) ||| at32 24 (b2n b.scezoPath) ||| at32 23 (b2n b.fullTest) ||| at32 22 (b2n b.i3cRefused) ||| b.usable.setWidth 32
  | 0x30C => at32 0 b.size
  | 0x310 => b.readyTime
  | 0x314 => at32 9 (b2n b.ref1) ||| at32 8 (b2n b.ref0) ||| b.rails.setWidth 32
  | _ => if 0x40 ≤ o && o < 0xC0 then half (g.grants.toList.getD ((o - 0x40) / 8) 0) (o % 8 == 4) else 0

/-- Read of a CMD register (R363). -/
def State.cmdRead (s : State) (o : Nat) : W32 :=
  let c := s.cmd
  match o with
  | 0x0000 => at32 29 (stateCode s.boot.phase) ||| at32 28 (b2n c.ringsReady) ||| at32 0 c.queues.length
  | 0x0010 => c.dbReject
  | 0x0014 => c.dbLast
  | 0x0018 => c.dispatched
  | 0x001C => c.refused
  | 0x0850 => at32 31 (b2n c.go) ||| at32 30 (b2n c.done) ||| c.issuer.setWidth 32
  | 0x1000 => c.wqSel.setWidth 32
  | _ =>
    if 0x100 ≤ o && o < 0x500 then (c.rings.toList.getD ((o - 0x100) / 0x20) {}).read (o % 0x20)
    else if 0x800 ≤ o && o < 0x840 then c.pkt.toList.getD ((o - 0x800) / 4) 0
    else if 0x840 ≤ o && o < 0x850 then c.reply.toList.getD ((o - 0x840) / 4) 0
    else if 0x1040 ≤ o && o < 0x1080 then
      match s.wq c.wqSel.toNat with
      | some x => ctxWord x ((o - 0x1040) / 4)
      | none => 0
    else if 0x8000 ≤ o && o < 0x8800 then
      (s.kerbs[portCore ⟨(o - 0x8000) / 0x200 % 4, Nat.mod_lt _ (by decide)⟩]).read ((o - 0x8000) % 0x200)
    else if 0x20000 ≤ o && o < 0x40000 then
      match s.doorbellQueue ((o - 0x20000) / 4) with
      | some (_, x) => x.tail
      | none => 0
    else 0

/-- Read of a PORT register (R273, R309, R231). -/
def State.portRead (s : State) (p : Fin 64) (o : Nat) : W32 :=
  if o < 0x400 then s.laneRead p o
  else if o < 0x800 then (s.subAt { port := p, sub := ⟨(o - 0x400) / 0x100 % 4, Nat.mod_lt _ (by decide)⟩ }).llRead (o % 0x100)
  else if 0xE00 ≤ o && o < 0x1000 then (s.kerbs[portLink p]).read (o - 0xE00)
  else 0

/-- What a window location holds now; an unassigned location reads 0 (R465). MBX has its own rules (R367). -/
def State.regValue (s : State) (off : Nat) : W32 :=
  match familyOf off with
  | (.glb, o) => s.glbRead o
  | (.fuse, o) => s.fuseRead o
  | (.flt, o) => s.flt.read o
  | (.thm, o) => s.thm.read o
  | (.cmd, o) => s.cmdRead o
  | (.chs n, o) => s.chsRead n o
  | (.dist k, o) => s.distRead k o
  | (.port p, o) => s.portRead p o
  | (.host h, o) => if 0xE00 ≤ o && o < 0x1000 then (s.kerbs[portHost h]).read (o - 0xE00) else s.hostRead h o
  | (.fab, o) => s.fabRead o
  | (.key, o) => s.keyRead o
  | (.pat, o) => if o / 4 < s.glb.variant.pages then s.patRaw (o / 4) else 0
  | (.mbx, _) | (.none, _) => 0

/-! What a read clears (R6, R471). -/

/-- RC fields of a channel slice. -/
def State.chsClear (s : State) (n : Fin 64) (o : Nat) : State :=
  match o with
  | 0x010 => s.modTsv n (fun t => { t with parityCount := 0 })
  | 0x024 => s.modTsv n (fun t => { t with holdCount := 0 })
  | 0x040 => s.modTsv n (fun t => { t with lostWrites := 0 })
  | 0x410 => s.modCtl n (fun c => { c with denyGuar := 0, denyOther := 0 })
  | 0x414 => s.modCtl n (fun c => { c with rcHits := 0 })
  | 0x418 => s.modCtl n (fun c => { c with rcMisses := 0 })
  | 0x41C => s.modCtl n (fun c => { c with wqFwd := 0 })
  | 0x420 => s.modCtl n (fun c => { c with wqCoalesce := 0 })
  | 0x428 => s.modCtl n (fun c => { c with caCount := 0 })
  | 0x430 => s.modCtl n (fun c => { c with lostLines := 0 })
  | 0x810 => s.modEcc n (fun e => { e with ceCount := 0 })
  | 0x814 => s.modEcc n (fun e => { e with eraseCount := 0 })
  | 0x818 => s.modEcc n (fun e => { e with ueCount := 0 })
  | 0x824 => s.modEcc n (fun e => { e with fixPoisoned := 0, fixFixed := 0 })
  | 0xC08 => s.modCry n (fun c => { c with tagFail := 0 })
  | 0xC10 => s.modCry n (fun c => { c with deniedAccess := 0, deniedSticky := 0 })
  | 0xC14 => s.modCry n (fun c => { c with walkCount := 0 })
  | 0xC18 => s.modCry n (fun c => { c with sealedCount := 0 })
  | 0x100C => s.modEng n (fun x => { x with jobs := 0 })
  | 0x1010 => s.modEng n (fun x => { x with rows := 0 })
  | 0x1014 => s.modEng n (fun x => { x with values := 0 })
  | 0x1018 => s.modEng n (fun x => { x with tileFaults := 0 })
  | 0x101C => s.modEng n (fun x => { x with stallRow := 0, stallOut := 0 })
  | _ => if 0x1200 ≤ o && o < 0x1400 then s.modKerb (portEngine n) (fun k => k.clearRead (o - 0x1200)) else s

/-- RC fields of GLB (R252, R471). -/
def Glb.clear (g : Glb) (o : Nat) : Glb :=
  match o with
  | 0x0C0 => { g with denied := 0 }
  | 0x114 => { g with lateCmp := 0 }
  | 0x118 => { g with synthCmp := 0 }
  | 0x20C => { g with plzFwd := 0 }
  | _ => g

/-- RC fields of CMD (R363). -/
def Cmd.clear (c : Cmd) (o : Nat) : Cmd :=
  match o with
  | 0x0010 => { c with dbReject := 0 }
  | 0x0018 => { c with dispatched := 0 }
  | 0x001C => { c with refused := 0 }
  | _ => c

/-- The clearing effect of a read by a master with WRITE or CORE. -/
def State.regClear (s : State) (off : Nat) : State :=
  match familyOf off with
  | (.glb, o) => { s with glb := s.glb.clear o }
  | (.flt, o) => { s with flt := s.flt.clearRead o }
  | (.cmd, o) =>
    if 0x8000 ≤ o && o < 0x8800 then
      s.modKerb (portCore ⟨(o - 0x8000) / 0x200 % 4, Nat.mod_lt _ (by decide)⟩) (fun k => k.clearRead ((o - 0x8000) % 0x200))
    else { s with cmd := s.cmd.clear o }
  | (.chs n, o) => s.chsClear n o
  | (.dist k, o) =>
    if o = 0x20 then s.modDist k (fun d => { d with swFwd := 0 })
    else if o = 0x24 then s.modDist k (fun d => { d with swUpStall := 0 })
    else s
  | (.port p, o) =>
    if o < 0x400 then s.modPort p (fun x => x.laneClear o)
    else if o < 0x800 then
      s.modSub { port := p, sub := ⟨(o - 0x400) / 0x100 % 4, Nat.mod_lt _ (by decide)⟩ } (fun u => u.llClear (o % 0x100))
    else if 0xE00 ≤ o then s.modKerb (portLink p) (fun k => k.clearRead (o - 0xE00))
    else s
  | (.host h, o) => if 0xE00 ≤ o then s.modKerb (portHost h) (fun k => k.clearRead (o - 0xE00)) else s.modHost h (fun x => x.clear o)
  | (.fab, o) => { s with fab := s.fab.clear o }
  | (.key, o) => { s with sec := s.sec.keyClear o }
  | (.fuse, _) | (.thm, _) | (.pat, _) | (.mbx, _) | (.none, _) => s

end Sys2Proof.Machine
end

