-- ==== Sys2Proof/Machine/Window.lean ====
section
/-! DEFINITION. The management window (19_register_map): reads, writes, the latches of each path, and the commands
that access the window. -/

namespace Sys2Proof.Machine

/-! Latches (R475, R448). -/

/-- The latches of a path. -/
def State.latchOf (s : State) (p : Path) : PathLatch := ((s.latches.find? (fun x => x.1 == p)).map (fun x => x.2)).getD {}
/-- Change the latches of a path. -/
def State.setLatch (s : State) (p : Path) (f : PathLatch → PathLatch) : State :=
  { s with latches := (p, f (s.latchOf p)) :: s.latches.filter (fun x => x.1 != p) }

/-- The location is the LO half of a 64-bit register. -/
def isLo (off : Nat) : Bool :=
  off % 8 == 0 &&
  (match familyOf off with
   | (.glb, o) => o == 0x008 || (0x40 ≤ o && o < 0xC0)
   | (.cmd, o) => 0x8000 ≤ o && o < 0x8800 && 0x180 ≤ o % 0x200
   | (.chs _, o) => (0x1380 ≤ o && o < 0x1400) || (0x1418 ≤ o && o < 0x1438) || (0x1600 ≤ o && o < 0x1800)
   | (.port _, o) => 0xF80 ≤ o && o < 0x1000
   | (.host _, o) => o == 0x008 || (0xF80 ≤ o && o < 0x1000)
   | (.fab, o) => o < 0x8000 || o == 0x8010
   | _ => false)

/-- The fault record that a location belongs to: window offset of its word 0 and the record. -/
def State.recordHere (s : State) (off : Nat) : Option (Nat × BitVec 256) :=
  match familyOf off with
  | (.flt, o) => (s.flt.recordAt o).map (fun r => (r.1 + 0x020000, r.2))
  | _ => none

/-- What a read over a path returns: the latched half or word where the path has latched it, else the current value. -/
def State.latchedValue (s : State) (p : Path) (off : Nat) : W32 :=
  let l := s.latchOf p
  match s.recordHere off, l.frec with
  | some (b, _), some (b', r) => if b = b' && off ≠ b then r.extractLsb' (8 * (off - b)) 32 else s.regValue off
  | some _, none => s.regValue off
  | none, _ =>
    if 4 ≤ off && isLo (off - 4) then
      match l.rd with
      | some (o, hi) => if o + 4 = off then hi else s.regValue off
      | none => s.regValue off
    else s.regValue off

/-- A read of a LO half, or of word 0 of a fault record, latches the rest for its path. -/
def State.takeLatch (s : State) (p : Path) (off : Nat) : State :=
  if isLo off then s.setLatch p (fun l => { l with rd := some (off, s.regValue (off + 4)) })
  else match s.recordHere off with
    | some (b, r) => if off = b then s.setLatch p (fun l => { l with frec := some (b, r) }) else s
    | none => s

/-! A read and a write of the window. -/

/-- A read that the rights allow, of a block that is on. -/
def State.readOpen (s : State) (p : Path) (m : MasterId) (off : Nat) : State × W32 × CStatus :=
  match familyOf off with
  | (.mbx, o) => s.mbxFamRead p m o
  | _ =>
    let r := s.rights p m
    let v := s.latchedValue p off
    let t := s.takeLatch p off
    (if r.write || r.core then t.regClear off else t, v, .ok)

/-- A 32-bit read of the window by a master over a path: the state, the word, the completion status (R464-R475). -/
def State.readReg (s : State) (p : Path) (m : MasterId) (off : Nat) : State × W32 × CStatus :=
  if 0x1000000 ≤ off || !s.reaches p off then (s, 0, .ok)
  else if off % 4 ≠ 0 then (s.deny p m false, 0, .notPermitted)
  else match s.readAccess p m off with
    | .ok => s.readOpen p m off
    | .denied => (s.deny p m false, 0, .notPermitted)
    | .down => (s, 0, .domainDown)
    | .absent => (s, 0, .ok)

/-- A write of GLB.ADDR_MAP (R64, R91): ORDER until LOCK reads 1; LOCK set by a CORE master (R469). -/
def Glb.mapWrite (g : Glb) (core : Bool) (v : W32) : Glb :=
  { g with mapOrder := if g.mapLock then g.mapOrder else v.setWidth 2, mapLock := g.mapLock || (core && bit v 31) }

/-- A write of a half of GLB.MGMT_GRANT[i] (R468, R475): LO is held in the path's latch, and HI after it writes all 64 bits. -/
def State.grantWrite (s : State) (p : Path) (off : Nat) (v : W32) : State :=
  if off % 8 = 0 then s.setLatch p (fun l => { l with wr := some (off, v) })
  else match (s.latchOf p).wr with
    | some (o, lo) =>
      if o + 4 = off then
        let t := s.setLatch p (fun l => { l with wr := none })
        let w : W64 := (v ++ lo) &&& 0xE00000FFFFFFFFFF#64
        { t with glb := { t.glb with grants := t.glb.grants.setIfInBounds ((o - 0x40) / 8) w } }
      else s
    | none => s

/-- Write of a GLB register. -/
def State.glbWrite (s : State) (p : Path) (core : Bool) (o : Nat) (v : W32) : State :=
  if 0x40 ≤ o && o < 0xC0 then s.grantWrite p o v
  else match o with
    | 0x100 => { s with glb := s.glb.mapWrite core v }
    | 0x11C => if bit v 31 then s.consStart else s
    | 0x308 => if bit v 22 then { s with boot := { s.boot with i3cRefused := false } } else s
    | _ => s

/-- Write of a TSV register (R62). -/
def State.tsvWrite (s : State) (n : Fin 64) (o : Nat) (v : W32) : State :=
  match o with
  | 0x004 => s.modTsv n (fun t => { t with ctl := v &&& 0xF0FFFF00#32 })
  | 0x008 =>
    s.modTsv n (fun t =>
      let t := if bit v 2 then { t with injParity := true } else t
      let t := if bit v 1 then { t with sweepPos := 0, walkDue := true, walkRevs := 0 } else t
      if bit v 0 then t.askRetrain .incremental else t)
  | 0x028 => s.modTsv n (fun t => { t with mapIndex := v.setWidth 8 })
  | 0x030 => s.modTsv n (fun t => { t with eraseIndex := v.setWidth 4 })
  | _ => s

/-- Write of a CTL register (R91). -/
def State.ctlWrite (s : State) (n : Fin 64) (o : Nat) (v : W32) : State :=
  match o with
  | 0x404 =>
    if fieldN v 24 8 ≤ fieldN v 16 8 || 124 < fieldN v 24 8 then s else s.modCtl n (fun c => Ctl.trim { c with cfg := v &&& 0xFFFFFFC0#32 })
  | 0x434 => s.modCtl n (fun c => { c with injUncorr := c.injUncorr || bit v 1, injCorr := c.injCorr || bit v 0 })
  | _ => s

/-- Write of an ECC register (R120). -/
def State.eccWrite (s : State) (n : Fin 64) (o : Nat) (v : W32) : State :=
  match o with
  | 0x800 => if bit v 22 then s.modEcc n (fun e => { e with remapFull := false }) else s
  | 0x804 =>
    if 8 < fieldN v 24 4 || 4 < fieldN v 20 4 then s
    else
      let s := s.modEcc n (fun e => { e with cfg := v &&& 0x0FF0FFFF#32 })
      if bit v 31 then s.startFill n else s
  | 0x828 =>
    if fieldN v 30 2 = 3 || fieldN v 27 3 = 0 || 4 < fieldN v 27 3 then s
    else s.modEcc n (fun e => { e with remapCfg := v &&& 0xF8000000#32 })
  | 0x82C => s.modEcc n (fun e => { e with remapIndex := v.setWidth 5 })
  | 0x838 => s.modEcc n (fun e => e.arm v)
  | _ => s

/-- Write of a CRY register (R154). -/
def State.cryWrite (s : State) (n : Fin 64) (o : Nat) (v : W32) : State :=
  match o with
  | 0xC04 => s.modCry n (fun c => { c with cfg := v &&& 0x80000000#32 })
  | 0xC1C => s.modCry n (fun c => { c with injCtr := c.injCtr || bit v 1, injData := c.injData || bit v 0 })
  | _ => s

/-- Write of an ENG register (R189). -/
def State.engRegWrite (s : State) (n : Fin 64) (o : Nat) (v : W32) : State :=
  match o with
  | 0x1004 =>
    if fieldN v 24 8 < 128 || 224 < fieldN v 24 8 then s else s.modEng n (fun x => { x with cfg := v &&& 0xFF800000#32 })
  | 0x1024 => if bit v 0 then s.modEng n (fun x => { x with injFormat := true }) else s
  | _ => s

/-- Write of a CHS register; `core`: the writer is one of CC0-CC3 (R211, R231). -/
def State.chsWrite (s : State) (core : Bool) (n : Fin 64) (o : Nat) (v : W32) : State :=
  if o < 0x400 then s.tsvWrite n o v
  else if o < 0x800 then s.ctlWrite n o v
  else if o < 0xC00 then s.eccWrite n o v
  else if o < 0x1000 then s.cryWrite n o v
  else if o < 0x1200 then s.engRegWrite n o v
  else if !core then s
  else if o < 0x1400 then s.krbWrite (portEngine n) (o - 0x1200) v
  else if o < 0x1800 then s.modRbt n (fun r => r.write o v)
  else s

/-- Write of a CMD register (R363, R231). -/
def State.cmdWrite (s : State) (p : Path) (m : MasterId) (o : Nat) (v : W32) : State :=
  let core := isCore p m
  if 0x100 ≤ o && o < 0x500 then
    let r : Fin 32 := ⟨(o - 0x100) / 0x20 % 32, Nat.mod_lt _ (by decide)⟩
    match o % 0x20 with
    | 0x00 => if core then s.ringCfgWrite r v else s
    | 0x04 => if core then s.ringPermWrite r v else s
    | 0x08 => s.ringDb p m r v
    | _ => s
  else if 0x800 ≤ o && o < 0x840 then
    if s.cmd.go then s else { s with cmd := { s.cmd with pkt := s.cmd.pkt.setIfInBounds ((o - 0x800) / 4) v } }
  else if o = 0x850 then (if bit v 31 then s.directGo p m else s)
  else if o = 0x1000 then { s with cmd := { s.cmd with wqSel := v.setWidth 15 } }
  else if 0x8000 ≤ o && o < 0x8800 then
    if core then s.krbWrite (portCore ⟨(o - 0x8000) / 0x200 % 4, Nat.mod_lt _ (by decide)⟩) ((o - 0x8000) % 0x200) v else s
  else if 0x20000 ≤ o && o < 0x40000 then s.wqDb p m ((o - 0x20000) / 4) v
  else s

/-- Write of a PORT register (R273, R309, R231). -/
def State.portWrite (s : State) (core : Bool) (q : Fin 64) (o : Nat) (v : W32) : State :=
  if o < 0x400 then s.laneWrite core q o v
  else if !core then s
  else if o < 0x800 then s.llWrite { port := q, sub := ⟨(o - 0x400) / 0x100 % 4, Nat.mod_lt _ (by decide)⟩ } (o % 0x100) v
  else if 0xE00 ≤ o then s.krbWrite (portLink q) (o - 0xE00) v
  else s

/-- A write that the rights allow, of a block that is on. -/
def State.writeOpen (s : State) (p : Path) (m : MasterId) (off : Nat) (v : W32) : State × CStatus :=
  let core := isCore p m
  match familyOf off with
  | (.glb, o) => (s.glbWrite p core o v, .ok)
  | (.flt, o) => (s.fltWrite core m o v, .ok)
  | (.mbx, o) => s.mbxFamWrite p m o v
  | (.thm, o) => ({ s with thm := s.thm.write core o v }, .ok)
  | (.cmd, o) => (s.cmdWrite p m o v, .ok)
  | (.chs n, o) => (s.chsWrite core n o v, .ok)
  | (.port q, o) => (s.portWrite core q o v, .ok)
  | (.host h, o) => (if core && 0xE00 ≤ o then s.krbWrite (portHost h) (o - 0xE00) v else s, .ok)
  | (.fab, o) => (if core then { s with fab := s.fab.write o v } else s, .ok)
  | (.key, o) => ({ s with sec := s.sec.keyWrite o v }, .ok)
  | (.pat, _) => (s, .notPermitted)
  | (.fuse, _) | (.dist _, _) | (.none, _) => (s, .ok)

/-- A 32-bit write of the window by a master over a path: the state and the completion status (R464-R475). -/
def State.writeReg (s : State) (p : Path) (m : MasterId) (off : Nat) (v : W32) : State × CStatus :=
  if 0x1000000 ≤ off || !s.reaches p off then (s, .ok)
  else if off % 4 ≠ 0 then (s.deny p m true, .notPermitted)
  else match s.writeAccess p m off with
    | .ok => s.writeOpen p m off v
    | .denied => (s.deny p m true, .notPermitted)
    | .down => (s, .domainDown)
    | .absent => (s, .ok)

/-! The commands. -/

/-- CLEARING_READ (R471): a read of an RC register or field over a path. -/
def execClearingRead (p : Path) (m : MasterId) (off : BitVec 24) (s : State) : Res :=
  let r := s.readReg p m off.toNat
  .next (r.1.emit (.readData p r.2.1))

/-- LO_READ_LATCH (R475): a read of the LO half of a 64-bit register, or of word 0 of a fault record. -/
def execLoReadLatch (p : Path) (m : MasterId) (off : BitVec 24) (s : State) : Res :=
  let r := s.readReg p m off.toNat
  .next (r.1.emit (.readData p r.2.1))

/-- REGISTER_WRITE (R469). -/
def execRegisterWrite (p : Path) (m : MasterId) (off : BitVec 24) (value : W32) (s : State) : Res :=
  .next (s.writeReg p m off.toNat value).1

/-- ADDR_MAP_LOCK (R64): a write of GLB.ADDR_MAP with LOCK set. -/
def execAddrMapLock (p : Path) (m : MasterId) (order : BitVec 2) (s : State) : Res :=
  .next (s.writeReg p m 0x100 (0x80000000#32 ||| order.setWidth 32)).1

/-- TILE_FORMAT_INJECT (R189). -/
def execTileFormatInject (p : Path) (m : MasterId) (e : Fin 64) (s : State) : Res :=
  .next (s.guardWrite p m (offChs e 0x1024) (fun s => s.modEng e (fun x => { x with injFormat := true })))

/-- BAR2_ACCESS (R315, R474): an access of `bytes` bytes under the port's identity: 32 bits, or an aligned 64 bits as two
accesses. A read completes with its data; any other width, and a misaligned access, is denied. -/
def execBar2Access (h : Fin 8) (write : Bool) (off : BitVec 24) (value : W64) (bytes : Nat) (s : State) : Res :=
  if !(s.dieUp && (s.hosts[h]).linkUp && !(s.hosts[h]).d3hot) then .next s
  else
    let p := Path.host h
    let s := s.countFwd (if write then [.sw h, .plaza] else [.sw h, .plaza, .plaza, .sw h])
    let m := s.self h.val
    let o := off.toNat
    let quad := bytes == 8
    if (quad && o % 8 ≠ 0) || (bytes ≠ 4 && bytes ≠ 8) then
      let s := s.deny p m write
      .next (if write then s else s.emit (.cfgCpl h 0))
    else if write then
      let s := (s.writeReg p m o (value.setWidth 32)).1
      .next (if quad then (s.writeReg p m (o + 4) (value.extractLsb' 32 32)).1 else s)
    else
      let r := s.readReg p m o
      if quad then
        let r' := r.1.readReg p m (o + 4)
        .next (r'.1.emit (.cfgCpl h (r'.2.1 ++ r.2.1)))
      else .next (r.1.emit (.cfgCpl h (r.2.1.setWidth 64)))

/-- Window offset of a MGMT_RD or MGMT_WR (R288); an address below the window is unassigned. -/
def mgmtOff (h : Hdr) : Nat :=
  let a := fieldN h 64 40
  if a < 0xFF00000000 then 0x1000000 else a - 0xFF00000000

/-- MGMT_RD (R288, R470). -/
def execMgmtRd (l : SubLink) (msg : Msg) (s : State) : Res :=
  .next (s.atHome l msg mtMgmtRd (fun s =>
    let r := s.readReg (.scezo l.port l.sub) (hMaster msg.hdr) (mgmtOff msg.hdr)
    r.1.mgmtAnswer l msg.hdr r.2.2 r.2.1))

/-- MGMT_WR (R288, R470): the value is in bytes 0-3 of slot 1. -/
def execMgmtWr (l : SubLink) (msg : Msg) (s : State) : Res :=
  .next (s.atHome l msg mtMgmtWr (fun s =>
    let r := s.writeReg (.scezo l.port l.sub) (hMaster msg.hdr) (mgmtOff msg.hdr) ((nth msg.slots 0 0).setWidth 32)
    r.1.mgmtAnswer l msg.hdr r.2))

/-- MGMT_WRITE (R397). -/
def execMgmtWrite (offset : BitVec 24) (value : W32) (scl : Nat) (s : State) : Res :=
  if s.i3cServes then .next ((s.writeReg .i3c (s.self agentFuse) offset.toNat value).1.i3cStop scl) else .next s

/-- MGMT_READ (R397). -/
def execMgmtRead (offset : BitVec 24) (scl : Nat) (s : State) : Res :=
  if s.i3cServes then
    let r := s.readReg .i3c (s.self agentFuse) offset.toNat
    .next ((r.1.emit (.i3c (toBytes r.2.1 4))).i3cStop scl)
  else .next s

end Sys2Proof.Machine
end

