-- ==== Sys2Proof/Machine/Dispatch.lean ====
section
/-! DEFINITION. One arm per command: a direct call of its meaning. -/

namespace Sys2Proof.Machine

def exec (i : Instr) (s : State) : Host.Outcome State Fault Refusal :=
  match i with
  | .devIdentify c => Sys2Proof.Machine.execDevIdentify c s
  | .devStatus c select => Sys2Proof.Machine.execDevStatus c select s
  | .ringSet c ring log2 hostPort vector owner groups => Sys2Proof.Machine.execRingSet c ring log2 hostPort vector owner groups s
  | .mbxBind c channel a b => Sys2Proof.Machine.execMbxBind c channel a b s
  | .mbxLock c => Sys2Proof.Machine.execMbxLock c s
  | .fwBegin c size => Sys2Proof.Machine.execFwBegin c size s
  | .fwChunk c offset len data => Sys2Proof.Machine.execFwChunk c offset len data s
  | .fwCommit c => Sys2Proof.Machine.execFwCommit c s
  | .fwVerifyEnd => Sys2Proof.Machine.execFwVerifyEnd s
  | .keyLoadWrapped c slot addr => Sys2Proof.Machine.execKeyLoadWrapped c slot addr s
  | .keyErase c slot => Sys2Proof.Machine.execKeyErase c slot s
  | .keyQuery c slot => Sys2Proof.Machine.execKeyQuery c slot s
  | .pageSet c page entry => Sys2Proof.Machine.execPageSet c page entry s
  | .pageGet c page => Sys2Proof.Machine.execPageGet c page s
  | .pageRetire c page => Sys2Proof.Machine.execPageRetire c page s
  | .pageReserve c page => Sys2Proof.Machine.execPageReserve c page s
  | .pageRecordRead c => Sys2Proof.Machine.execPageRecordRead c s
  | .accessGroupSet c group index pattern => Sys2Proof.Machine.execAccessGroupSet c group index pattern s
  | .accessGroupGet c group index => Sys2Proof.Machine.execAccessGroupGet c group index s
  | .integrityConfig c code => Sys2Proof.Machine.execIntegrityConfig c code s
  | .pageClearSticky c page all => Sys2Proof.Machine.execPageClearSticky c page all s
  | .policyChangeComplete id => Sys2Proof.Machine.execPolicyChangeComplete id s
  | .classSetGuarantee c channels cls flags slots => Sys2Proof.Machine.execClassSetGuarantee c channels cls flags slots s
  | .classSetLimit c kerb cls rate burst => Sys2Proof.Machine.execClassSetLimit c kerb cls rate burst s
  | .classCountersSnapshot c page => Sys2Proof.Machine.execClassCountersSnapshot c page s
  | .queueCreate c queue flags log2 vector cls owner engines descBase cmplBase doorbell targetNode targetQueue => Sys2Proof.Machine.execQueueCreate c queue flags log2 vector cls owner engines descBase cmplBase doorbell targetNode targetQueue s
  | .queueDestroy c queue => Sys2Proof.Machine.execQueueDestroy c queue s
  | .queueDrained queue => Sys2Proof.Machine.execQueueDrained queue s
  | .fabEnumerate c => Sys2Proof.Machine.execFabEnumerate c s
  | .routeSet c node first count src => Sys2Proof.Machine.execRouteSet c node first count src s
  | .nodeDetach c node action => Sys2Proof.Machine.execNodeDetach c node action s
  | .timeSync c flags period time => Sys2Proof.Machine.execTimeSync c flags period time s
  | .fwPush c node image size => Sys2Proof.Machine.execFwPush c node image size s
  | .fabSealInit c => Sys2Proof.Machine.execFabSealInit c s
  | .segmentSet c first count entry stride => Sys2Proof.Machine.execSegmentSet c first count entry stride s
  | .isetSet c set members => Sys2Proof.Machine.execIsetSet c set members s
  | .fuseProgramWord c word value attempts => Sys2Proof.Machine.execFuseProgramWord c word value attempts s
  | .fuseLockRegion c region attemptsA attemptsB => Sys2Proof.Machine.execFuseLockRegion c region attemptsA attemptsB s
  | .fuseReadShadow c word => Sys2Proof.Machine.execFuseReadShadow c word s
  | .faultRead c select quad => Sys2Proof.Machine.execFaultRead c select quad s
  | .faultClear c what => Sys2Proof.Machine.execFaultClear c what s
  | .faultForce c source => Sys2Proof.Machine.execFaultForce c source s
  | .reactionSet c first count reaction restore => Sys2Proof.Machine.execReactionSet c first count reaction restore s
  | .powerCapSet c cap => Sys2Proof.Machine.execPowerCapSet c cap s
  | .distPower c district enable => Sys2Proof.Machine.execDistPower c district enable s
  | .portEnable c port mode rate flags => Sys2Proof.Machine.execPortEnable c port mode rate flags s
  | .engineEnable c engines enable => Sys2Proof.Machine.execEngineEnable c engines enable s
  | .tsvRepairStatus c channel => Sys2Proof.Machine.execTsvRepairStatus c channel s
  | .scrubConfig c channels flags rows fix celog => Sys2Proof.Machine.execScrubConfig c channels flags rows fix celog s
  | .remapModeSet c channels mode ceLimit action sets => Sys2Proof.Machine.execRemapModeSet c channels mode ceLimit action sets s
  | .retrain c channel kind => Sys2Proof.Machine.execRetrain c channel kind s
  | .unassignedOpcode c opcode => Sys2Proof.Machine.execUnassignedOpcode c opcode s
  | .ringDoorbell p m value => Sys2Proof.Machine.execRingDoorbell p m value s
  | .commandTake ring => Sys2Proof.Machine.execCommandTake ring s
  | .directGo p m => Sys2Proof.Machine.execDirectGo p m s
  | .wqDoorbell p m value => Sys2Proof.Machine.execWqDoorbell p m value s
  | .descriptorConsume => Sys2Proof.Machine.execDescriptorConsume s
  | .forwardDispatch queue => Sys2Proof.Machine.execForwardDispatch queue s
  | .opDispatch req => Sys2Proof.Machine.execOpDispatch req s
  | .forwardCompletion queue status => Sys2Proof.Machine.execForwardCompletion queue status s
  | .engineJobStart e => Sys2Proof.Machine.execEngineJobStart e s
  | .bloomFilterLoad e => Sys2Proof.Machine.execBloomFilterLoad e s
  | .tileStart e => Sys2Proof.Machine.execTileStart e s
  | .tileRowsArrive e => Sys2Proof.Machine.execTileRowsArrive e s
  | .tileEvaluate e => Sys2Proof.Machine.execTileEvaluate e s
  | .bucketReadReturn e => Sys2Proof.Machine.execBucketReadReturn e s
  | .gatherListRead e => Sys2Proof.Machine.execGatherListRead e s
  | .copyPage e => Sys2Proof.Machine.execCopyPage e s
  | .enginePartEnd e => Sys2Proof.Machine.execEnginePartEnd e s
  | .jobCompletionWrite job => Sys2Proof.Machine.execJobCompletionWrite job s
  | .msixPendingRelease h vector => Sys2Proof.Machine.execMsixPendingRelease h vector s
  | .masterRequestIssue req => Sys2Proof.Machine.execMasterRequestIssue req s
  | .kerbEntry k req => Sys2Proof.Machine.execKerbEntry k req s
  | .kerbForward k => Sys2Proof.Machine.execKerbForward k s
  | .kerbRefill => Sys2Proof.Machine.execKerbRefill s
  | .lineRead req => Sys2Proof.Machine.execLineRead req s
  | .lineWrite req => Sys2Proof.Machine.execLineWrite req s
  | .partialWrite req => Sys2Proof.Machine.execPartialWrite req s
  | .rowRead req => Sys2Proof.Machine.execRowRead req s
  | .rowWrite req => Sys2Proof.Machine.execRowWrite req s
  | .writeQueueAdmit ch => Sys2Proof.Machine.execWriteQueueAdmit ch s
  | .fence master port node => Sys2Proof.Machine.execFence master port node s
  | .fenceComplete port => Sys2Proof.Machine.execFenceComplete port s
  | .completionReturn port => Sys2Proof.Machine.execCompletionReturn port s
  | .slotSchedule => Sys2Proof.Machine.execSlotSchedule s
  | .rowCommandIssue ch flips => Sys2Proof.Machine.execRowCommandIssue ch flips s
  | .rowDataArrival ch wrong parity mid => Sys2Proof.Machine.execRowDataArrival ch wrong parity mid s
  | .wmDataStrobe ch wrong parity => Sys2Proof.Machine.execWmDataStrobe ch wrong parity s
  | .revolutionBoundary => Sys2Proof.Machine.execRevolutionBoundary s
  | .rbtCommit p m ch => Sys2Proof.Machine.execRbtCommit p m ch s
  | .refreshDue ch => Sys2Proof.Machine.execRefreshDue ch s
  | .maintenanceSlot ch => Sys2Proof.Machine.execMaintenanceSlot ch s
  | .stsResult ch mid parity => Sys2Proof.Machine.execStsResult ch mid parity s
  | .caCheck ch dead => Sys2Proof.Machine.execCaCheck ch dead s
  | .walkStepDue ch => Sys2Proof.Machine.execWalkStepDue ch s
  | .walkStep ch misses mid => Sys2Proof.Machine.execWalkStep ch misses mid s
  | .driftCheck ch counts => Sys2Proof.Machine.execDriftCheck ch counts s
  | .strobeLimitReached ch => Sys2Proof.Machine.execStrobeLimitReached ch s
  | .retrainHoldStart ch => Sys2Proof.Machine.execRetrainHoldStart ch s
  | .retrainHoldEnd ch failed found age => Sys2Proof.Machine.execRetrainHoldEnd ch failed found age s
  | .tsvParityInject p m ch => Sys2Proof.Machine.execTsvParityInject p m ch s
  | .tsvWalkSweep p m ch => Sys2Proof.Machine.execTsvWalkSweep p m ch s
  | .tsvRetrainInc p m ch => Sys2Proof.Machine.execTsvRetrainInc p m ch s
  | .caUncorrInject p m ch => Sys2Proof.Machine.execCaUncorrInject p m ch s
  | .caCorrInject p m ch => Sys2Proof.Machine.execCaCorrInject p m ch s
  | .eccInject p m ch value => Sys2Proof.Machine.execEccInject p m ch value s
  | .ctrTagInject p m ch => Sys2Proof.Machine.execCtrTagInject p m ch s
  | .dataTagInject p m ch => Sys2Proof.Machine.execDataTagInject p m ch s
  | .tileFormatInject p m e => Sys2Proof.Machine.execTileFormatInject p m e s
  | .addrMapLock p m order => Sys2Proof.Machine.execAddrMapLock p m order s
  | .initialFillStart p m ch => Sys2Proof.Machine.execInitialFillStart p m ch s
  | .initialFillEnd ch => Sys2Proof.Machine.execInitialFillEnd ch s
  | .scrubReadDue ch => Sys2Proof.Machine.execScrubReadDue ch s
  | .scrubRowResult ch wrong parity mid => Sys2Proof.Machine.execScrubRowResult ch wrong parity mid s
  | .scrubberStopped => Sys2Proof.Machine.execScrubberStopped s
  | .counterWalkFetch => Sys2Proof.Machine.execCounterWalkFetch s
  | .counterWriteBack => Sys2Proof.Machine.execCounterWriteBack s
  | .retirementReason => Sys2Proof.Machine.execRetirementReason s
  | .pageMigrate page => Sys2Proof.Machine.execPageMigrate page s
  | .retirementRestart => Sys2Proof.Machine.execRetirementRestart s
  | .consCheckStart p m => Sys2Proof.Machine.execConsCheckStart p m s
  | .consCheckEnd => Sys2Proof.Machine.execConsCheckEnd s
  | .flitReceive l flit => Sys2Proof.Machine.execFlitReceive l flit s
  | .ackTimeout l => Sys2Proof.Machine.execAckTimeout l s
  | .initFlit l flit => Sys2Proof.Machine.execInitFlit l flit s
  | .auditSend l => Sys2Proof.Machine.execAuditSend l s
  | .audit l msg => Sys2Proof.Machine.execAudit l msg s
  | .rsyncDone l => Sys2Proof.Machine.execRsyncDone l s
  | .auditNow p m l => Sys2Proof.Machine.execAuditNow p m l s
  | .creditSkew p m l => Sys2Proof.Machine.execCreditSkew p m l s
  | .crcInject p m l => Sys2Proof.Machine.execCrcInject p m l s
  | .messageForward l msg => Sys2Proof.Machine.execMessageForward l msg s
  | .completionRetrace l msg => Sys2Proof.Machine.execCompletionRetrace l msg s
  | .sublinkDown l orderly => Sys2Proof.Machine.execSublinkDown l orderly s
  | .mgmtRd l msg => Sys2Proof.Machine.execMgmtRd l msg s
  | .mgmtWr l msg => Sys2Proof.Machine.execMgmtWr l msg s
  | .mbxMsg l msg => Sys2Proof.Machine.execMbxMsg l msg s
  | .remoteCmd l msg => Sys2Proof.Machine.execRemoteCmd l msg s
  | .remoteReply l msg => Sys2Proof.Machine.execRemoteReply l msg s
  | .routeWrite l msg => Sys2Proof.Machine.execRouteWrite l msg s
  | .fabKey l msg => Sys2Proof.Machine.execFabKey l msg s
  | .enumProbe l msg => Sys2Proof.Machine.execEnumProbe l msg s
  | .enumReply l msg => Sys2Proof.Machine.execEnumReply l msg s
  | .nodeAssign l msg => Sys2Proof.Machine.execNodeAssign l msg s
  | .tsyncPeriod => Sys2Proof.Machine.execTsyncPeriod s
  | .tsyncReq l msg => Sys2Proof.Machine.execTsyncReq l msg s
  | .tsyncRsp l msg => Sys2Proof.Machine.execTsyncRsp l msg s
  | .detach l msg => Sys2Proof.Machine.execDetach l msg s
  | .detachDrainEnd => Sys2Proof.Machine.execDetachDrainEnd s
  | .alignmentMarker l lane marker => Sys2Proof.Machine.execAlignmentMarker l lane marker s
  | .los port lane asserted => Sys2Proof.Machine.execLos port lane asserted s
  | .lol port lane asserted => Sys2Proof.Machine.execLol port lane asserted s
  | .losAllLanesTimeout l => Sys2Proof.Machine.execLosAllLanesTimeout l s
  | .recoveryEnter l full => Sys2Proof.Machine.execRecoveryEnter l full s
  | .recoveryAttemptEnd l result degradeBoth => Sys2Proof.Machine.execRecoveryAttemptEnd l result degradeBoth s
  | .detectTimer l found => Sys2Proof.Machine.execDetectTimer l found s
  | .trainingStageEnd l result => Sys2Proof.Machine.execTrainingStageEnd l result s
  | .trainingTimeout l => Sys2Proof.Machine.execTrainingTimeout l s
  | .portStartingEnd port => Sys2Proof.Machine.execPortStartingEnd port s
  | .portStoppingEnd port => Sys2Proof.Machine.execPortStoppingEnd port s
  | .portForceRetrain p m port => Sys2Proof.Machine.execPortForceRetrain p m port s
  | .losInject p m port lane => Sys2Proof.Machine.execLosInject p m port lane s
  | .lolInject p m port lane => Sys2Proof.Machine.execLolInject p m port lane s
  | .marginStart p m port lane value => Sys2Proof.Machine.execMarginStart p m port lane value s
  | .marginEnd port lane errors aborted => Sys2Proof.Machine.execMarginEnd port lane errors aborted s
  | .boundaryScanLoad scan => Sys2Proof.Machine.execBoundaryScanLoad scan s
  | .memRd h hpa tag => Sys2Proof.Machine.execMemRd h hpa tag s
  | .memWr h hpa tag data poison => Sys2Proof.Machine.execMemWr h hpa tag data poison s
  | .memWrPtl h hpa tag data mask poison => Sys2Proof.Machine.execMemWrPtl h hpa tag data mask poison s
  | .memSpecRd h hpa => Sys2Proof.Machine.execMemSpecRd h hpa s
  | .memInv h hpa tag => Sys2Proof.Machine.execMemInv h hpa tag s
  | .memRdFwd h hpa => Sys2Proof.Machine.execMemRdFwd h hpa s
  | .cxlCompletionMap h => Sys2Proof.Machine.execCxlCompletionMap h s
  | .hdmDecoderCommit h dec base size ways gran skip lockOnCommit => Sys2Proof.Machine.execHdmDecoderCommit h dec base size ways gran skip lockOnCommit s
  | .configRequest h op => Sys2Proof.Machine.execConfigRequest h op s
  | .bar2Access h write off value bytes => Sys2Proof.Machine.execBar2Access h write off value bytes s
  | .identifyMemoryDevice h => Sys2Proof.Machine.execIdentifyMemoryDevice h s
  | .getSupportedLogs h => Sys2Proof.Machine.execGetSupportedLogs h s
  | .getLog h offset length => Sys2Proof.Machine.execGetLog h offset length s
  | .getEventRecords h => Sys2Proof.Machine.execGetEventRecords h s
  | .clearEventRecords h => Sys2Proof.Machine.execClearEventRecords h s
  | .getEventInterruptPolicy h => Sys2Proof.Machine.execGetEventInterruptPolicy h s
  | .setEventInterruptPolicy h policy => Sys2Proof.Machine.execSetEventInterruptPolicy h policy s
  | .unsupportedMailboxCmd h opcode => Sys2Proof.Machine.execUnsupportedMailboxCmd h opcode s
  | .perstAssert h => Sys2Proof.Machine.execPerstAssert h s
  | .perstDeassert h => Sys2Proof.Machine.execPerstDeassert h s
  | .hotReset h => Sys2Proof.Machine.execHotReset h s
  | .linkDisable h => Sys2Proof.Machine.execLinkDisable h s
  | .hostLinkLoss h => Sys2Proof.Machine.execHostLinkLoss h s
  | .hostPortLeaveOn h => Sys2Proof.Machine.execHostPortLeaveOn h s
  | .a2bMsgWrite p m ch sideA value => Sys2Proof.Machine.execA2bMsgWrite p m ch sideA value s
  | .a2bMsgRead p m ch sideA => Sys2Proof.Machine.execA2bMsgRead p m ch sideA s
  | .doorbellSet p m ch sideA value => Sys2Proof.Machine.execDoorbellSet p m ch sideA value s
  | .doorbellClear p m ch sideA value => Sys2Proof.Machine.execDoorbellClear p m ch sideA value s
  | .mbxBindDirectWrite p m ch sideA value => Sys2Proof.Machine.execMbxBindDirectWrite p m ch sideA value s
  | .mbxLockWrite p m => Sys2Proof.Machine.execMbxLockWrite p m s
  | .devRstAssert => Sys2Proof.Machine.execDevRstAssert s
  | .devRstDeassert => Sys2Proof.Machine.execDevRstDeassert s
  | .warmRstAssert => Sys2Proof.Machine.execWarmRstAssert s
  | .railUndervoltage rail => Sys2Proof.Machine.execRailUndervoltage rail s
  | .railsGood => Sys2Proof.Machine.execRailsGood s
  | .refclkLoss input => Sys2Proof.Machine.execRefclkLoss input s
  | .refclkRestored => Sys2Proof.Machine.execRefclkRestored s
  | .warmResetBegin => Sys2Proof.Machine.execWarmResetBegin s
  | .throughTrafficDrained => Sys2Proof.Machine.execThroughTrafficDrained s
  | .warmDrainEnd => Sys2Proof.Machine.execWarmDrainEnd s
  | .strapSample s1 s2 s3 => Sys2Proof.Machine.execStrapSample s1 s2 s3 s
  | .fuseSensing reads => Sys2Proof.Machine.execFuseSensing reads s
  | .checkerSelftest results => Sys2Proof.Machine.execCheckerSelftest results s
  | .bootRomReady => Sys2Proof.Machine.execBootRomReady s
  | .firmwareStartup => Sys2Proof.Machine.execFirmwareStartup s
  | .stackReady => Sys2Proof.Machine.execStackReady s
  | .bootWindowWrite p m offset data => Sys2Proof.Machine.execBootWindowWrite p m offset data s
  | .winWrite offset data scl => Sys2Proof.Machine.execWinWrite offset data scl s
  | .winRead offset count scl => Sys2Proof.Machine.execWinRead offset count scl s
  | .mgmtWrite offset value scl => Sys2Proof.Machine.execMgmtWrite offset value scl s
  | .mgmtRead offset scl => Sys2Proof.Machine.execMgmtRead offset scl s
  | .i3cAddressAssign addr scl => Sys2Proof.Machine.execI3cAddressAssign addr scl s
  | .i3cRefused op scl => Sys2Proof.Machine.execI3cRefused op scl s
  | .districtStartingEnd d results => Sys2Proof.Machine.execDistrictStartingEnd d results s
  | .districtJobsEnded d => Sys2Proof.Machine.execDistrictJobsEnded d s
  | .districtOff d => Sys2Proof.Machine.execDistrictOff d s
  | .functionDeferredStart => Sys2Proof.Machine.execFunctionDeferredStart s
  | .engineStartingEnd e => Sys2Proof.Machine.execEngineStartingEnd e s
  | .engineStoppingEnd e => Sys2Proof.Machine.execEngineStoppingEnd e s
  | .scrubberStartingEnd => Sys2Proof.Machine.execScrubberStartingEnd s
  | .faultReport source => Sys2Proof.Machine.execFaultReport source s
  | .reportWire source => Sys2Proof.Machine.execReportWire source s
  | .faultNRelease => Sys2Proof.Machine.execFaultNRelease s
  | .faultHoldClear p m => Sys2Proof.Machine.execFaultHoldClear p m s
  | .srcForce p m source => Sys2Proof.Machine.execSrcForce p m source s
  | .collectorTimeReload => Sys2Proof.Machine.execCollectorTimeReload s
  | .coreFail core => Sys2Proof.Machine.execCoreFail core s
  | .shadowParityCheck bad => Sys2Proof.Machine.execShadowParityCheck bad s
  | .sensorSample readings => Sys2Proof.Machine.execSensorSample readings s
  | .tripCooled => Sys2Proof.Machine.execTripCooled s
  | .governorInterval power => Sys2Proof.Machine.execGovernorInterval power s
  | .clearingRead p m off => Sys2Proof.Machine.execClearingRead p m off s
  | .registerWrite p m off value => Sys2Proof.Machine.execRegisterWrite p m off value s
  | .warmRstDeassert => Sys2Proof.Machine.execWarmRstDeassert s
  | .hotResetEnd h => Sys2Proof.Machine.execHotResetEnd h s
  | .mgmtCmp l msg => Sys2Proof.Machine.execMgmtCmp l msg s
  | .drainTimeLimit => Sys2Proof.Machine.execDrainTimeLimit s
  | .alertNRelease => Sys2Proof.Machine.execAlertNRelease s
  | .loReadLatch p m off => Sys2Proof.Machine.execLoReadLatch p m off s

end Sys2Proof.Machine
end

