-- ==== Sys2Proof/WellFormed.lean ====
section
/-! DEFINITION. Which commands describe something that can happen: the bounds of the spec on operands whose Lean type
is wider. A meaning is total and gives an ill-formed command some effect too; no statement is about that. -/

namespace Sys2Proof.Machine

/-- A request's address is aligned as its type asks, and a row write brings 16 lines (R235, R288). -/
def reqOk (r : Req) : Bool :=
  match r.kind with
  | .lineRead | .lineWrite _ _ | .partialWrite _ _ => decide (r.addr.toNat % 64 = 0)
  | .rowRead _ => decide (r.addr.toNat % 1024 = 0)
  | .rowWrite d _ => decide (r.addr.toNat % 1024 = 0) && decide (d.length = 16)
  | .opDispatch _ _ => true

/-- A message has the slots of its type (R287). -/
def msgOk (m : Msg) : Bool := match msgLen m.hdr with | some n => decide (m.slots.length + 1 = n) | none => false

/-- Connections of each kind (R35); the two pairs of the forwarded clock count as one connection each. -/
def connCount : ConnKind → Nat
  | .data => 10240 | .dataSpare => 160 | .ca => 40 | .caSpare => 2 | .parity => 20 | .paritySpare => 2 | .clock => 2

/-- A connection that a bundle has, on a layer that a stack can have (R2, R35). -/
def connOk (c : Conn) : Bool := decide (c.idx < connCount c.kind) && decide (c.layer < 16)

/-- A fuse word is attempted at most nine times (R416). -/
def attemptsOk (a : List (W32 × W32)) : Bool := decide (a.length ≤ 9)

/-- A training result names the equalisers of at most sixteen lanes (R254). -/
def trainOk (r : TrainRes) : Bool := decide (r.skew.length ≤ 16) && decide (r.rxEq.length ≤ 16) && decide (r.txEq.length ≤ 16)

/-- A write brings from one byte to a bound (R394, R397). -/
def bytesOk (d : List Byte) (n : Nat) : Bool := !d.isEmpty && decide (d.length ≤ n)

/-- The command is well formed. -/
def wellFormed : Instr → Bool
  | .devIdentify _ => true
  | .devStatus _ _ => true
  | .ringSet _ _ _ _ _ _ _ => true
  | .mbxBind _ _ _ _ => true
  | .mbxLock _ => true
  | .fwBegin _ _ => true
  | .fwChunk _ _ _ _ => true
  | .fwCommit _ => true
  | .fwVerifyEnd => true
  | .keyLoadWrapped _ _ _ => true
  | .keyErase _ _ => true
  | .keyQuery _ _ => true
  | .pageSet _ _ _ => true
  | .pageGet _ _ => true
  | .pageRetire _ _ => true
  | .pageReserve _ _ => true
  | .pageRecordRead _ => true
  | .accessGroupSet _ _ _ _ => true
  | .accessGroupGet _ _ _ => true
  | .integrityConfig _ _ => true
  | .pageClearSticky _ _ _ => true
  | .policyChangeComplete _ => true
  | .classSetGuarantee _ _ _ _ _ => true
  | .classSetLimit _ _ _ _ _ => true
  | .classCountersSnapshot _ _ => true
  | .queueCreate _ _ _ _ _ _ _ _ _ _ _ _ _ => true
  | .queueDestroy _ _ => true
  | .queueDrained _ => true
  | .fabEnumerate _ => true
  | .routeSet _ _ _ _ _ => true
  | .nodeDetach _ _ _ => true
  | .timeSync _ _ _ _ => true
  | .fwPush _ _ _ _ => true
  | .fabSealInit _ => true
  | .segmentSet _ _ _ _ _ => true
  | .isetSet _ _ _ => true
  | .fuseProgramWord _ _ _ attempts => attemptsOk attempts
  | .fuseLockRegion _ _ attemptsA attemptsB => attemptsOk attemptsA && attemptsOk attemptsB
  | .fuseReadShadow _ _ => true
  | .faultRead _ _ _ => true
  | .faultClear _ _ => true
  | .faultForce _ _ => true
  | .reactionSet _ _ _ _ _ => true
  | .powerCapSet _ _ => true
  | .distPower _ _ _ => true
  | .portEnable _ _ _ _ _ => true
  | .engineEnable _ _ _ => true
  | .tsvRepairStatus _ _ => true
  | .scrubConfig _ _ _ _ _ _ => true
  | .remapModeSet _ _ _ _ _ _ => true
  | .retrain _ _ _ => true
  | .unassignedOpcode _ _ => true
  | .ringDoorbell _ _ _ => true
  | .commandTake _ => true
  | .directGo _ _ => true
  | .wqDoorbell _ _ _ => true
  | .descriptorConsume => true
  | .forwardDispatch _ => true
  | .opDispatch req => reqOk req && (match req.kind with | .opDispatch _ _ => true | _ => false)
  | .forwardCompletion _ _ => true
  | .engineJobStart _ => true
  | .bloomFilterLoad _ => true
  | .tileStart _ => true
  | .tileRowsArrive _ => true
  | .tileEvaluate _ => true
  | .bucketReadReturn _ => true
  | .gatherListRead _ => true
  | .copyPage _ => true
  | .enginePartEnd _ => true
  | .jobCompletionWrite _ => true
  | .msixPendingRelease _ _ => true
  | .masterRequestIssue req => reqOk req
  | .kerbEntry _ req => reqOk req
  | .kerbForward _ => true
  | .kerbRefill => true
  | .lineRead req => reqOk req && (match req.kind with | .lineRead => true | _ => false)
  | .lineWrite req => reqOk req && (match req.kind with | .lineWrite _ _ => true | _ => false)
  | .partialWrite req => reqOk req && (match req.kind with | .partialWrite _ _ => true | _ => false)
  | .rowRead req => reqOk req && (match req.kind with | .rowRead _ => true | _ => false)
  | .rowWrite req => reqOk req && (match req.kind with | .rowWrite _ _ => true | _ => false)
  | .writeQueueAdmit _ => true
  | .fence _ _ _ => true
  | .fenceComplete _ => true
  | .completionReturn _ => true
  | .slotSchedule => true
  | .rowCommandIssue _ _ => true
  | .rowDataArrival _ _ _ _ => true
  | .wmDataStrobe _ _ _ => true
  | .revolutionBoundary => true
  | .rbtCommit _ _ _ => true
  | .refreshDue _ => true
  | .maintenanceSlot _ => true
  | .stsResult _ _ _ => true
  | .caCheck _ _ => true
  | .walkStepDue _ => true
  | .walkStep _ misses _ => misses.all connOk
  | .driftCheck _ _ => true
  | .strobeLimitReached _ => true
  | .retrainHoldStart _ => true
  | .retrainHoldEnd _ _ found _ => found.all connOk
  | .tsvParityInject _ _ _ => true
  | .tsvWalkSweep _ _ _ => true
  | .tsvRetrainInc _ _ _ => true
  | .caUncorrInject _ _ _ => true
  | .caCorrInject _ _ _ => true
  | .eccInject _ _ _ _ => true
  | .ctrTagInject _ _ _ => true
  | .dataTagInject _ _ _ => true
  | .tileFormatInject _ _ _ => true
  | .addrMapLock _ _ _ => true
  | .initialFillStart _ _ _ => true
  | .initialFillEnd _ => true
  | .scrubReadDue _ => true
  | .scrubRowResult _ _ _ _ => true
  | .scrubberStopped => true
  | .counterWalkFetch => true
  | .counterWriteBack => true
  | .retirementReason => true
  | .pageMigrate page => decide (page < 2097152)
  | .retirementRestart => true
  | .consCheckStart _ _ => true
  | .consCheckEnd => true
  | .flitReceive _ _ => true
  | .ackTimeout _ => true
  | .initFlit _ _ => true
  | .auditSend _ => true
  | .audit _ msg => msgOk msg && decide (hTy msg.hdr = 0x3B)
  | .rsyncDone _ => true
  | .auditNow _ _ _ => true
  | .creditSkew _ _ _ => true
  | .crcInject _ _ _ => true
  | .messageForward _ msg => msgOk msg
  | .completionRetrace _ msg => msgOk msg
  | .sublinkDown _ _ => true
  | .mgmtRd _ msg => msgOk msg && decide (hTy msg.hdr = 0x20)
  | .mgmtWr _ msg => msgOk msg && decide (hTy msg.hdr = 0x21)
  | .mbxMsg _ msg => msgOk msg && decide (hTy msg.hdr = 0x22)
  | .remoteCmd _ msg => msgOk msg && decide (hTy msg.hdr = 0x23)
  | .remoteReply _ msg => msgOk msg && decide (hTy msg.hdr = 0x29)
  | .routeWrite _ msg => msgOk msg && decide (hTy msg.hdr = 0x24)
  | .fabKey _ msg => msgOk msg && decide (hTy msg.hdr = 0x25)
  | .enumProbe _ msg => msgOk msg && decide (hTy msg.hdr = 0x30)
  | .enumReply _ msg => msgOk msg && decide (hTy msg.hdr = 0x32)
  | .nodeAssign _ msg => msgOk msg && decide (hTy msg.hdr = 0x31)
  | .tsyncPeriod => true
  | .tsyncReq _ msg => msgOk msg && decide (hTy msg.hdr = 0x38)
  | .tsyncRsp _ msg => msgOk msg && decide (hTy msg.hdr = 0x39)
  | .detach _ msg => msgOk msg && decide (hTy msg.hdr = 0x3A)
  | .detachDrainEnd => true
  | .alignmentMarker _ _ _ => true
  | .los _ _ _ => true
  | .lol _ _ _ => true
  | .losAllLanesTimeout _ => true
  | .recoveryEnter _ _ => true
  | .recoveryAttemptEnd _ result _ => trainOk result
  | .detectTimer _ _ => true
  | .trainingStageEnd _ result => trainOk result
  | .trainingTimeout _ => true
  | .portStartingEnd _ => true
  | .portStoppingEnd _ => true
  | .portForceRetrain _ _ _ => true
  | .losInject _ _ _ _ => true
  | .lolInject _ _ _ _ => true
  | .marginStart _ _ _ _ _ => true
  | .marginEnd _ _ _ _ => true
  | .boundaryScanLoad _ => true
  | .memRd _ _ _ => true
  | .memWr _ _ _ _ _ => true
  | .memWrPtl _ _ _ _ _ _ => true
  | .memSpecRd _ _ => true
  | .memInv _ _ _ => true
  | .memRdFwd _ _ => true
  | .cxlCompletionMap _ => true
  | .hdmDecoderCommit _ _ _ _ _ _ _ _ => true
  | .configRequest _ _ => true
  | .bar2Access _ _ _ _ _ => true
  | .identifyMemoryDevice _ => true
  | .getSupportedLogs _ => true
  | .getLog _ _ _ => true
  | .getEventRecords _ => true
  | .clearEventRecords _ => true
  | .getEventInterruptPolicy _ => true
  | .setEventInterruptPolicy _ _ => true
  | .unsupportedMailboxCmd _ _ => true
  | .perstAssert _ => true
  | .perstDeassert _ => true
  | .hotReset _ => true
  | .linkDisable _ => true
  | .hostLinkLoss _ => true
  | .hostPortLeaveOn _ => true
  | .a2bMsgWrite _ _ _ _ _ => true
  | .a2bMsgRead _ _ _ _ => true
  | .doorbellSet _ _ _ _ _ => true
  | .doorbellClear _ _ _ _ _ => true
  | .mbxBindDirectWrite _ _ _ _ _ => true
  | .mbxLockWrite _ _ => true
  | .devRstAssert => true
  | .devRstDeassert => true
  | .warmRstAssert => true
  | .railUndervoltage _ => true
  | .railsGood => true
  | .refclkLoss _ => true
  | .refclkRestored => true
  | .warmResetBegin => true
  | .throughTrafficDrained => true
  | .warmDrainEnd => true
  | .strapSample _ _ _ => true
  | .fuseSensing reads => reads.all (fun x => decide (x.word < 2048))
  | .checkerSelftest _ => true
  | .bootRomReady => true
  | .firmwareStartup => true
  | .stackReady => true
  | .bootWindowWrite _ _ _ data => bytesOk data 1024
  | .winWrite _ data _ => bytesOk data 256
  | .winRead _ _ _ => true
  | .mgmtWrite _ _ _ => true
  | .mgmtRead _ _ => true
  | .i3cAddressAssign _ _ => true
  | .i3cRefused _ _ => true
  | .districtStartingEnd _ results => results.all (fun x => x.dead.all connOk)
  | .districtJobsEnded _ => true
  | .districtOff _ => true
  | .functionDeferredStart => true
  | .engineStartingEnd _ => true
  | .engineStoppingEnd _ => true
  | .scrubberStartingEnd => true
  | .faultReport _ => true
  | .reportWire _ => true
  | .faultNRelease => true
  | .faultHoldClear _ _ => true
  | .srcForce _ _ _ => true
  | .collectorTimeReload => true
  | .coreFail _ => true
  | .shadowParityCheck bad => bad.all (fun w => decide (w < 2048))
  | .sensorSample _ => true
  | .tripCooled => true
  | .governorInterval _ => true
  | .clearingRead _ _ _ => true
  | .registerWrite _ _ _ _ => true
  | .warmRstDeassert => true
  | .hotResetEnd _ => true
  | .mgmtCmp _ msg => msgOk msg && decide (hTy msg.hdr = 0x28)
  | .drainTimeLimit => true
  | .alertNRelease => true
  | .loReadLatch _ _ _ => true

end Sys2Proof.Machine
end

