-- ==== Sys2Proof/Safety.lean ====
section
/-! DEFINITION. The terms in which statements speak: when a command runs, when a register write acts, which
state is legal, what a run that stops nowhere is. -/

namespace Sys2Proof.Machine

/-- The carrier takes a command with this opcode and the common checks pass (R339, R344, R345): the command runs in `t`. -/
def Taken (s : State) (c : CmdCtx) (op : Nat) (t : State) : Prop := s.begin c op = some t ∧ t.packetCheck c op true = none

/-- The path reaches the register, the rights allow a write of it, and its block is on (R469-R473). -/
def Writable (s : State) (p : Path) (m : MasterId) (off : Nat) : Prop := s.writeAccess p m off = .ok

/-- A legal state: the layers' content and the sparse tables have their canonical form, and every waiting command is well
formed. -/
def Legal (s : State) : Prop :=
  Memory.wf s.dram = true ∧ s.pending.all wellFormed = true ∧ smWf s.sec.pat = true ∧ smWf s.cmd.segs = true ∧
  smWf s.cmd.isets = true ∧ smWf s.fab.route = true

/-- A command that completes under R25: it answers now where no request holds the old values, and waits for them otherwise. -/
def State.answer25 (u : State) (c : CmdCtx) (olds : List (MasterId × BitVec 16)) (st : CmdStatus) (result : W64) : State :=
  if olds = [] then u.reply c st result
  else { u with cmd := { u.cmd with
    nextPolicy := u.cmd.nextPolicy + 1, waits := u.cmd.waits ++ [{ ctx := c, kind := .policy u.cmd.nextPolicy olds st result .none }] } }

/-- A run of the block from a state stops nowhere: every step answers a next state. -/
def RunsOn (s : State) : Nat → Prop
  | 0 => True
  | n + 1 => ∃ t, step s = .next t ∧ RunsOn t n

end Sys2Proof.Machine
end

