-- ==== Sys2Proof/Certificates/Slice0/Obligations.lean ====
section
/-! DEFINITION. The statements for the provers. Where a statement has several parts, each part is a proposition of its own just
above it. -/

open Sys2Proof Sys2Proof.Machine

/-- A step runs the command at the front of the queue with the queue's rest; on an empty queue one strobe of 4 ns passes (the model's
choice, log entry 1). -/
def Obligations.StepRunsTheFrontCommand : Prop :=
  (∀ (s : State) (c : Instr) (rest : List Instr), step { s with pending := c :: rest } = exec c { s with pending := rest }) ∧
  (∀ s : State, s.pending = [] → step s = .next s.elapse1 ∧ s.elapse1.strobe = s.strobe + 1 ∧ s.elapse1.pending = [])

/-- No command stops the block: each answers a next state in every state, and a run goes on for ever. -/
def Obligations.NoCommandStopsTheBlock : Prop :=
  (∀ (c : Instr) (s : State), ∃ t : State, exec c s = .next t) ∧ (∀ (s : State) (n : Nat), RunsOn s n)

/-- Legal is kept by every step: the layers' content and the sparse tables keep their canonical form, and the commands that wait stay
well formed. -/
def Obligations.LegalIsKept : Prop := ∀ s t : State, Legal s → step s = .next t → Legal t

/-- The state after reset is legal, and its registers read the values that the field tables give for reset. -/
def Obligations.ResetLeavesTheTablesValues : Prop :=
  Legal State.reset ∧
  [(0x100000, 0x00000000), (0x100404, 0x604008C0), (0x100408, 0x3D000000), (0x020008, 0x0000FF00), (0x040004, 0x00DC0000),
   (0x040008, 0x00001000), (0x040010, 0x08100001), (0x020000, 0x00000000), (0x000300, 0x00000000), (0x00030C, 0x00000000),
   (0x508000, 0x00000FFF), (0x300408, 0x08000000), (0x600000, 0x00000000)].all
    (fun x => State.reset.regValue x.1 == BitVec.ofNat 32 x.2) = true ∧
  (∀ n : Fin 64, State.reset.regValue (offChs n 0x020) = BitVec.ofNat 32 (n.val * 16777216)) ∧
  State.reset.sec.pat = [] ∧ State.reset.sec.keys = [] ∧ State.reset.glb.mapLock = false ∧ State.reset.fab.nodeId = 0xFFF#12

/-- The address map (R63, R65, R66): the fields of a local address lie at the bits of the tables, in every order of both variants; below
the capacity they name one channel, layer, bank and row group of the part, and put the page number back together, so no two pages
share a row; R67's example decodes as written. -/
def Obligations.AddressMapIsABijection : Prop :=
  (∀ (s : State) (a : Nat), let d := s.decodeAddr a
    let f := fun (lo len : Nat) => a / 2 ^ lo % 2 ^ len
    let is := fun (ch layer bank hi : Nat) => d.ch.val = ch ∧ d.row.layer = layer ∧ d.row.bank = bank ∧ d.row.row = hi * 128 + f 10 7 ∧ d.line = f 6 4
    (s.glb.variant = .kv9216 →
      (s.glb.mapOrder = 0 → is (f 17 6) (f 23 4) (f 27 2) (f 29 9)) ∧ (s.glb.mapOrder = 1 → is (f 21 6) (f 17 4) (f 27 2) (f 29 9)) ∧
      (s.glb.mapOrder = 2 → is (f 19 6) (f 25 4) (f 17 2) (f 29 9)) ∧ (s.glb.mapOrder = 3 → is (f 26 6) (f 32 4) (f 36 2) (f 17 9))) ∧
    (s.glb.variant = .kv9208 →
      (s.glb.mapOrder = 0 → is (f 17 6) (f 23 3) (f 26 2) (f 28 9)) ∧ (s.glb.mapOrder = 1 → is (f 20 6) (f 17 3) (f 26 2) (f 28 9)) ∧
      (s.glb.mapOrder = 2 → is (f 19 6) (f 25 3) (f 17 2) (f 28 9)) ∧ (s.glb.mapOrder = 3 → is (f 26 6) (f 32 3) (f 35 2) (f 17 9)))) ∧
  (∀ (v : Variant) (o : BitVec 2) (p : Nat), p < v.pages →
    let d := decodePage v o p
    d.2.1 < v.layers ∧ d.2.2.1 < 4 ∧ d.2.2.2 < 512 ∧ encodePage v o d.1.val d.2.1 d.2.2.1 d.2.2.2 = p) ∧
  (∀ (v : Variant) (o : BitVec 2) (ch : Fin 64) (l b h : Nat), l < v.layers → b < 4 → h < 512 →
    encodePage v o ch.val l b h < v.pages ∧ decodePage v o (encodePage v o ch.val l b h) = (ch, l, b, h)) ∧
  (let s : State := { glb := { mapOrder := 0 } }
   s.decodeAddr 0x1234567890 = { ch := 43, row := { layer := 8, bank := 2, row := 18590 }, line := 2 }) ∧
  (let s : State := { glb := { mapOrder := 3 } }
   s.decodeAddr 0x1234567890 = { ch := 13, row := { layer := 2, bank := 1, row := 5534 }, line := 2 })

/-- A packet that names a command means that command, with every parameter, TAG and FLAGS.IRQ at every value: the packet of R341
and R346 written from a command's operands, carried out from any carrier, is the command (R341, R344, R346). -/
def Obligations.PacketsMeanTheirCommands : Prop :=
  ∀ (i : Instr) (c : CmdCtx) (p : Packet) (s : State), packetOf i = some (c, p) → exec i s = .next (s.runPacket c.src p)

/-- The three carriers bring a packet to its command: a ring's core reads packet HEAD modulo the ring's size, after any hold of its
channel, or stops the ring where it cannot; GO runs the packet of DIRECT_PKT under its writer; REMOTE_CMD runs slots 1-4 for MASTER (R339, R345, R288, R350). -/
def Obligations.CarriersBringPackets : Prop :=
  (∀ (s u : State) (r : Fin 32) (st : CStatus) (bs : List Byte), s.ringFree r = true → (s.cmd.rings[r]).head ≠ (s.cmd.rings[r]).tail →
    (s.chs[(s.decodeAddr (0x1000000 + r.val * 0x80000 + 64 * ((s.cmd.rings[r]).head.toNat % 2 ^ (s.cmd.rings[r]).log2))).ch]).holds = false →
    s.readBytesNow (s.self (0x50 + r.val % 4)) (ringBase r + 64 * ((s.cmd.rings[r]).head.toNat % 2 ^ (s.cmd.rings[r]).log2)) acCommand 64 =
      (u, st, bs) →
    (st = .ok → exec (.commandTake r) s = .next (u.runPacket (.ring r) (ofBytes 512 bs))) ∧
    (st ≠ .ok → exec (.commandTake r) s = .next (u.ringFail r))) ∧
  (∀ (s : State) (r : Fin 32), s.ringFree r = false ∨ (s.cmd.rings[r]).head = (s.cmd.rings[r]).tail ∨ s.heldAt (s.ringSlot r) = true →
    exec (.commandTake r) s = .next s) ∧
  (∀ (s : State) (p : Sys2Proof.Path) (m : MasterId), Writable s p m 0x050850 → ∃ k : Packet,
    exec (.directGo p m) s = .next (s.runPacket (.direct p m) k) ∧ ∀ i : Fin 16, pkt32 k (4 * i.val) = s.cmd.pkt[i]) ∧
  (∀ (s : State) (l : SubLink) (msg : Msg), hTy msg.hdr = mtRemoteCmd → s.cmdUp = true → s.mustWait l msg = false →
    ((s.freeRx l msg).egress msg).2 = .here →
    (fromMaster msg.hdr = true → msg.slots.length = 4 → ∃ k : Packet,
      exec (.remoteCmd l msg) s = .next ((s.freeRx l msg).runPacket (.remote (hMaster msg.hdr) l.port l.sub (hTag msg.hdr)) k) ∧
      ∀ i (h : i < msg.slots.length), BitVec.extractLsb' (128 * i) 128 k = msg.slots[i]) ∧
    (fromMaster msg.hdr = false → exec (.remoteCmd l msg) s = .next ((s.freeRx l msg).answer l msg.hdr .notPermitted))) ∧
  (∀ (s : State) (l : SubLink) (msg : Msg), s.cmdUp = false → (s.egress msg).2 = .here → exec (.remoteCmd l msg) s = .next s) ∧
  (∀ (s : State) (m : MasterId) (p : Fin 64) (u : Fin 4) (tag : BitVec 16) (tg : W32) (b : Bool) (op : Nat), s.cmdUp = true →
    s.begin { src := .remote m p u tag, tag := tg, irq := b } op = some (s.addTransit (reqHdr 0x23 15 tag m 0) (some { port := p, sub := u }) none))

/-- R347's example: a ready KV9216 with node ID 0x01A under ORDER_CLBR, mapping locked, integrity code 3. -/
def Sys2Proof.Part.DevIdentifyExample : Prop :=
  ∀ (s t : State) (c : CmdCtx), Taken s c 0x0001 t → t.glb.variant = .kv9216 → t.fwRunning = true → t.sec.configured = true →
    t.sec.capCode = 3 → t.glb.mapLock = true → t.glb.mapOrder = 0 → t.fab.nodeId = 0x01A#12 →
    exec (.devIdentify c) s = .next (t.reply c .ok 0x000F81C1001A0116#64)

/-- Commands that only read reply with what they name and change nothing else (R347, R446, R348, R126, R152, R427, R349). -/
def Sys2Proof.Part.ReadingCommandsReply : Prop :=
  ∀ (s t : State) (c : CmdCtx),
    (Taken s c 0x0002 t →
      exec (.devStatus c 1) s = .next (t.reply c .ok (mask64 (fun n => t.chs[n].tsv.offline))) ∧
      exec (.devStatus c 2) s = .next (t.reply c .ok (mask64 (fun n => !t.chs[n].tsv.offline && (t.chs[n].tsv).erasedCount != 0))) ∧
      (t.fwRunning = true → exec (.devStatus c 3) s = .next (t.reply c .ok t.boot.version)) ∧
      (t.fwRunning = false → exec (.devStatus c 3) s = .next (t.reply c .ok 0)) ∧
      ∀ x : BitVec 8, 3 < x.toNat → exec (.devStatus c x) s = .next (t.reply c .badParam 0)) ∧
    (Taken s c 0x0801 t → ∀ (r : FaultRec) (q : BitVec 8), q.toNat ≤ 3 → t.flt.first = some r →
      exec (.faultRead c 0x40 q) s = .next (t.reply c .ok (recQuad r q.toNat))) ∧
    (Taken s c 0x0801 t → ∀ x q : BitVec 8, x.toNat < 32 → q.toNat ≤ 3 → t.flt.held ≤ x.toNat →
      exec (.faultRead c x q) s = .next (t.reply c .ok 0)) ∧
    (Taken s c 0x0307 t → ∀ (g : BitVec 16) (i : BitVec 8), g.toNat ≤ 255 → i.toNat ≤ 15 →
      exec (.accessGroupGet c g i) s = .next (t.reply c .ok (t.groupPat g.toNat i.toNat)))

/-- An unassigned opcode is refused with BAD_OPCODE once firmware runs, and changes nothing besides (R344, R346). -/
def Sys2Proof.Part.UnassignedOpcodeIsRefused : Prop :=
  ∀ (s t : State) (c : CmdCtx) (op : BitVec 16), s.begin c op.toNat = some t → assignedOpcodes.contains op.toNat = false →
    exec (.unassignedOpcode c op) s = .next (t.reply c (if t.fwRunning then .badOpcode else .busy) 0)

/-- Reading commands and unassigned opcodes reply, and change nothing else. -/
def Obligations.ReadingCommandsReplyAndChangeNothing : Prop :=
  Part.DevIdentifyExample ∧ Part.ReadingCommandsReply ∧ Part.UnassignedOpcodeIsRefused

/-- POWER_CAP_SET takes a cap in the range of R29, answers the previous cap, and refuses every other cap (R460). -/
def Sys2Proof.Part.PowerCapSetKeepsTheRange : Prop :=
  ∀ (s t : State) (c : CmdCtx) (cap : BitVec 16) (top : Nat), Taken s c 0x0901 t →
    (t.glb.variant = .kv9216 ∧ top = 220 ∨ t.glb.variant = .kv9208 ∧ top = 170) →
    (120 ≤ cap.toNat → cap.toNat ≤ top →
      exec (.powerCapSet c cap) s =
        .next (({ t with thm := { t.thm with cap := cap.toNat } }).reply c .ok (BitVec.ofNat 64 t.thm.cap))) ∧
    (cap.toNat < 120 ∨ top < cap.toNat → exec (.powerCapSet c cap) s = .next (t.reply c .badParam 0))

/-- RING_SET reconfigures a ring that is not the issuing one and has no packet unanswered (R337); the reply of a command that a failed
ring still has in execution is dropped (the model's choice, log entry 99). -/
def Sys2Proof.Part.RingSetRestartsTheRing : Prop :=
  ∀ (s t : State) (c : CmdCtx) (r : Fin 32) (log2 hostPort vector : BitVec 8) (owner : BitVec 32) (groups : BitVec 16),
    Taken s c 0x0003 t →
    (c.src = .ring 0 ∨ ∃ m p u tag, c.src = .remote m p u tag) → c.src ≠ .ring r →
    log2 = 0 ∨ 4 ≤ log2.toNat ∧ log2.toNat ≤ 12 → hostPort.toNat < 8 → vector = 0 ∨ 8 ≤ vector.toNat →
    owner.toNat < 1048576 → groups.toNat < 2048 →
    ((t.cmd.rings[r]).tail = (t.cmd.rings[r]).done ∨ (t.cmd.rings[r]).failed = true →
      exec (.ringSet c (BitVec.ofNat 8 r.val) log2 hostPort vector owner groups) s =
        .next ((t.modRing r (fun x => { x with
          en := decide (log2 ≠ 0), log2 := log2.toNat, hostPort := Fin.ofNat 8 hostPort.toNat, vector := vector,
          owner := owner.setWidth 20, groups := groups.setWidth 11, tail := 0, head := 0, done := 0, failed := false,
          stale := t.cmd.waits.any (fun w => w.ctx.src == .ring r) })).reply c .ok 0)) ∧
    ((t.cmd.rings[r]).tail ≠ (t.cmd.rings[r]).done → (t.cmd.rings[r]).failed = false →
      exec (.ringSet c (BitVec.ofNat 8 r.val) log2 hostPort vector owner groups) s = .next (t.reply c .busy 0))

/-- MBX_BIND and MBX_LOCK act on the table, but not from the direct slot (R366). -/
def Sys2Proof.Part.MailboxTableCommands : Prop :=
  ∀ (s t : State) (c : CmdCtx),
    (Taken s c 0x0005 t → (∀ p m, c.src ≠ .direct p m) →
      exec (.mbxLock c) s =
        .next (({ t with mbx := { t.mbx with lock := true } }).reply c .ok (BitVec.ofNat 64 (countIf t.mbx.ch.toList Mbx.bound)))) ∧
    (Taken s c 0x0005 t → ∀ p m, c.src = .direct p m → exec (.mbxLock c) s = .next (t.reply c .notPermitted 0)) ∧
    (Taken s c 0x0004 t → (∀ p m, c.src ≠ .direct p m) → ∀ (ch : Fin 64) (a b : W32),
      (t.mbx.lock = true → exec (.mbxBind c (BitVec.ofNat 8 ch.val) a b) s = .next (t.reply c .locked 0)) ∧
      (t.mbx.lock = false → entryOk a = true → entryOk b = true → beValid a = beValid b → t.sameIdentity a b = false →
        (ch.val = 63 → exec (.mbxBind c (BitVec.ofNat 8 ch.val) a b) s = .next (t.reply c .notPermitted 0)) ∧
        (ch.val ≠ 63 → exec (.mbxBind c (BitVec.ofNat 8 ch.val) a b) s =
          .next ((t.modMbx ch (fun _ => { bindA := a, bindB := b })).reply c .ok 0))))

/-- The Faults commands act as their table says (R446, R442, R447). -/
def Sys2Proof.Part.FaultCommandsAct : Prop :=
  ∀ (s t : State) (c : CmdCtx),
    (Taken s c 0x0802 t →
      exec (.faultClear c 2) s =
        .next (({ t with flt := { t.flt with hist := [], newest := 0, held := 0, histLost := 0 } }).reply c .ok (BitVec.ofNat 64 t.flt.held)) ∧
      exec (.faultClear c 8) s = .next (({ t with flt := { t.flt with faultHold := false } }).reply c .ok 0) ∧
      (∀ w : BitVec 8, w = 0 ∨ 64 ≤ w.toNat → exec (.faultClear c w) s = .next (t.reply c .badParam 0)) ∧
      ∀ w : BitVec 8, w ≠ 0 → w.toNat < 64 → ∃ f : Flt,
        exec (.faultClear c w) s =
          .next (({ t with flt := f }).reply c .ok (if w.getLsbD 1 then BitVec.ofNat 64 t.flt.held else 0)) ∧
        f.first = (if w.getLsbD 0 then none else t.flt.first) ∧ f.held = (if w.getLsbD 1 then 0 else t.flt.held) ∧
        f.countFatal = (if w.getLsbD 2 then 0 else t.flt.countFatal) ∧ f.faultHold = (!w.getLsbD 3 && t.flt.faultHold) ∧
        f.alertPend = (if w.getLsbD 4 then 0 else t.flt.alertPend) ∧ f.irqPend = (if w.getLsbD 5 then 0 else t.flt.irqPend)) ∧
    (Taken s c 0x0803 t → ∀ id : BitVec 16, id.toNat < 4096 →
      (fltClass id.toNat ≠ 0 → exec (.faultForce c id) s = .next ((t.forceEvent id.toNat (t.issuer c)).reply c .ok 0)) ∧
      (fltClass id.toNat = 0 → exec (.faultForce c id) s = .next (t.reply c .badParam 0))) ∧
    (Taken s c 0x0804 t → ∀ (id : BitVec 16) (v : BitVec 8), id.toNat < 4096 → fltClass id.toNat ≠ 0 →
      exec (.reactionSet c id 1 v 0) s =
        .next (({ t with flt := t.flt.modSrc id.toNat (fun x =>
          { x with reaction := if fltClass id.toNat = 3 then v ||| 0x48#8 else v }) }).reply c .ok 1) ∧
      exec (.reactionSet c id 1 v 1) s =
        .next (({ t with flt := t.flt.modSrc id.toNat (fun x =>
          { x with reaction := if fltClass id.toNat = 1 then 0x08#8 else if fltClass id.toNat = 2 then 0x39#8 else 0x7A#8 }) }).reply c .ok 1))

/-- POWER_CAP_SET, RING_SET, the mailbox table commands and the Faults commands act as their tables say. -/
def Obligations.SettingCommandsAct : Prop :=
  Part.PowerCapSetKeepsTheRange ∧ Part.RingSetRestartsTheRing ∧ Part.MailboxTableCommands ∧ Part.FaultCommandsAct

/-- The firmware commands in the boot state: FW_BEGIN zeroes the window and starts a load, FW_CHUNK copies its bytes into
the window within SIZE, FW_COMMIT closes the window and begins verification (R347, R395, R399). -/
def Sys2Proof.Part.FirmwareCommandsLoad : Prop :=
  ∀ (s t : State) (c : CmdCtx), t.boot.phase = .boot →
    (Taken s c 0x0101 t → ∀ size : W32, 1 ≤ size.toNat → size.toNat ≤ 4194304 →
      exec (.fwBegin c size) s = .next (({ t with boot := { t.boot with
        window := [], size := size.toNat, loading := true, begun := true } }).reply c .ok 0)) ∧
    (Taken s c 0x0102 t → t.boot.begun = true → t.boot.loading = true → t.pathOpen (Machine.CmdCtx.path c) = true →
      ∀ (off : W32) (len : BitVec 8) (data : BitVec 384), 1 ≤ len.toNat → len.toNat ≤ 48 →
        (off.toNat + len.toNat ≤ t.boot.size →
          exec (.fwChunk c off len data) s = .next ((t.winStore off.toNat (toBytes data len.toNat)).reply c .ok 0)) ∧
        (t.boot.size < off.toNat + len.toNat → exec (.fwChunk c off len data) s = .next (t.reply c .badParam 0))) ∧
    (Taken s c 0x0102 t → t.boot.begun = false → ∀ (off : W32) (len : BitVec 8) (data : BitVec 384),
      exec (.fwChunk c off len data) s = .next (t.reply c .notPermitted 0)) ∧
    (Taken s c 0x0103 t → (t.boot.begun = true →
      exec (.fwCommit c) s = .next { t with
        boot := { t.boot with loading := false, phase := .verifying },
        cmd := { t.cmd with waits := t.cmd.waits ++ [{ ctx := c, kind := .verify }] } }) ∧
      (t.boot.begun = false → exec (.fwCommit c) s = .next (t.reply c .notPermitted 0)))

/-- FW_BEGIN, FW_CHUNK and FW_COMMIT complete from the direct slot in the boot state, whatever it held before: the slot shows the packet's
issuer until the reply (R345, R347, R395, R399). -/
def Sys2Proof.Part.FirmwareCommandsComplete : Prop :=
  ∀ (s : State) (p : Sys2Proof.Path) (m : MasterId) (tag : W32) (irq : Bool),
    s.boot.phase = .boot → s.dieUp = true → s.cmd.go = false →
    let c : CmdCtx := { src := .direct p m, tag := tag, irq := irq }
    let t : State := { s with cmd := { s.cmd with go := true, done := false, issuer := m } }
    (∀ size : W32, 1 ≤ size.toNat → size.toNat ≤ 4194304 →
      exec (.fwBegin c size) s = .next (({ t with boot := { s.boot with
        window := [], size := size.toNat, loading := true, begun := true } } : State).reply c .ok 0)) ∧
    (s.boot.begun = true → s.boot.loading = true → s.pathOpen p = true →
      ∀ (off : W32) (len : BitVec 8) (data : BitVec 384), 1 ≤ len.toNat → len.toNat ≤ 48 → off.toNat + len.toNat ≤ s.boot.size →
        exec (.fwChunk c off len data) s = .next ((t.winStore off.toNat (toBytes data len.toNat)).reply c .ok 0)) ∧
    (s.boot.begun = true →
      exec (.fwCommit c) s = .next { t with
        boot := { s.boot with loading := false, phase := .verifying },
        cmd := { t.cmd with waits := s.cmd.waits ++ [{ ctx := c, kind := .verify }] } })

/-- Verification ends: an image that passes every check of R399 runs and clears VERIFY_FAIL; any other leaves the boot
state, with VERIFY_FAIL set and FW_VERIFY_FAIL logged; the FW_COMMIT that waits replies with the outcome (R399, R400). -/
def Sys2Proof.Part.FirmwareVerificationEnds : Prop :=
  ∀ s : State, s.boot.phase = .verifying → s.flt.stopped = false →
    (s.verify = .ok →
      let v : State := { s with
        boot := { s.boot with
          verifyFail := false, phase := .starting, fwStep := 0, window := [], version := BitVec.ofNat 64 (s.imageNum 16 8) },
        retire := { s.retire with action := 2 } }
      (s.cmd.waits.find? (fun w => w.kind == .verify) = none → exec .fwVerifyEnd s = .next v) ∧
      ∀ w, s.cmd.waits.find? (fun w => w.kind == .verify) = some w → exec .fwVerifyEnd s = .next (v.finish w .ok 0)) ∧
    (s.verify ≠ .ok →
      let v : State := ({ s with boot := { s.boot with verifyFail := true, phase := .boot } } : State).log evFwVerifyFail
        (detail 0 s.verify.code) acNone (s.self agentCC0)
      v.boot.phase = .boot ∧ v.boot.verifyFail = true ∧ v.boot.window = s.boot.window ∧
      (v.cmd.waits.find? (fun w => w.kind == .verify) = none → exec .fwVerifyEnd s = .next v) ∧
      ∀ w, v.cmd.waits.find? (fun w => w.kind == .verify) = some w → exec .fwVerifyEnd s = .next (v.finish w s.verify 0))

/-- Firmware commands load the window and verification runs the image or refuses it. -/
def Obligations.FirmwareIsLoadedAndVerified : Prop :=
  Part.FirmwareCommandsLoad ∧ Part.FirmwareCommandsComplete ∧ Part.FirmwareVerificationEnds

/-- The key commands: KEY_ERASE empties a slot and raises its generation, once no request that looked it up is held (R25, log entry 92), KEY_QUERY
reports it, KEY_LOAD_WRAPPED loads the keys that the blob unwraps to into an EMPTY slot (R151, R152, R348). -/
def Sys2Proof.Part.KeyCommandsAct : Prop :=
  ∀ (s t : State) (c : CmdCtx) (slot : BitVec 16),
    (Taken s c 0x0202 t → slot.toNat ≤ 4095 →
      let k : KeySlot := { gen := (t.keySlot slot.toNat).gen + 1, emptyLogged := (t.keySlot slot.toNat).emptyLogged }
      let olds := t.lookups (fun _ e => peEnc e && peSlot e == slot.toNat)
      (olds = [] → t.cmd.waits.any (fun w => w.setsUnder slot.toNat) = false →
        exec (.keyErase c slot) s = .next (({ t with sec := { t.sec with keys := smPut t.sec.keys slot.toNat k } } : State).reply c .ok 0)) ∧
      (olds ≠ [] ∨ t.cmd.waits.any (fun w => w.setsUnder slot.toNat) = true →
        exec (.keyErase c slot) s = .next { t with
          sec := { t.sec with keys := smPut t.sec.keys slot.toNat { t.keySlot slot.toNat with erasing := true } },
          cmd := { t.cmd with
            nextPolicy := t.cmd.nextPolicy + 1,
            waits := t.cmd.waits ++ [{ ctx := c, kind := .policy t.cmd.nextPolicy olds .ok 0 (.eraseKey slot.toNat) }] } })) ∧
    (Taken s c 0x0202 t → 4095 < slot.toNat → exec (.keyErase c slot) s = .next (t.reply c .badParam 0)) ∧
    (Taken s c 0x0203 t → slot.toNat ≤ 4095 →
      let k := t.keySlot slot.toNat
      exec (.keyQuery c slot) s = .next (t.reply c .ok (at64 62 (b2n k.loaded) ||| at64 61 (b2n k.kekSel) ||| at64 53 k.gen.toNat |||
        at64 32 (t.keyRefs slot.toNat) ||| (if k.loaded then k.loadId.setWidth 64 else 0)))) ∧
    (Taken s c 0x0201 t → ∀ addr : W64,
      (4095 < slot.toNat ∨ addr.toNat % 64 ≠ 0 → exec (.keyLoadWrapped c slot addr) s = .next (t.reply c .badParam 0)) ∧
      (slot.toNat ≤ 4095 → addr.toNat % 64 = 0 →
        ((t.keySlot slot.toNat).loaded = true → exec (.keyLoadWrapped c slot addr) s = .next (t.reply c .locked 0)) ∧
        ((t.keySlot slot.toNat).loaded = false →
          ∀ (u : State) (st : CStatus) (ls : List (BitVec 512)), t.readBlob c addr.toNat = (u, st, ls) →
            (st ≠ .ok → exec (.keyLoadWrapped c slot addr) s = .next (u.reply c (CmdStatus.ofCompletion st) 0)) ∧
            (st = .ok → exec (.keyLoadWrapped c slot addr) s = .next (match u.unwrapBlob (lineBytes ls) with
              | .error e => u.reply c e 0
              | .ok (dk, tk) =>
                let k : KeySlot := {
                  loaded := true, dataKey := dk, tagKey := tk, hashKey := hashKeyOf tk, gen := (t.keySlot slot.toNat).gen + 1,
                  loadId := ofBytes 32 (((lineBytes ls).drop 4).take 4), kekSel := nth (lineBytes ls) 2 0 == 1 }
                ({ u with sec := { u.sec with keys := smPut u.sec.keys slot.toNat k } }).reply c .ok 0)))))

/-- INTEGRITY_CONFIG runs once per cold reset, after the fill and LOCK, and answers the tree base of R135 (R136, R348). -/
def Sys2Proof.Part.IntegrityConfigRunsOnce : Prop :=
  ∀ (s t : State) (c : CmdCtx) (code : BitVec 8), Taken s c 0x0310 t →
    (t.sec.configured = true → exec (.integrityConfig c code) s = .next (t.reply c .locked 0)) ∧
    (t.sec.configured = false →
      ((t.glb.mapLock = false ∨ ∃ n : Fin 64, t.chs[n].tsv.offline = false ∧ t.chs[n].ecc.initDone = false) →
        exec (.integrityConfig c code) s = .next (t.reply c .notPermitted 0)) ∧
      (t.glb.mapLock = true → (∀ n : Fin 64, t.chs[n].tsv.offline = true ∨ t.chs[n].ecc.initDone = true) →
        (3 < code.toNat → exec (.integrityConfig c code) s = .next (t.reply c .badParam 0)) ∧
        (code = 0 → exec (.integrityConfig c code) s = .next ((t.buildTree 0).reply c .ok 0)) ∧
        ∀ base : Nat,
          (t.glb.variant = .kv9216 ∧ (code = 1 ∧ base = 2031616 ∨ code = 2 ∧ base = 1966080 ∨ code = 3 ∧ base = 1835008) ∨
           t.glb.variant = .kv9208 ∧ (code = 1 ∧ base = 1015808 ∨ code = 2 ∧ base = 983040 ∨ code = 3 ∧ base = 917504)) →
          exec (.integrityConfig c code) s = .next ((t.buildTree code.toNat).reply c .ok (BitVec.ofNat 64 base))))

/-- Key commands fill, query and empty slots; INTEGRITY_CONFIG runs once. -/
def Obligations.KeysAndIntegrityAreConfigured : Prop :=
  Part.KeyCommandsAct ∧ Part.IntegrityConfigRunsOnce

/-- PAGE_SET writes a whole entry in the form of R121 and, where R128 names the change, clears the page, once no request uses the old
entry (R25; the page's later requests wait meanwhile, log entry 92); it answers the previous entry; each refusal of R129 leaves the entry as it was, in the order of log entry 91 where
several apply. -/
def Obligations.PageSetWritesTheEntry : Prop :=
  ∀ (s t : State) (c : CmdCtx) (page entry : W32), Taken s c 0x0301 t →
    (t.sec.configured = false → exec (.pageSet c page entry) s = .next (t.reply c .notPermitted 0)) ∧
    (t.sec.configured = true → (t.glb.variant.pages ≤ page.toNat ∨ t.specialPage page.toNat = true ∨ t.isReserve page.toNat = true) →
      exec (.pageSet c page entry) s = .next (t.reply c .badParam 0)) ∧
    (t.sec.configured = true → page.toNat < t.glb.variant.pages → 512 ≤ page.toNat → t.treePage page.toNat = false →
      t.isReserve page.toNat = false →
      ((t.patRaw page.toNat).getLsbD 26 = true → exec (.pageSet c page entry) s = .next (t.reply c .notPermitted 0)) ∧
      ((t.patRaw page.toNat).getLsbD 26 = false →
        (entry.getLsbD 26 = true → exec (.pageSet c page entry) s = .next (t.reply c .badParam 0)) ∧
        (entry &&& 0x0700000F#32 = 0 →
          (peInt entry = true → (peEnc entry = false ∨ t.inProtected (page.toNat * 131072) = false) →
            exec (.pageSet c page entry) s = .next (t.reply c .badParam 0)) ∧
          ((peInt entry = true → peEnc entry = true ∧ t.inProtected (page.toNat * 131072) = true) →
            (peEnc entry = true → (t.keySlot (peSlot entry)).usable = false →
              exec (.pageSet c page entry) s = .next (t.reply c .badParam 0)) ∧
            ((peEnc entry = true → (t.keySlot (peSlot entry)).usable = true) →
              let olds := t.lookups (fun q _ => q == page.toNat)
              let later : State := { t with cmd := { t.cmd with
                nextPolicy := t.cmd.nextPolicy + 1,
                waits := t.cmd.waits ++ [{ ctx := c, kind := .policy t.cmd.nextPolicy olds .ok 0 (.setPage page.toNat entry (t.coreId c)) }] } }
              (t.changing page.toNat = true → exec (.pageSet c page entry) s = .next later) ∧
              (t.changing page.toNat = false → clears (t.patRaw page.toNat) entry = false →
                exec (.pageSet c page entry) s = .next ((t.setEntry page.toNat entry).answer25 c
                  olds .ok ((t.patRaw page.toNat).setWidth 64))) ∧
              (t.changing page.toNat = false → clears (t.patRaw page.toNat) entry = true → ∀ ch, (t.decodeAddr (page.toNat * 131072)).ch = ch →
                (t.distOn (distOf ch) = false → exec (.pageSet c page entry) s = .next (t.reply c .domainDown 0)) ∧
                (t.distOn (distOf ch) = true → t.chs[ch].tsv.offline = true →
                  exec (.pageSet c page entry) s = .next (t.reply c .notPermitted 0)) ∧
                (t.distOn (distOf ch) = true → t.chs[ch].tsv.offline = false →
                  (olds ≠ [] → exec (.pageSet c page entry) s = .next later) ∧
                  (olds = [] → ∀ v st,
                    t.clearWalks ch (entry ||| (t.patRaw page.toNat &&& 0x40000000#32)) (page.toNat * 131072) = (v, st) →
                    (st ≠ .ok → exec (.pageSet c page entry) s = .next (v.reply c (CmdStatus.ofCompletion st) 0)) ∧
                    (st = .ok → ∀ u b, (v.setEntry page.toNat entry).clearLines ch (t.coreId c) (t.patRaw page.toNat) entry
                        (page.toNat * 131072) = (u, b) →
                      exec (.pageSet c page entry) s = .next (u.reply c
                        (if b then .sealed else .ok) ((t.patRaw page.toNat).setWidth 64)))))))))))

/-- The other page and access-group commands (R113, R116, R126, R148, R335, R348). -/
def Sys2Proof.Part.PageCommandsAct : Prop :=
  ∀ (s t : State) (c : CmdCtx) (page : W32), page.toNat < t.glb.variant.pages → 512 ≤ page.toNat →
    (Taken s c 0x0302 t → t.treePage page.toNat = false → ∃ r, exec (.pageGet c page) s = .next (t.reply c .ok r) ∧
      r.extractLsb' 0 32 = t.patRaw page.toNat ∧ r.getLsbD 32 = t.isReserve page.toNat ∧
      r.getLsbD 33 = (t.sec.sticky.contains page.toNat || t.sec.stickyPend.contains page.toNat)) ∧
    (Taken s c 0x0303 t → exec (.pageRetire c page) s =
      .next ((t.setRetired page.toNat).answer25 c (t.lookups (fun q _ => q == page.toNat)) .ok 0)) ∧
    (Taken s c 0x0304 t → t.treePage page.toNat = false → peValid (t.patRaw page.toNat) = false →
      peRetired (t.patRaw page.toNat) = false → t.isReserve page.toNat = false →
      (t.retire.reserve.length < 1024 → exec (.pageReserve c page) s =
        .next (({ t with retire := { t.retire with reserve := t.retire.reserve ++ [page.toNat] } }).reply c .ok 0)) ∧
      (1024 ≤ t.retire.reserve.length → exec (.pageReserve c page) s = .next (t.reply c .badParam 0))) ∧
    (Taken s c 0x0305 t →
      (t.retire.records = [] → exec (.pageRecordRead c) s = .next (t.reply c .ok 0)) ∧
      ∀ r rest, t.retire.records = r :: rest →
        exec (.pageRecordRead c) s = .next (({ t with retire := { t.retire with records := rest } }).reply c .ok r)) ∧
    (Taken s c 0x0306 t → ∀ (g : BitVec 16) (i : BitVec 8) (p : W64), g.toNat ≤ 255 → i.toNat ≤ 15 →
      (p &&& 0x1FFFFF0000000000#64 = 0 → ∃ u : State, exec (.accessGroupSet c g i p) s =
        .next (u.answer25 c (t.lookups (fun _ e => peGroup e == g.toNat)) .ok 0) ∧
        u = { t with sec := { t.sec with groups := u.sec.groups } } ∧ u.groupPat g.toNat i.toNat = p) ∧
      (p &&& 0x1FFFFF0000000000#64 ≠ 0 → exec (.accessGroupSet c g i p) s = .next (t.reply c .badParam 0))) ∧
    (Taken s c 0x0311 t →
      exec (.pageClearSticky c page 0) s = .next (({ t with sec := t.sec.clearSticky page.toNat }).answer25 c
        (t.lookups (fun q _ => q == page.toNat)) .ok 0) ∧
      exec (.pageClearSticky c page 1) s = .next (t.reply c .badParam 0) ∧
      exec (.pageClearSticky c 0 1) s = .next (({ t with sec := { t.sec with
        sticky := [], stickyPend := [], stickyOverflow := false, stickyLost := false } }).answer25 c
          (t.lookups (fun _ e => peSticky e)) .ok 0))

/-- A command that waits under R25 or R324 does what it still has to do and answers once no request that used the old values is held, and
not before: a key slot is erased, a page gets its entry and its clear (R25, R128, R152). -/
def Sys2Proof.Part.PolicyChangeCompletes : Prop :=
  ∀ (s : State) (c : CmdCtx) (id : Nat) (olds : List (MasterId × BitVec 16)) (st : CmdStatus) (r : W64) (act : PolicyAct),
    s.cmd.waits = [{ ctx := c, kind := .policy id olds st r act }] →
    let held := (fins 64).flatMap (fun ch => (s.heldRequests ch).map (fun x => (x.master, x.tag))) ++ s.tileLookups (fun _ _ => true)
    ((∀ o ∈ olds, o ∉ held) →
      (act = .none → exec (.policyChangeComplete id) s = .next (({ s with cmd := { s.cmd with waits := [] } } : State).reply c st r)) ∧
      (∀ slot, act = .eraseKey slot → exec (.policyChangeComplete id) s =
        .next ((({ s with cmd := { s.cmd with waits := [] } } : State).zeroise slot).reply c st r)) ∧
      (∀ p e m, act = .setPage p e m → ∀ u x, ({ s with cmd := { s.cmd with waits := [] } } : State).setPageNow m p e = (u, x) →
        exec (.policyChangeComplete id) s =
          .next ((u.reply c x ((s.patRaw p).setWidth 64)).drainWaiting (s.decodeAddr (p * 131072)).ch))) ∧
    ((∃ o ∈ olds, o ∈ held) → exec (.policyChangeComplete id) s = .next s)

/-- The other page commands act, and a policy change completes once no request uses the old values. -/
def Obligations.PageCommandsActAndComplete : Prop :=
  Part.PageCommandsAct ∧ Part.PolicyChangeCompletes

/-- CLASS_SET_GUARANTEE: admitted only where no named channel's sum would exceed 240; then every named channel holds the new
guarantee, and one whose District is ON has it placed and committed (R215, R216, R218). -/
def Sys2Proof.Part.GuaranteeIsAdmittedAndPlaced : Prop :=
  ∀ (s t : State) (c : CmdCtx) (m : W64) (cls flags : BitVec 8) (slots : BitVec 16), Taken s c 0x0401 t →
    ((15 < cls.toNat ∨ 240 < slots.toNat ∨ m = 0 ∨ 3 < flags.toNat) →
      exec (.classSetGuarantee c m cls flags slots) s = .next (t.reply c .badParam 0)) ∧
    (cls.toNat ≤ 15 → slots.toNat ≤ 240 → m ≠ 0 → flags.toNat ≤ 3 →
      ((∃ n : Fin 64, m.getLsbD n.val = true ∧ 240 < ((t.chs[n].adm).withSlots cls.toNat slots.toNat).sum) →
        exec (.classSetGuarantee c m cls flags slots) s = .next (t.reply c .admissionRefused 0)) ∧
      ((∀ n : Fin 64, m.getLsbD n.val = true → ((t.chs[n].adm).withSlots cls.toNat slots.toNat).sum ≤ 240) →
        ∃ u : State, u = { t with chs := u.chs } ∧
          (∀ n : Fin 64, m.getLsbD n.val = false → u.chs[n] = t.chs[n]) ∧
          (∀ n : Fin 64, m.getLsbD n.val = true → u.chs[n].adm.g = (t.chs[n]).adm.g.setIfInBounds cls.toNat slots.toNat ∧
            (t.distOn (distOf n) = true → u.chs[n].rbt.pend = placeTable u.chs[n].adm.g ∧ u.chs[n].rbt.commit = true) ∧
            (t.distOn (distOf n) = false → u.chs[n].rbt = t.chs[n].rbt)) ∧
          exec (.classSetGuarantee c m cls flags slots) s = .next
            (if u.tablesActive m then u.reply c .ok (u.guaranteeResult m)
             else { u with cmd := { u.cmd with waits := u.cmd.waits ++ [{ ctx := c, kind := .guarantee m (u.guaranteeResult m) }] } })))

/-- CLASS_SET_LIMIT and CLASS_COUNTERS_SNAPSHOT: what they set, and the strobe they wait for (R226, R228, R229). -/
def Sys2Proof.Part.LimitAndSnapshotCommands : Prop :=
  ∀ (s t : State) (c : CmdCtx),
    (Taken s c 0x0402 t → ∀ (kerb : BitVec 16) (cls : BitVec 8) (rate burst : BitVec 16),
      (kerbsOf kerb = none → exec (.classSetLimit c kerb cls rate burst) s = .next (t.reply c .badParam 0)) ∧
      ∀ js, kerbsOf kerb = some js →
        ((15 ≤ cls.toNat ∨ rate ≠ 0 ∧ burst = 0) → exec (.classSetLimit c kerb cls rate burst) s = .next (t.reply c .badParam 0)) ∧
        (∀ k : Fin 16, k.val = cls.toNat → k.val < 15 → rate = 0 ∨ burst ≠ 0 → kerb.extractLsb' 8 4 = 0 →
          ∃ u : State, u = { t with kerbs := u.kerbs } ∧
            (∀ j : Fin 140, j ∉ js → u.kerbs[j] = t.kerbs[j]) ∧
            (∀ j ∈ js, (u.kerbs[j].cls[k]).admitted = (rate, burst) ∧
              (t.kerbPowered j = true → (u.kerbs[j].cls[k]).next = some (rate, burst)) ∧
              (∀ i : Fin 16, i ≠ k → u.kerbs[j].cls[i] = t.kerbs[j].cls[i])) ∧
            exec (.classSetLimit c kerb cls rate burst) s = .next
              (if js.any t.kerbPowered then
                { u with cmd := { u.cmd with waits := u.cmd.waits ++ [{ ctx := c, kind := .limit (BitVec.ofNat 64 js.length) }] } }
               else u.reply c .ok (BitVec.ofNat 64 js.length)))) ∧
    (Taken s c 0x0403 t → ∀ page : W32,
      (page.toNat < t.glb.variant.pages → t.treePage page.toNat = false →
        (peRetired (t.patRaw page.toNat) = true → exec (.classCountersSnapshot c page) s = .next (t.reply c .notPermitted 0)) ∧
        (peRetired (t.patRaw page.toNat) = false → exec (.classCountersSnapshot c page) s = .next
          { t with cmd := { t.cmd with waits := t.cmd.waits ++ [{ ctx := c, kind := .snapshot page.toNat }] } })) ∧
      ((t.glb.variant.pages ≤ page.toNat ∨ t.treePage page.toNat = true) →
        exec (.classCountersSnapshot c page) s = .next (t.reply c .badParam 0)))

/-- Guarantees are admitted whole and placed; limits and snapshots wait for their strobe. -/
def Obligations.BandwidthIsAdmittedAndLimited : Prop :=
  Part.GuaranteeIsAdmittedAndPlaced ∧ Part.LimitAndSnapshotCommands

/-- The bucket of a class (R223, R226): unlimited at RATE 0; otherwise RATE / 16 tokens a refill with the fraction carried and
the level kept at or below BURST, so that sixteen refills below the ceiling add exactly RATE; new values take effect after
the refill. -/
def Sys2Proof.Part.BucketRefills : Prop :=
  (∀ k : KClass, k.rate = 0 → k.refill = k) ∧
  (∀ k : KClass, k.rate ≠ 0 → k.refill.level ≤ k.burst.toNat ∧
    16 * (k.refill.level - k.level) + k.refill.frac ≤ k.rate.toNat + k.frac ∧
    (k.refill.level < k.burst.toNat → 16 * (k.refill.level - k.level) + k.refill.frac = k.rate.toNat + k.frac)) ∧
  (∀ k : KClass, k.rate ≠ 0 → k.frac < 16 → k.level + k.rate.toNat < k.burst.toNat →
    (Nat.iterate KClass.refill 16 k).level = k.level + k.rate.toNat ∧ (Nat.iterate KClass.refill 16 k).frac = k.frac) ∧
  (∀ (k : KClass) (r b : BitVec 16), k.next = some (r, b) → k.apply.rate = r ∧ k.apply.burst = b ∧ k.apply.frac = 0 ∧
    k.apply.next = none ∧ k.apply.queue = k.queue ∧
    k.apply.level = if k.rate = 0 then (b.toNat : Int) else min k.level b.toNat)

/-- A strobe s with s mod 16 = 0 refills every Kerb, and one with s mod 256 = 0 ends a revolution: KERB_REFILL and
REVOLUTION_BOUNDARY let the time up to it pass (R209, R223). -/
def Sys2Proof.Part.TimeReachesItsStrobe : Prop :=
  ∀ s : State,
    (∃ u, exec .kerbRefill s = .next u ∧ u.strobe % 16 = 0 ∧ s.strobe < u.strobe ∧ u.strobe ≤ s.strobe + 16) ∧
    (∃ u, exec .revolutionBoundary s = .next u ∧ u.strobe % 256 = 0 ∧ s.strobe < u.strobe ∧ u.strobe ≤ s.strobe + 256) ∧
    exec .kerbRefill s = .next (s.elapse (16 - s.strobe % 16)) ∧
    exec .revolutionBoundary s = .next (s.elapse (256 - s.strobe % 256))

/-- The Roundabout at a revolution boundary: a committed table becomes active; heat and the governor's level set what is
taken and quieted; counting starts at the first boundary with the District ON, and later ones count in RBT_REVS (R211, R214,
R219). -/
def Sys2Proof.Part.RoundaboutBoundary : Prop :=
  ∀ (r : Rbt) (hot on : Bool) (level : Nat),
    (r.boundary hot on level).active = (if r.commit then r.pend else r.active) ∧ (r.boundary hot on level).commit = false ∧
    (r.boundary hot on level).pend = r.pend ∧ (r.boundary hot on level).hot = hot ∧
    (r.counting = true → (r.boundary hot on level).revs = r.revs + 1 ∧ (r.boundary hot on level).counting = true) ∧
    (r.counting = false → (r.boundary hot on level).revs = r.revs ∧ (r.boundary hot on level).counting = on) ∧
    (r.boundary hot on level).used = r.used ∧ (r.boundary hot on level).idle = r.idle

/-- A slot is counted exactly once: in RBT_USED or RBT_IDLE of one class, in RBT_MAINT or in RBT_NORUN (R214). -/
def Sys2Proof.Part.SlotsAreCountedOnce : Prop :=
  ∀ (c : Channel) (k : Nat), c.rbt.counting = true →
    let total := fun (r : Rbt) => r.maint + r.norun + (r.used.toList.foldl (fun (a : W64) x => a + x) 0) +
      (r.idle.toList.foldl (fun (a : W64) x => a + x) 0)
    total (c.countSlot k).rbt = total c.rbt + 1 ∧ (c.countSlot k).rbt.revs = c.rbt.revs ∧
    (c.countSlot k).rbt.active = c.rbt.active ∧ (c.countSlot k).tsv = c.tsv ∧ (c.countSlot k).ecc = c.ecc

/-- A slot table entry takes only 0x00 and 0x80-0x8F, and a position that is a multiple of 16 takes nothing and reads 0x10
after reset (R210). -/
def Sys2Proof.Part.SlotTableKeepsItsForm : Prop :=
  ∀ (r : Rbt) (p : Nat) (b : Byte), p < 256 →
    (p % 16 = 0 ∨ (b ≠ 0 ∧ (b.toNat < 0x80 ∨ 0x8F < b.toNat)) → r.writeSlot p b = r) ∧
    (p % 16 ≠ 0 → b = 0 ∨ 0x80 ≤ b.toNat ∧ b.toNat ≤ 0x8F →
      slotAt (r.writeSlot p b).pend p = b ∧ (∀ q, q < 256 → q ≠ p → slotAt (r.writeSlot p b).pend q = slotAt r.pend q) ∧
      (r.writeSlot p b).active = r.active) ∧
    slotAt resetTable p = (if p % 16 = 0 then 0x10#8 else 0x00#8)

/-- Refills add RATE/16 tokens, revolution boundaries commit slot tables, each slot counts once, and tables keep their form. -/
def Obligations.TimeRefillsBucketsAndEndsRevolutions : Prop :=
  Part.BucketRefills ∧ Part.TimeReachesItsStrobe ∧ Part.RoundaboutBoundary ∧ Part.SlotsAreCountedOnce ∧ Part.SlotTableKeepsItsForm

/-- QUEUE_CREATE checks in the order of R353, and makes an ACTIVE queue with its counts at 0 and the next GEN. -/
def Sys2Proof.Part.QueueCreateMakesAnActiveQueue : Prop :=
  ∀ (s t : State) (c : CmdCtx) (q : BitVec 16) (flags log2 vector cls : BitVec 8) (owner : W32) (engines db cb : W64)
    (doorbell node tq : BitVec 16), Taken s c 0x0501 t →
    (15 ≤ cls.toNat ∨ log2.toNat < 4 ∨ 16 < log2.toNat ∨ 32768 ≤ q.toNat →
      exec (.queueCreate c q flags log2 vector cls owner engines db cb doorbell node tq) s = .next (t.reply c .badParam 0)) ∧
    (q.toNat < 32768 → doorbell.toNat < 32768 → flags &&& 0x78#8 = 0 → owner.toNat < 1048576 → node.toNat < 4096 →
      tq.toNat < 32768 → cls.toNat < 15 → 4 ≤ log2.toNat → log2.toNat ≤ 16 → vector = 0 ∨ 8 ≤ vector.toNat →
      (flags.getLsbD 7 = false ∧ engines ≠ 0 ∧ node = 0 ∧ tq = 0 ∨
        flags.getLsbD 7 = true ∧ engines = 0 ∧ node.toNat ≠ t.fab.nodeId.toNat ∧ node.toNat ≠ 0xFFF) →
      db.toNat % (128 * 2 ^ log2.toNat) = 0 → cb.toNat % (32 * 2 ^ log2.toNat) = 0 → 0x4000000 ≤ db.toNat → 0x4000000 ≤ cb.toNat →
      db.toNat + 128 * 2 ^ log2.toNat ≤ t.userEnd → cb.toNat + 32 * 2 ^ log2.toNat ≤ t.userEnd →
      (db.toNat + 128 * 2 ^ log2.toNat ≤ cb.toNat ∨ cb.toNat + 32 * 2 ^ log2.toNat ≤ db.toNat) →
      ((t.wq q.toNat).isSome = true ∨ (t.doorbellQueue doorbell.toNat).isSome = true →
        exec (.queueCreate c q flags log2 vector cls owner engines db cb doorbell node tq) s = .next (t.reply c .busy 0)) ∧
      (t.wq q.toNat = none → t.doorbellQueue doorbell.toNat = none → ∃ x : Queue, ∃ g : BitVec 16, ∃ u : State,
        exec (.queueCreate c q flags log2 vector cls owner engines db cb doorbell node tq) s = .next (u.reply c .ok (g.setWidth 64)) ∧
        u = { t with cmd := { t.cmd with queues := u.cmd.queues, gens := u.cmd.gens } } ∧
        u.cmd.queues = smPut t.cmd.queues q.toNat x ∧ u.cmd.gens = smPut t.cmd.gens q.toNat g ∧
        g = smGetD t.cmd.gens q.toNat 0 + 1 ∧ x.gen = g ∧ x.st = .active ∧ x.tail = 0 ∧ x.head = 0 ∧ x.done = 0 ∧
        x.engines = engines ∧ x.descBase = db ∧ x.cmplBase = cb ∧ x.owner = owner.setWidth 20 ∧ x.cls = cls.setWidth 4 ∧
        x.log2 = log2.toNat ∧ x.vector = vector ∧ x.hostPort.val = flags.toNat % 8 ∧ x.forward = flags.getLsbD 7 ∧
        x.doorbell = doorbell.setWidth 15 ∧ x.targetNode = node.setWidth 12 ∧ x.targetQueue = tq.setWidth 15))

/-- QUEUE_DESTROY drains a queue, and QUEUE_DRAINED frees its context and replies with the descriptors never consumed (R354). -/
def Sys2Proof.Part.QueueDestroyDrains : Prop :=
  (∀ (s t : State) (c : CmdCtx) (q : BitVec 16), Taken s c 0x0502 t →
    (t.wq q.toNat = none → exec (.queueDestroy c q) s = .next (t.reply c .badParam 0)) ∧
    ∀ x, t.wq q.toNat = some x →
      (x.st = .draining → exec (.queueDestroy c q) s = .next (t.reply c .ok 0)) ∧
      (x.st ≠ .draining → exec (.queueDestroy c q) s = .next { t with cmd := { t.cmd with
        queues := smPut t.cmd.queues q.toNat { x with st := .draining },
        waits := t.cmd.waits ++ [{ ctx := c, kind := .destroy q.toNat }] } })) ∧
  (∀ (s : State) (q : BitVec 15) (x : Queue) (w : CmdWait), s.wq q.toNat = some x → x.st = .draining →
    s.cmd.waits.find? (fun w => w.kind == .destroy q.toNat) = some w →
    (x.done = x.head → exec (.queueDrained q) s = .next (({ s with cmd := { s.cmd with
      queues := smDel s.cmd.queues q.toNat, waits := s.cmd.waits.erase w } }).reply w.ctx .ok ((x.tail - x.head).setWidth 64))) ∧
    (x.done ≠ x.head → exec (.queueDrained q) s = .next s))

/-- QUEUE_CREATE makes an ACTIVE queue; QUEUE_DESTROY drains it and frees its context. -/
def Obligations.WorkQueuesAreCreatedAndDestroyed : Prop :=
  Part.QueueCreateMakesAnActiveQueue ∧ Part.QueueDestroyDrains

/-- A doorbell write proposes a TAIL: taken from the owner within the ring's size, else ignored, counted and recorded with its
reason (R338, R355, R363). -/
def Sys2Proof.Part.DoorbellsProposeTail : Prop :=
  (∀ (s : State) (p : Sys2Proof.Path) (m : MasterId) (r : Fin 32) (v : W64), dbIndex v = r.val → Writable s p m (0x050108 + 0x20 * r.val) →
    isCore p m = false →
    let x := s.cmd.rings[r]
    let new : W32 := v.setWidth 32
    let count := satAdd s.cmd.dbReject 1
    (x.en = false → exec (.ringDoorbell p m v) s =
      .next { s with cmd := { s.cmd with dbReject := count, dbLast := at32 31 1 ||| at32 28 1 ||| at32 0 r.val } }) ∧
    (x.en = true → s.ownerId x.owner ≠ m → exec (.ringDoorbell p m v) s =
      .next { s with cmd := { s.cmd with dbReject := count, dbLast := at32 31 1 ||| at32 28 2 ||| at32 0 r.val } }) ∧
    (x.en = true → s.ownerId x.owner = m → (2 ^ x.log2 < (new - x.tail).toNat ∨ 2 ^ x.log2 < (new - x.head).toNat) →
      exec (.ringDoorbell p m v) s =
        .next { s with cmd := { s.cmd with dbReject := count, dbLast := at32 31 1 ||| at32 28 3 ||| at32 0 r.val } }) ∧
    (x.en = true → s.ownerId x.owner = m → (new - x.tail).toNat ≤ 2 ^ x.log2 → (new - x.head).toNat ≤ 2 ^ x.log2 →
      exec (.ringDoorbell p m v) s = .next (s.modRing r (fun x => { x with tail := new })))) ∧
  (∀ (s : State) (p : Sys2Proof.Path) (m : MasterId) (d : Fin 32768) (v : W64), dbIndex v = d.val → Writable s p m (0x070000 + 4 * d.val) →
    isCore p m = false →
    let new : W32 := v.setWidth 32
    let count := satAdd s.cmd.dbReject 1
    (s.doorbellQueue d.val = none → exec (.wqDoorbell p m v) s =
      .next { s with cmd := { s.cmd with dbReject := count, dbLast := at32 28 1 ||| at32 0 d.val } }) ∧
    ∀ q x, s.doorbellQueue d.val = some (q, x) → s.wq q = some x →
      (x.st ≠ .active → exec (.wqDoorbell p m v) s =
        .next { s with cmd := { s.cmd with dbReject := count, dbLast := at32 28 4 ||| at32 0 d.val } }) ∧
      (x.st = .active → s.ownerId x.owner ≠ m → exec (.wqDoorbell p m v) s =
        .next { s with cmd := { s.cmd with dbReject := count, dbLast := at32 28 2 ||| at32 0 d.val } }) ∧
      (x.st = .active → s.ownerId x.owner = m → (2 ^ x.log2 < (new - x.tail).toNat ∨ 2 ^ x.log2 < (new - x.head).toNat) →
        exec (.wqDoorbell p m v) s =
          .next { s with cmd := { s.cmd with dbReject := count, dbLast := at32 28 3 ||| at32 0 d.val } }) ∧
      (x.st = .active → s.ownerId x.owner = m → (new - x.tail).toNat ≤ 2 ^ x.log2 → (new - x.head).toNat ≤ 2 ^ x.log2 →
        exec (.wqDoorbell p m v) s = .next { s with cmd := { s.cmd with queues := smPut s.cmd.queues q { x with tail := new } } }))

/-- The dispatcher takes one descriptor of the queue whose turn it is and counts it in HEAD; a descriptor that cannot be read
completes with NOT_PERMITTED, a FORWARD queue's is set aside to be sent, any other is checked; before that, the checks of a descriptor
consumed earlier that need not wait go on (R356, R358, R170). -/
def Sys2Proof.Part.DispatcherTakesOneDescriptor : Prop :=
  (∀ s u : State, s.dieUp = true → s.cmd.stopped = false → s.engs.checking.findSome? s.checkGo = some u → exec .descriptorConsume s = .next u) ∧
  ∀ (s : State) (q : Nat) (x : Queue) (u : State) (st : CStatus) (d : BitVec 1024),
    s.dieUp = true → s.cmd.stopped = false → s.engs.checking.findSome? s.checkGo = none → s.nextQueue = some (q, x) → s.readDesc x x.head.toNat = (u, st, d) →
    let h : State := u.modWq q (fun x => { x with head := x.head + 1 })
    let v : State := { h with cmd := { h.cmd with lastClass := x.cls.toNat, lastQueue := h.cmd.lastQueue.setIfInBounds x.cls.toNat q } }
    let gen := v.engs.eng[lowEngine x.engines].gen
    (st ≠ .ok → exec .descriptorConsume s =
      .next (v.writeCmpl q { desc := .notPermitted, data := st.code, page := x.head.toNat, gen := gen } false)) ∧
    (st = .ok → x.forward = true → exec .descriptorConsume s = .next (v.modWq q (fun x => { x with toSend := x.toSend ++ [d] }))) ∧
    (st = .ok → x.forward = false → exec .descriptorConsume s = .next (v.checkDesc q x d x.head.toNat))

/-- Doorbells propose TAIL and the dispatcher takes one descriptor at a time. -/
def Obligations.DescriptorsAreProposedAndTaken : Prop :=
  Part.DoorbellsProposeTail ∧ Part.DispatcherTakesOneDescriptor

/-- FORWARD queues (R358): a descriptor goes to the target queue as an OP_DISPATCH under the queue's OWNER and class; the
target writes an accepted one at TAIL once its ring has a slot; the completion follows the CMP. -/
def Obligations.ForwardQueues : Prop :=
  (∀ (s : State) (q : BitVec 15) (x : Queue) (d : BitVec 1024) (rest : List (BitVec 1024)),
    s.wq q.toNat = some x → x.toSend = d :: rest → s.dieUp = true → s.transitFull = false →
    ∀ r : Req, r = { master := s.ownerId x.owner, tag := s.fab.nextTag, cls := x.cls, node := x.targetNode, addr := 0,
                     kind := .opDispatch (x.targetQueue.setWidth 16) d, origin := .port (portCore 0) 0 } →
    s.issueBlocked s.mports[portCore 0] r = false →
    let x' : Queue := { x with toSend := rest, sent := x.sent ++ [d] }
    let s' : State := { s with
      fab := { s.fab with nextTag := s.fab.nextTag + 1 }
      cmd := { s.cmd with queues := smPut s.cmd.queues q.toNat x' } }
    exec (.forwardDispatch q) s = .next (((s'.started.modMport (portCore 0) (fun p => { p with
      outst := p.outst ++ [{ req := r, table := true, entered := true }] })).countFwd [.plaza]).sendRequest r)) ∧
  (∀ (s : State) (r : Req) (qn : BitVec 16) (d : BitVec 1024), r.kind = .opDispatch qn d → s.dieUp = true →
    (∀ x, s.wq (qn.toNat % 32768) = some x → x.st = .active → s.ownerId x.owner = r.master →
      2 ^ x.log2 ≤ (x.tail - x.head).toNat → exec (.opDispatch r) s = .next s) ∧
    (s.slotWaits qn r.master = false →
      (s.advance.takeReq r = none → exec (.opDispatch r) s = .next s.advance) ∧
      ∀ s', s.advance.takeReq r = some s' →
        (s'.wq (qn.toNat % 32768) = none → exec (.opDispatch r) s = .next (s'.complete { req := r, status := .notPermitted })) ∧
        ∀ x, s'.wq (qn.toNat % 32768) = some x →
          ((x.st ≠ .active ∨ s'.ownerId x.owner ≠ r.master) →
            exec (.opDispatch r) s = .next (s'.complete { req := r, status := .notPermitted })) ∧
          (x.st = .active → s'.ownerId x.owner = r.master →
            ∀ u st, s'.writeBytesNow r.master (x.descBase.toNat + 128 * (x.tail.toNat % 2 ^ x.log2)) acDispatch x.cls (toBytes d 128) = (u, st) →
              (st = .ok → exec (.opDispatch r) s =
                .next ((u.modWq (qn.toNat % 32768) (fun x => { x with tail := x.tail + 1 })).complete { req := r, status := .ok })) ∧
              (st ≠ .ok → exec (.opDispatch r) s = .next (u.complete { req := r, status := st }))))) ∧
  (∀ (s : State) (q : BitVec 15) (x : Queue) (d : BitVec 1024) (rest : List (BitVec 1024)) (c : Completion),
    s.wq q.toNat = some x → x.sent = d :: rest → s.cmplHeld q.toNat = false →
    (s.mports[portCore 0].delivered).find? (fun (c : Completion) => decide (c.req.kind = .opDispatch (x.targetQueue.setWidth 16) d) &&
      decide (c.req.node = x.targetNode) && decide (c.req.master = s.ownerId x.owner)) = some c →
    let s' : State := { s.modMport (portCore 0) (fun p => { p with delivered := p.delivered.erase c }) with
      cmd := { s.cmd with queues := smPut s.cmd.queues q.toNat { x with sent := rest } } }
    exec (.forwardCompletion q c.status) s = .next (s'.writeCmpl q.toNat
      { tag := dTag d, desc := if c.status = CStatus.ok then CmdStatus.ok else if c.status = CStatus.notPermitted then CmdStatus.notPermitted
          else if c.status = CStatus.pathDown then CmdStatus.pathDown else CmdStatus.internal } (dIrq d)))

/-- An interrupt is sent, or its bit is set where link, enable or mask bar it; a pending one is sent once nothing bars it (R359). -/
def Sys2Proof.Part.PendingInterrupts : Prop :=
  ∀ (s : State) (h : Fin 8) (v : BitVec 8),
    let p := s.hosts[h]
    let e := smGetD p.msix v.toNat {}
    let free := p.linkUp = true ∧ p.msixEn = true ∧ p.msixMask = false ∧ e.masked = false
    (free → s.msix h v = { s with outbox := .msix h v e.addr e.data :: s.outbox }) ∧
    (¬free → s.msix h v = s.modHost h (fun p => { p with pba := setBit p.pba v.toNat true })) ∧
    (free → p.pba.getLsbD v.toNat = true → exec (.msixPendingRelease h v) s =
      .next ((s.modHost h (fun p => { p with pba := setBit p.pba v.toNat false })).emit (.msix h v e.addr e.data))) ∧
    (¬free ∨ p.pba.getLsbD v.toNat = false → exec (.msixPendingRelease h v) s = .next s)

/-- A completion goes to its slot with PHASE, and DONE rises; a refused write puts an ACTIVE queue in ERROR and is logged
(R356, R357); a job's completion is written once, when all of its engines have ended and no hold bars its channel (R188, R58). -/
def Sys2Proof.Part.CompletionsAreWritten : Prop :=
  (∀ (s : State) (n q : Nat) (j : Job), s.jobOf n = some j → j.queue = some q → s.dieUp = true →
    (j.ended = false ∨ s.cmplHeld q = true → exec (.jobCompletionWrite n) s = .next s) ∧
    (j.ended = true → s.cmplHeld q = false →
      let r := jobRecord j (s.engs.eng[lowEngine j.set]).gen
      let u := (s.dropJob n).writeCmpl q r (dIrq j.desc) (some j)
      (r.data ≠ CStatus.internal.code → exec (.jobCompletionWrite n) s = .next u) ∧
      (r.data = CStatus.internal.code → exec (.jobCompletionWrite n) s = .next (u.log (evEngInternal r.engine) (detail r.engine r.tag.toNat))) ∧
      (s.dropJob n).jobOf n = none)) ∧
  ∀ (s : State) (q : Nat) (x : Queue) (r : CmplRec) (irq : Bool) (u : State) (st : CStatus), s.wq q = some x →
    s.writeBytesNow (s.ownerId x.owner) (x.cmplBase.toNat + 32 * (x.done.toNat % 2 ^ x.log2)) acPartial x.cls
      (r.bytes (x.done.toNat / 2 ^ x.log2 % 2 == 0)) = (u, st) → u.wq q = some x →
    let x' := { x with done := x.done + 1 }
    (st = .ok → irq = false → s.writeCmpl q r irq = { u with cmd := { u.cmd with queues := smPut u.cmd.queues q x' } }) ∧
    (st = .ok → irq = true → x.vector ≠ 0 →
      s.writeCmpl q r irq = ({ u with cmd := { u.cmd with queues := smPut u.cmd.queues q x' } }).msix x.hostPort x.vector) ∧
    (st ≠ .ok → x.st = .active → s.writeCmpl q r irq =
      ({ u with cmd := { u.cmd with queues := smPut u.cmd.queues q { x' with st := .error } } }).log evWqCmplFail (detail 0 q) acPartial
        (s.ownerId x.owner) st.code)

/-- Job completions are written with PHASE and interrupts are sent or held pending. -/
def Obligations.CompletionsAndInterruptsAreDelivered : Prop :=
  Part.PendingInterrupts ∧ Part.CompletionsAreWritten

/-- The function state machine (R360): what an enable or a disable request does in each state, the deferral rules, and when a deferred
transition is due. -/
def Obligations.FunctionsFollowTheirTable : Prop :=
  ∀ d : Option Bool,
    fnAsk ⟨.off, d⟩ true = (⟨.starting, none⟩, .ok) ∧ fnAsk ⟨.off, d⟩ false = (⟨.off, none⟩, .ok) ∧
    fnAsk ⟨.starting, d⟩ true = (⟨.starting, none⟩, .ok) ∧
    fnAsk ⟨.starting, none⟩ false = (⟨.starting, some false⟩, .deferred) ∧
    fnAsk ⟨.starting, some false⟩ false = (⟨.starting, some false⟩, .ok) ∧
    fnAsk ⟨.on, d⟩ true = (⟨.on, none⟩, .ok) ∧ fnAsk ⟨.on, d⟩ false = (⟨.stopping, none⟩, .ok) ∧
    fnAsk ⟨.stopping, none⟩ true = (⟨.stopping, some true⟩, .deferred) ∧
    fnAsk ⟨.stopping, some true⟩ true = (⟨.stopping, some true⟩, .ok) ∧
    fnAsk ⟨.stopping, d⟩ false = (⟨.stopping, none⟩, .ok) ∧
    fnDue ⟨.on, some false⟩ = some false ∧ fnDue ⟨.off, some true⟩ = some true ∧ fnDue ⟨.starting, d⟩ = none ∧ fnDue ⟨.stopping, d⟩ = none

/-- DIST_POWER follows R360 on the named District; from OFF its channels that are not offline go to TRAINING, from ON the
District and its engines enter STOPPING (R19, R349, R362). -/
def Sys2Proof.Part.DistPowerMovesTheDistrict : Prop :=
  ∀ (s t : State) (c : CmdCtx) (k : Fin 8) (en : BitVec 8), Taken s c 0x0902 t → en.toNat < 2 →
    let f := t.dist[k].fn
    let r := fnAsk f (en.getLsbD 0)
    let a : State := t.modDist k (fun d => { d with fn := r.1 })
    (f.st = .off → en = 1 → ∃ u : State, exec (.distPower c (BitVec.ofNat 8 k.val) en) s = .next (u.reply c .ok (u.dist[k].gen.setWidth 64)) ∧
      u.dist[k].fn.st = .starting ∧ u.dist[k].gen = t.dist[k].gen ∧
      ∀ n : Fin 64, (distOf n = k → t.chs[n].tsv.offline = false → u.chs[n].ctl.state = .training) ∧
        (distOf n ≠ k ∨ t.chs[n].tsv.offline = true → u.chs[n] = t.chs[n])) ∧
    (f.st = .on → en = 0 → exec (.distPower c (BitVec.ofNat 8 k.val) en) s =
      .next ((a.stopDistrict k).reply c .ok ((a.stopDistrict k).dist[k].gen.setWidth 64))) ∧
    (¬(f.st = .off ∧ en = 1) → ¬(f.st = .on ∧ en = 0) → exec (.distPower c (BitVec.ofNat 8 k.val) en) s =
      .next (a.reply c r.2 (t.dist[k].gen.setWidth 64)))

/-- PORT_ENABLE checks its parameters in the order of R256, records the configuration and follows R360. -/
def Sys2Proof.Part.PortEnableConfigures : Prop :=
  ∀ (s t : State) (c : CmdCtx) (p : Fin 64) (mode rate flags : BitVec 8), Taken s c 0x0903 t →
    let x := t.ports[p]
    let on := flags.getLsbD 0
    let cmd : Instr := .portEnable c (BitVec.ofNat 8 p.val) mode rate flags
    ((8 ≤ flags.toNat ∨ rateAllowed mode.toNat rate.toNat = false ∨ on = true ∧ modeAllowed p.val mode.toNat = false ∨ on = false ∧ mode ≠ 0) →
      exec cmd s = .next (t.reply c .badParam 0)) ∧
    (flags.toNat < 8 → rateAllowed mode.toNat rate.toNat = true → (on = true → modeAllowed p.val mode.toNat = true) → (on = false → mode = 0) →
      (on = true → x.fn.st ≠ .off → x.mode ≠ mode.toNat → exec cmd s = .next (t.reply c .busy 0)) ∧
      (on = true → mode = 4 → t.ports[pairOf p].fn.st ≠ .off → exec cmd s = .next (t.reply c .busy 0)) ∧
      ((on = true → (x.fn.st = .off ∨ x.mode = mode.toNat) ∧ (mode = 4 → t.ports[pairOf p].fn.st = .off) ∧
          (scezoMode mode.toNat = true → p.val % 8 = 1 → t.ports[(⟨p.val - 1, by omega⟩ : Fin 64)].mode ≠ 4)) →
        (t.distOn (distOf p) = false → exec cmd s = .next (t.reply c .domainDown 0)) ∧
        (t.distOn (distOf p) = true →
          let r := fnAsk x.fn on
          let a : State := t.modPort p (fun y => { y with
            want := on, cfgMode := mode.toNat, maxRate := rate.toNat, degradeEn := flags.getLsbD 1, reversalEn := flags.getLsbD 2,
            fn := { y.fn with deferred := r.1.deferred } })
          let u : State := if x.fn.st = .off ∧ on = true then a.startPort p else if x.fn.st = .on ∧ on = false then a.stopPort p else a
          exec cmd s = .next (u.reply c r.2 (u.ports[p].gen.setWidth 64)))))

/-- ENGINE_ENABLE changes every named engine or, where one's District is not ON, none (R349, R360, R362). -/
def Sys2Proof.Part.EngineEnableIsWhole : Prop :=
  ∀ (s t : State) (c : CmdCtx) (m : W64) (en : BitVec 8), Taken s c 0x0904 t →
    (m = 0 ∨ 2 ≤ en.toNat → exec (.engineEnable c m en) s = .next (t.reply c .badParam 0)) ∧
    (m ≠ 0 → en.toNat < 2 →
      ((∃ e : Fin 64, m.getLsbD e.val = true ∧ t.distOn (distOf e) = false) → exec (.engineEnable c m en) s = .next (t.reply c .domainDown 0)) ∧
      ((∀ e : Fin 64, m.getLsbD e.val = true → t.distOn (distOf e) = true) → ∃ (u : State) (st : CmdStatus) (r : W64),
        exec (.engineEnable c m en) s = .next (u.reply c st r) ∧ u = { t with engs := { t.engs with eng := u.engs.eng } } ∧
        (st = .ok ∨ st = .deferred) ∧
        (st = .deferred ↔ ∃ e : Fin 64, m.getLsbD e.val = true ∧ (fnAsk (t.engs.eng[e]).fn (en.getLsbD 0)).2 = .deferred) ∧
        ∀ e : Fin 64, u.engs.eng[e] = (if m.getLsbD e.val then
          { t.engs.eng[e] with want := en.getLsbD 0, fn := (fnAsk (t.engs.eng[e]).fn (en.getLsbD 0)).1 } else t.engs.eng[e])))

/-- DIST_POWER, PORT_ENABLE and ENGINE_ENABLE move their functions. -/
def Obligations.FunctionCommandsMoveTheirFunctions : Prop :=
  Part.DistPowerMovesTheDistrict ∧ Part.PortEnableConfigures ∧ Part.EngineEnableIsWhole

/-- SCRUB_CONFIG and REMAP_MODE_SET write the named channels whose District is ON; the scrubber follows R360 (R102, R108,
R114, R349). -/
def Sys2Proof.Part.ScrubAndRemapSettings : Prop :=
  ∀ (s t : State) (c : CmdCtx) (m : W64), m ≠ 0 →
    (Taken s c 0x0A02 t → ∀ (rows fix : BitVec 8) (ce : BitVec 16),
      (∀ flags : BitVec 8, flags.getLsbD 2 = true → 8 < rows.toNat ∨ 4 < fix.toNat →
        exec (.scrubConfig c m flags rows fix ce) s = .next (t.reply c .badParam 0)) ∧
      (rows.toNat ≤ 8 → fix.toNat ≤ 4 → ∃ u : State,
        exec (.scrubConfig c m 4 rows fix ce) s = .next (u.reply c .ok (t.scrub.gen.setWidth 64)) ∧ u = { t with chs := u.chs } ∧
        ∀ n : Fin 64,
          let new := (t.chs[n].ecc.cfg &&& 0xF00F0000#32) ||| at32 24 rows.toNat ||| at32 20 fix.toNat ||| at32 0 ce.toNat
          u.chs[n] = (if m.getLsbD n.val ∧ t.distOn (distOf n) then { t.chs[n] with ecc := { t.chs[n].ecc with cfg := new } } else t.chs[n])) ∧
      exec (.scrubConfig c m 0 rows fix ce) s = .next (t.reply c .ok (t.scrub.gen.setWidth 64)) ∧
      (t.scrub.fn.st = .on → exec (.scrubConfig c m 2 rows fix ce) s =
        .next (({ t with scrub := { t.scrub with fn := ⟨.stopping, none⟩ } }).reply c .ok (t.scrub.gen.setWidth 64))) ∧
      (t.scrub.fn.st = .off → ∃ u : State, exec (.scrubConfig c m 3 rows fix ce) s = .next (u.reply c .ok (t.scrub.gen.setWidth 64)) ∧
        u.scrub.fn.st = .starting ∧ u.scrub.gen = t.scrub.gen ∧ ∀ n : Fin 64, u.chs[n].ecc.pos = 0)) ∧
    (Taken s c 0x0A03 t → ∀ mode ce act sets : BitVec 8,
      (sets = 0 ∨ 4 ≤ sets.toNat ∨ sets.getLsbD 0 = true ∧ (2 < mode.toNat ∨ ce = 0 ∨ 4 < ce.toNat) ∨ sets.getLsbD 1 = true ∧ 2 < act.toNat →
        exec (.remapModeSet c m mode ce act sets) s = .next (t.reply c .badParam 0)) ∧
      (sets ≠ 0 → sets.toNat < 4 → (sets.getLsbD 0 = true → mode.toNat ≤ 2 ∧ 1 ≤ ce.toNat ∧ ce.toNat ≤ 4) →
        (sets.getLsbD 1 = true → act.toNat ≤ 2) → ∃ u : State, exec (.remapModeSet c m mode ce act sets) s = .next (u.reply c .ok 0) ∧
        u = { t with chs := u.chs, retire := { t.retire with action := if sets.getLsbD 1 then act.toNat else t.retire.action } } ∧
        ∀ n : Fin 64,
          let new := (t.chs[n].ecc.remapCfg &&& 0x07FFFFFF#32) ||| at32 30 mode.toNat ||| at32 27 ce.toNat
          u.chs[n] = (if sets.getLsbD 0 ∧ m.getLsbD n.val ∧ t.distOn (distOf n) then
            { t.chs[n] with ecc := { t.chs[n].ecc with remapCfg := new } } else t.chs[n])))

/-- TSV_REPAIR_STATUS reports a channel of a District that is ON, and RETRAIN makes a retrain due and waits for its hold
(R349, R56). -/
def Sys2Proof.Part.ChannelCommands : Prop :=
  ∀ (s t : State) (c : CmdCtx) (n : Fin 64),
    (Taken s c 0x0A01 t →
      (t.distOn (distOf n) = false → exec (.tsvRepairStatus c (BitVec.ofNat 8 n.val)) s = .next (t.reply c .domainDown 0)) ∧
      (t.distOn (distOf n) = true → exec (.tsvRepairStatus c (BitVec.ofNat 8 n.val)) s = .next (t.reply c .ok
        (at64 0 ((t.chs[n]).sparesFree 0 160) ||| at64 8 ((t.chs[n]).sparesFree 160 2) ||| at64 10 ((t.chs[n]).sparesFree 162 2) |||
          at64 12 t.chs[n].tsv.erasedCount ||| at64 18 (t.chs[n]).tsvState ||| at64 20 (b2n t.chs[n].tsv.clkSpare) |||
          at64 21 (countIf t.chs[n].tsv.spares (fun kv => kv.2.used && !kv.2.inService)) |||
          at64 29 (countIf t.chs[n].tsv.spares (fun kv => kv.2.used && kv.2.inService)))))) ∧
    (Taken s c 0x0A04 t → ∀ kind : BitVec 8,
      (1 < kind.toNat → exec (.retrain c (BitVec.ofNat 8 n.val) kind) s = .next (t.reply c .badParam 0)) ∧
      (kind.toNat ≤ 1 →
        (t.chs[n].tsv.offline = true → exec (.retrain c (BitVec.ofNat 8 n.val) kind) s = .next (t.reply c .notPermitted 0)) ∧
        (t.chs[n].tsv.offline = false →
          (t.distOn (distOf n) = false → exec (.retrain c (BitVec.ofNat 8 n.val) kind) s = .next (t.reply c .domainDown 0)) ∧
          (t.distOn (distOf n) = true → ∃ u : State, exec (.retrain c (BitVec.ofNat 8 n.val) kind) s =
              .next { u with cmd := { u.cmd with waits := u.cmd.waits ++ [{ ctx := c, kind := .retrain n false }] } } ∧
            u = t.modTsv n (fun x => { x with retrainDue := some (if kind = 1 ∨ x.retrainDue = some .full then .full else .incremental) })))))

/-- SCRUB_CONFIG, REMAP_MODE_SET, TSV_REPAIR_STATUS and RETRAIN act on the channels they name. -/
def Obligations.ChannelCommandsAct : Prop :=
  Part.ScrubAndRemapSettings ∧ Part.ChannelCommands

/-- FUSE_PROGRAM_WORD blows nothing where R417 refuses it, programs the word to VALUE or, in regions 4 and 5, to VALUE ORed
with what it held, and notes the outcome in PROG_LAST (R416, R417). -/
def Sys2Proof.Part.FuseWordIsProgrammed : Prop :=
  ∀ (s t : State) (c : CmdCtx) (w : BitVec 16) (v : W32) (att : List (W32 × W32)), Taken s c 0x0701 t →
    let secret := regionOf w.toNat = 4 ∨ regionOf w.toNat = 5
    let refused := fun (st : CmdStatus) => exec (.fuseProgramWord c w v att) s = .next ((t.noteProg w.toNat st none).reply c st 0)
    (2047 < w.toNat → refused .badParam) ∧
    (w.toNat ≤ 2047 → (t.baseDieHot = true → refused .busy) ∧
      (t.baseDieHot = false → (regionOf w.toNat = 7 → refused .notPermitted) ∧
        (regionOf w.toNat ≠ 7 → ((w.toNat = 863 ∨ t.regionLocked (regionOf w.toNat) = true ∧ w.toNat ≠ 832) → refused .locked) ∧
          (w.toNat ≠ 863 → (t.regionLocked (regionOf w.toNat) = false ∨ w.toNat = 832) →
            (¬secret → t.shadowWord w.toNat &&& ~~~v ≠ 0 → refused .badParam) ∧
            ((secret ∨ t.shadowWord w.toNat &&& ~~~v = 0) → w.toNat ≠ 832 →
              let target := if secret then t.shadowWord w.toNat ||| v else v
              let p := t.progWord w.toNat target att
              (p.2.ok = true → ∃ r : W64, exec (.fuseProgramWord c w v att) s = .next ((p.1.noteProg w.toNat .ok (some p.2)).reply c .ok r) ∧
                p.1 = { t with fuse := p.1.fuse } ∧ p.1.fuseWord w.toNat = target ∧ p.1.fuseMarginal w.toNat = false ∧
                (∀ x, x ≠ w.toNat → p.1.fuseWord x = t.fuseWord x)) ∧
              (p.2.ok = false → exec (.fuseProgramWord c w v att) s =
                .next (((p.1.noteProg w.toNat .fuseVerifyFail (some p.2)).fuseLog evFuseProgFail 0 w.toNat).reply c .fuseVerifyFail 0)))))))

/-- FUSE_LOCK_REGION blows both lock fuses of a region whose check word verifies, and only then (R421); FUSE_READ_SHADOW
reads a word, never of the secret regions (R427). -/
def Sys2Proof.Part.FuseLockAndRead : Prop :=
  ∀ (s t : State) (c : CmdCtx),
    (Taken s c 0x0702 t → ∀ (r : BitVec 8) (att : List (W32 × W32)), r.toNat < 7 → t.baseDieHot = false →
      (t.regionLocked r.toNat = true → exec (.fuseLockRegion c r att att) s = .next ((t.noteProg (960 + r.toNat) .ok none).reply c .ok
        (at64 0 (b2n (t.lockFuses r.toNat).1) ||| at64 1 (b2n (t.lockFuses r.toNat).2)))) ∧
      (t.regionLocked r.toNat = false →
        (t.lockCheckFails r.toNat = true →
          exec (.fuseLockRegion c r att att) s = .next ((t.noteProg (960 + r.toNat) .lockCheckFail none).reply c .lockCheckFail 0)) ∧
        (t.lockCheckFails r.toNat = false → t.fuse.sensed = true → ∃ u : State,
          exec (.fuseLockRegion c r [] []) s = .next (u.reply c .ok 3) ∧ u = { t with fuse := u.fuse } ∧
          (u.shadowWord (960 + r.toNat)).getLsbD 0 = true ∧ (u.shadowWord (960 + r.toNat)).getLsbD 16 = true ∧
          u.regionLocked r.toNat = true))) ∧
    (Taken s c 0x0703 t → ∀ w : BitVec 16,
      (2047 < w.toNat → exec (.fuseReadShadow c w) s = .next (t.reply c .badParam 0)) ∧
      (w.toNat ≤ 2047 → (regionOf w.toNat = 4 ∨ regionOf w.toNat = 5) → exec (.fuseReadShadow c w) s = .next (t.reply c .notPermitted 0)) ∧
      (w.toNat ≤ 2047 → regionOf w.toNat ≠ 4 → regionOf w.toNat ≠ 5 →
        (t.fuse.parityBad.contains w.toNat = true → exec (.fuseReadShadow c w) s = .next (t.reply c .internal 0)) ∧
        (t.fuse.parityBad.contains w.toNat = false → ∃ v : W64, exec (.fuseReadShadow c w) s = .next (t.reply c .ok v) ∧
          v.extractLsb' 0 32 = t.shadowWord w.toNat ∧ v.getLsbD 32 = t.fuseMarginal w.toNat)))

/-- Fuse words are programmed, locked and read as their rules say. -/
def Obligations.FusesAreProgrammedAndLocked : Prop :=
  Part.FuseWordIsProgrammed ∧ Part.FuseLockAndRead

/-- The Fabric commands that act on other nodes: only the master runs them, one at a time, and each begins its work and
waits for the answers of other nodes, or ends at once where there is nothing to wait for (R298, R302, R304, R306, R307). -/
def Sys2Proof.Part.FabricCommandsBegin : Prop :=
  ∀ (s t : State) (c : CmdCtx),
    (Taken s c 0x0601 t →
      (t.fabMaster = false → exec (.fabEnumerate c) s = .next (t.reply c .notPermitted 0)) ∧
      (t.fabMaster = true → t.fabBusy = true → exec (.fabEnumerate c) s = .next (t.reply c .busy 0)) ∧
      (t.fabMaster = true → t.fabBusy = false →
        (∀ e, t.startEnum.fab.enum = some e → exec (.fabEnumerate c) s = .next { t.startEnum with cmd := { t.startEnum.cmd with
          waits := t.startEnum.cmd.waits ++ [{ ctx := c, kind := .fabric 0x0601 0 }] } }) ∧
        (t.startEnum.fab.enum = none →
          exec (.fabEnumerate c) s = .next (t.startEnum.reply c .ok (BitVec.ofNat 64 t.startEnum.fab.nodes.length))))) ∧
    (Taken s c 0x0603 t → ∀ (node : BitVec 16) (act : BitVec 8),
      (4096 ≤ node.toNat ∨ node = 0 ∨ 2 < act.toNat → exec (.nodeDetach c node act) s = .next (t.reply c .badParam 0)) ∧
      (node.toNat < 4096 → node ≠ 0 → act.toNat ≤ 2 →
        (t.fabMaster = false → node.setWidth 12 ≠ t.fab.nodeId → exec (.nodeDetach c node act) s = .next (t.reply c .notPermitted 0)) ∧
        (node.setWidth 12 = t.fab.nodeId → t.fabBusy = false → t.fab.detaching = false →
          exec (.nodeDetach c node act) s = .next ((t.reply c .ok 0).beginDetach act.toNat)) ∧
        (t.fabMaster = true → t.fabBusy = false → node.setWidth 12 ≠ t.fab.nodeId →
          (t.fabNode (node.setWidth 12) = none → exec (.nodeDetach c node act) s = .next (t.reply c .pathDown 0)) ∧
          (∀ n u, t.fabNode (node.setWidth 12) = some n →
            t.mgmtSend .detach mtRemoteCmd (.node (node.setWidth 12)) 0 (packetSlots 0x0603 [(8, toBytes node 2), (10, [act])]) = (u, true) →
            exec (.nodeDetach c node act) s = .next { u with cmd := { u.cmd with
              waits := u.cmd.waits ++ [{ ctx := c, kind := .fabric 0x0603 (node.toNat % 4096) }] } })))) ∧
    (Taken s c 0x0605 t → t.fabMaster = true → t.fabBusy = false → ∀ (image : W64) (size : W32),
      1 ≤ size.toNat → size.toNat ≤ 4194304 → image.toNat % 64 = 0 → ∀ u st bs,
      t.readBytesNow (t.coreId c) image.toNat acCommand size.toNat = (u, st, bs) →
      (st ≠ .ok → exec (.fwPush c 0xFFF image size) s = .next (u.reply c (CmdStatus.ofCompletion st) 0)) ∧
      (st = .ok → ∀ v : State,
        (let others := (t.fab.nodes.filter (fun n => n.st = 0 && n.id != t.fab.nodeId)).map (fun n => n.id)
         v = State.pushGo { u with fab := { u.fab with push := some { image := image, size := size.toNat, named := false, waiting := others } } }) →
        (∀ p, v.fab.push = some p → exec (.fwPush c 0xFFF image size) s = .next { v with cmd := { v.cmd with
          waits := v.cmd.waits ++ [{ ctx := c, kind := .fabric 0x0605 0xFFF }] } }) ∧
        (v.fab.push = none → ∃ r, exec (.fwPush c 0xFFF image size) s = .next (v.reply c .ok r)))) ∧
    (Taken s c 0x0605 t → ∀ (node : BitVec 16) (image : W64) (size : W32),
      4096 ≤ node.toNat ∨ size = 0 ∨ 4194304 < size.toNat ∨ image.toNat % 64 ≠ 0 →
      exec (.fwPush c node image size) s = .next (t.reply c .badParam 0)) ∧
    (Taken s c 0x0606 t → t.fabMaster = true → t.fabBusy = false → ∃ u : State,
      u.fab.prev = t.fab.cur ∧ u.fab.gen = t.fab.gen + 1 ∧ u.fab.cur.isSome = true ∧ u.fab.kg = (t.fab.gen + 1).getLsbD 0 ∧ u.fab.nonce = 0 ∧
      (∀ q, u.sealGo.fab.sealing = some q → exec (.fabSealInit c) s = .next { u.sealGo with cmd := { u.sealGo.cmd with
        waits := u.sealGo.cmd.waits ++ [{ ctx := c, kind := .fabric 0x0606 0 }] } }) ∧
      (u.sealGo.fab.sealing = none → exec (.fabSealInit c) s = .next (u.sealGo.reply c .ok (at64 16 (b2n u.sealGo.fab.kg)))))

/-- ROUTE_SET on the node itself writes its entries in ascending index order once every entry has been read and checked;
TIME_SYNC sets the master's time and period (R292, R306, R307). -/
def Sys2Proof.Part.RouteSetAndTimeSync : Prop :=
  ∀ (s t : State) (c : CmdCtx),
    (Taken s c 0x0602 t → t.fabBusy = false → ∀ (first count : BitVec 16) (src : W64) u st ls,
      first.toNat < 4096 → 1 ≤ count.toNat → first.toNat + count.toNat ≤ 4096 → src.toNat % 64 = 0 →
      t.readLinesNow (t.coreId c) src.toNat acCommand ((count.toNat + 7) / 8) = (u, st, ls) → u.fab = t.fab → u.cmd.waits = t.cmd.waits →
      let es := lineEntries ls count.toNat
      (st = .ok → (∃ e ∈ es, badEntry e = true) →
        exec (.routeSet c (t.fab.nodeId.setWidth 16) first count src) s = .next (u.reply c .badParam 0)) ∧
      (st = .ok → (∀ e ∈ es, badEntry e = false) →
        exec (.routeSet c (t.fab.nodeId.setWidth 16) first count src) s =
          .next ((es.zipIdx.foldl (fun (s : State) x => s.setRoute (first.toNat + x.2) x.1) u).reply c .ok (BitVec.ofNat 64 count.toNat))) ∧
      (st ≠ .ok → exec (.routeSet c (t.fab.nodeId.setWidth 16) first count src) s = .next (u.reply c (CmdStatus.ofCompletion st) 0))) ∧
    (Taken s c 0x0602 t → ∀ (node first count : BitVec 16) (src : W64),
      4096 ≤ node.toNat ∨ count = 0 ∨ 4096 < first.toNat + count.toNat ∨ src.toNat % 64 ≠ 0 →
      exec (.routeSet c node first count src) s = .next (t.reply c .badParam 0)) ∧
    (∀ (u : State) (d x : Nat) (e : W64), smWf u.fab.route = true →
      smGetD (u.setRoute d e).fab.route x 0 = (if x = d then e else smGetD u.fab.route x 0)) ∧
    (Taken s c 0x0604 t → ∀ (flags : BitVec 8) (period : BitVec 16) (time : W64),
      (1 < flags.toNat ∨ period ≠ 0 ∧ (period.toNat < 100 ∨ 10000 < period.toNat) →
        exec (.timeSync c flags period time) s = .next (t.reply c .badParam 0)) ∧
      (flags.toNat ≤ 1 → period = 0 ∨ 100 ≤ period.toNat ∧ period.toNat ≤ 10000 →
        (t.fabMaster = false → exec (.timeSync c flags period time) s = .next (t.reply c .notPermitted 0)) ∧
        (t.fabMaster = true → t.fabBusy = false → exec (.timeSync c flags period time) s =
          let now := if flags = 1 then time else t.fab.time
          .next (({ t with fab := { t.fab with time := now, period := if period = 0 then t.fab.period else period } }).reply c .ok now))))

/-- SEGMENT_SET writes its entry with a rising LOCAL_BASE, ISET_SET writes a set, each to the cache and to the command area; both check every entry first and complete
once no host request that used an old value is in progress (R322-R324). -/
def Sys2Proof.Part.SegmentCommandsWrite : Prop :=
  ∀ (s t : State) (c : CmdCtx),
    (Taken s c 0x0607 t → ∀ (first count : BitVec 16) (entry step : W64),
      ((count = 0 ∨ 4096 < count.toNat ∨ 65536 < first.toNat + count.toNat ∨ step.toNat % 17179869184 ≠ 0) →
        exec (.segmentSet c first count entry step) s = .next (t.reply c .badParam 0)) ∧
      (1 ≤ count.toNat → count.toNat ≤ 4096 → first.toNat + count.toNat ≤ 65536 → step.toNat % 17179869184 = 0 →
        ((∃ i, i < count.toNat ∧ segEntryOk entry (segBase entry + i * step.toNat) = false) →
          exec (.segmentSet c first count entry step) s = .next (t.reply c .badParam 0)) ∧
        ((∀ i, i < count.toNat → segEntryOk entry (segBase entry + i * step.toNat) = true) → smWf t.cmd.segs = true → ∃ u : State,
          u = { t with cmd := { t.cmd with segs := u.cmd.segs } } ∧
          (∀ i, i < count.toNat → smGetD u.cmd.segs (first.toNat + i) 0 = segWithBase entry (segBase entry + i * step.toNat)) ∧
          (∀ g, g < first.toNat ∨ first.toNat + count.toNat ≤ g → smGetD u.cmd.segs g 0 = smGetD t.cmd.segs g 0) ∧
          let olds := t.segLookups (fun g _ => decide (first.toNat ≤ g) && decide (g < first.toNat + count.toNat))
          let v := u.copyOut (8 * first.toNat)
            ((List.range count.toNat).flatMap (fun i => toBytes (segWithBase entry (segBase entry + i * step.toNat)) 8))
          (olds = [] → exec (.segmentSet c first count entry step) s = .next (v.reply c .ok 0)) ∧
          (olds ≠ [] → exec (.segmentSet c first count entry step) s = .next { v with cmd := { v.cmd with
            nextPolicy := v.cmd.nextPolicy + 1, waits := v.cmd.waits ++ [{ ctx := c, kind := .segments v.cmd.nextPolicy olds 0 }] } })))) ∧
    (Taken s c 0x0608 t → ∀ (set : BitVec 16) (m : BitVec 256),
      (4096 ≤ set.toNat ∨ (∃ i, i < 16 ∧ fieldN m (16 * i + 12) 4 ≠ 0) → exec (.isetSet c set m) s = .next (t.reply c .badParam 0)) ∧
      (set.toNat < 4096 → (∀ i, i < 16 → fieldN m (16 * i + 12) 4 = 0) → smWf t.cmd.isets = true → ∃ u : State,
        u = { t with cmd := { t.cmd with isets := u.cmd.isets } } ∧
        (∀ g, smGetD u.cmd.isets g 0 = if g = set.toNat then m else smGetD t.cmd.isets g 0) ∧
        let olds := t.segLookups (fun _ e => segIl e && (segNode e).toNat == set.toNat)
        let v := u.copyOut (0x80000 + 32 * set.toNat) (toBytes m 32)
        (olds = [] → exec (.isetSet c set m) s = .next (v.reply c .ok 0)) ∧
        (olds ≠ [] → exec (.isetSet c set m) s = .next { v with cmd := { v.cmd with
          nextPolicy := v.cmd.nextPolicy + 1, waits := v.cmd.waits ++ [{ ctx := c, kind := .segments v.cmd.nextPolicy olds 0 }] } })))

/-- Fabric commands begin their work on the master, write routes and set time; segment commands check, write and wait. -/
def Obligations.FabricAndSegmentCommandsAct : Prop :=
  Part.FabricCommandsBegin ∧ Part.RouteSetAndTimeSync ∧ Part.SegmentCommandsWrite

/-- An engine runs one job at a time: it starts its oldest dispatched job, whose tiles are the pages of the source range in its own
channel, in ascending order; a PROBE with a Bloom filter loads the filter before its first tile, or ends with a REMOTE fault (R156, R182). -/
def Obligations.EnginesStartJobs : Prop :=
  (∀ (s : State) (e : Fin 64), (s.engs.eng[e]).run.isSome = true → exec (.engineJobStart e) s = .next s) ∧
  (∀ (s : State) (e : Fin 64) (id : Nat) (rest : List Nat) (j : Job), (s.engs.eng[e]).run = none → (s.engs.eng[e]).pending = id :: rest →
    s.dieUp = true → (s.engs.eng[e]).fn.st = .on ∨ (s.engs.eng[e]).fn.st = .stopping → s.jobOf id = some j →
    ∃ pages : List Nat,
      exec (.engineJobStart e) s = .next (s.modEng e (fun x => { x with pending := rest, run := some { job := id, tiles := pages } })) ∧
      (dOp j.desc = opGather → pages = []) ∧
      (dOp j.desc ≠ opGather → pages.Pairwise (· < ·) ∧ ∀ p, p ∈ pages ↔
        dSrcPage j.desc ≤ p ∧ p < dSrcPage j.desc + dSrcCount j.desc ∧ (decodePage s.glb.variant s.glb.mapOrder p).1 = e)) ∧
  (∀ (s : State) (e : Fin 64) (r : EngRun) (j : Job), s.running e = some (r, j) → s.dieUp = true →
    dOp j.desc = opProbe → dKind j.desc = 0 → r.filter = none → r.stopped = false →
    ∀ u o, s.engLines e j (dTable j.desc) ((2 ^ dLog2 j.desc + 511) / 512) = (u, o) →
      (o = none → exec (.bloomFilterLoad e) s = .next u) ∧
      (∀ ls, o = some (.ok, ls) → exec (.bloomFilterLoad e) s = .next (u.modRun e (fun r => { r with filter := some ls }))) ∧
      (∀ st ls, o = some (st, ls) → st ≠ .ok → exec (.bloomFilterLoad e) s = .next
        (((u.engFault e j { page := 0, reason := 4, status := st }).engStop e j).modRun e (fun r => { r with tiles := [] }))))

/-- An engine looks up the page entry of its next tile once and holds it, and asks for the header row; a tile for which TILE_FORMAT is
armed fails with FORMAT and reads nothing; with PREFETCH_EN the next tile is opened while one is evaluated. No source read is issued
while ENG_RATE bars it, nor a tile of a page that a command is changing opened (R158, R171, R172, R189, R458). -/
def Sys2Proof.Part.TilesAreOpened : Prop :=
  (∀ (s u : State) (e : Fin 64) (r0 r : EngRun) (j : Job) (page : Nat) (rest : List Nat), s.running e = some (r0, j) →
    u = s.collect e j → (u.engs.eng[e]).run = some r → u.dieUp = true → dOp j.desc = opScan ∨ dOp j.desc = opAgg ∨ dOp j.desc = opProbe →
    r.stopped = false → u.jobStop j.id = false → (dOp j.desc = opProbe → dKind j.desc = 0 → r.filter.isSome = true) → r.tiles = page :: rest →
    (u.rateOpen e = false ∨ u.changing page = true → exec (.tileStart e) s = .next u) ∧
    (u.rateOpen e = true → u.changing page = false → ∀ w n,
      ((u.modRun e (fun r => { r with tiles := rest })).walkAhead e rest).openTile e j page = (w, n) →
      (r.tile = none → exec (.tileStart e) s = .next (w.modRun e (fun r => { r with tile := some n }))) ∧
      (∀ t, r.tile = some t → t.arrived = true → t.fail = none →
        (bit (u.engs.eng[e].cfg) 23 = false ∨ r.next.isSome = true ∨ u.holdRoom e = 0 → exec (.tileStart e) s = .next u) ∧
        (bit (u.engs.eng[e].cfg) 23 = true → r.next = none → u.holdRoom e ≠ 0 →
          exec (.tileStart e) s = .next (w.modRun e (fun r => { r with next := some n })))))) ∧
  (∀ (s : State) (e : Fin 64) (j : Job) (page : Nat),
    let v := s.modEng e (fun x => { x with nextTag := x.nextTag + 1 })
    let tag := (s.engs.eng[e]).nextTag
    ((s.engs.eng[e]).injFormat = true → s.openTile e j page = (v.modEng e (fun x => { x with injFormat := false }),
      { page := page, entry := s.pageEntry page, tag := tag, fail := some { page := page, reason := 2, status := .ok } })) ∧
    ((s.engs.eng[e]).injFormat = false → s.openTile e j page =
      (v.srcRead e j page { tile := tag, row := 0, line := none, entry := s.pageEntry page },
       { page := page, entry := s.pageEntry page, tag := tag, asked := [0] }))) ∧
  (∀ (s : State) (p : Sys2Proof.Path) (m : MasterId) (e : Fin 64), Writable s p m (offChs e 0x1024) →
    exec (.tileFormatInject p m e) s = .next (s.modEng e (fun x => { x with injFormat := true })))

/-- A tile takes its answers: a row that is refused or holds a line that failed its checks fails the tile with DATA, named by status and
line; a header that breaks R163 fails it with FORMAT; otherwise every row that the tile needs is asked for, and it has arrived once
nothing is outstanding. A tile that fails gives way to the tile read ahead (R158, R163, R171, R172, R181, R187). -/
def Sys2Proof.Part.TilesAreReadAndChecked : Prop :=
  (∀ (s : State) (e : Fin 64) (r : EngRun) (j : Job) (t : Tile), s.running e = some (r, j) → r.tile = some t → s.dieUp = true →
    (t.arrived = false →
      (∀ f, t.fail = some f → exec (.tileRowsArrive e) s = .next (s.tileFails e j f)) ∧
      (t.fail = none → ∀ w t', s.readOn e j t 128 = (w, t') →
        (∀ f, t'.fail = some f → exec (.tileRowsArrive e) s = .next (w.tileFails e j f)) ∧
        (t'.fail = none → exec (.tileRowsArrive e) s = .next (w.modRun e (fun r => { r with tile := some t' }))))) ∧
    (t.arrived = true →
      (r.next = none → exec (.tileRowsArrive e) s = .next s) ∧
      (∀ n, r.next = some n → n.arrived = false → n.fail = none → ∀ w n', s.readOn e j n (s.holdRoom e) = (w, n') →
        exec (.tileRowsArrive e) s = .next (w.modRun e (fun r => { r with next := some n' }))))) ∧
  (∀ (s v : State) (e : Fin 64) (j : Job) (t t1 : Tile) (n : Nat), s.feed e t = (v, t1) →
    (t1.fail.isSome = true → s.readOn e j t n = (v, t1)) ∧
    (t1.fail = none → t1.parsed = false →
      (smGet? t1.lines 0 = none → s.readOn e j t n = (v, t1)) ∧
      (∀ l, smGet? t1.lines 0 = some l →
        (parseHeader (t1.row 0) (dNeed j.desc) = none →
          s.readOn e j t n = (v, { t1 with fail := some { page := t1.page, reason := 2, status := .ok } })) ∧
        (∀ vals nrow cs, parseHeader (t1.row 0) (dNeed j.desc) = some (vals, nrow, cs) →
          (needRows { t1 with parsed := true, values := vals, nullRow := nrow, cols := cs } (dNeed j.desc)).all (fun x => t1.asked.contains x) = true →
          s.readOn e j t n = (v, { t1 with
            parsed := true, values := vals, nullRow := nrow, cols := cs, arrived := !v.srcWait e t1.tag })))) ∧
    (t1.fail = none → t1.parsed = true →
      let todo := (needRows t1 (dNeed j.desc)).filter (fun row => !t1.asked.contains row)
      (∀ w, v.srcReads e j t1.page (todo.map (fun row => { tile := t1.tag, row := row, line := none, entry := t1.entry })) = (w, []) →
        todo.length ≤ n → s.readOn e j t n = (w, { t1 with asked := t1.asked ++ todo, arrived := !w.srcWait e t1.tag })))) ∧
  (∀ (t : Tile) (x : SrcRead) (g : IoGot), x.line = none → t.fail = none →
    (g.lines = [] → (t.take x g).fail = some { page := t.page, reason := 1, status := g.status, loc := 0 }) ∧
    (∀ i st b, i < g.lines.length → g.lines[i]? = some (st, b) → st ≠ .ok → (∀ k, k < i → ∃ b, g.lines[k]? = some (.ok, b)) →
      (t.take x g).fail = some { page := t.page, reason := 1, status := st, loc := 16 * x.row + i }) ∧
    (g.lines ≠ [] → (∀ l ∈ g.lines, l.1 = .ok) → (t.take x g).fail = none)) ∧
  (∀ (s : State) (e : Fin 64) (r : EngRun) (j : Job) (f : EngFault), (s.engs.eng[e]).run = some r → dFaultEn j.desc = false →
    dStop j.desc = false → ∃ x : Engine,
      ((s.tileFails e j f).engs.eng[e]) = x ∧ x.tileFaults = satAdd (s.engs.eng[e]).tileFaults 1 ∧
      x.lastFault = at32 28 f.reason ||| at32 24 f.status.code ||| at32 0 (f.page % 2097152) ∧
      x.run = some { r with
        tile := if r.stopped || s.jobStop j.id then none else r.next, cur := r.page, failed := true,
        next := none, probe := none, tilesFailed := r.tilesFailed + 1, first := some (r.first.getD f), recorded := r.recorded + 1 })

/-- A tile whose rows have arrived is evaluated lane by lane and contributes wholly: a SCAN counts and enters its qualifying values,
an AGG adds them to its groups or fails with GROUP_OVERFLOW, a PROBE tests its filter or follows bucket chains of at most 16 buckets,
up to 64 reads at once; a tile with no value contributes nothing (R159, R163, R172, R178, R180, R182, R183). -/
def Sys2Proof.Part.TilesAreEvaluated : Prop :=
  (∀ (s : State) (e : Fin 64) (r : EngRun) (j : Job) (t : Tile), s.running e = some (r, j) → r.tile = some t → t.arrived = true →
    r.probe = none → s.dieUp = true → t.values = 0 → exec (.tileEvaluate e) s = .next (s.nextTile e j)) ∧
  (∀ (s : State) (e : Fin 64) (r : EngRun) (j : Job) (t : Tile), s.running e = some (r, j) → r.tile = some t → t.arrived = true →
    r.probe = none → s.dieUp = true → t.values ≠ 0 →
    ∀ lanes : List (Nat × PLane), lanes = (List.range t.values).filterMap (fun i =>
      if (evalLane j.desc j.prog t t.row i).2 then some (i, (evalLane j.desc j.prog t t.row i).1) else none) →
    let keyed := lanes.filter (fun l => !(l.2.reg (dSrc j.desc)).null)
    (dOp j.desc = opScan → dForm j.desc ≠ 4 → exec (.tileEvaluate e) s =
      .next (s.tileDone e j t lanes.length t.values (hitEntries j.desc t (lanes.map (fun l => (l.1, [])))))) ∧
    (dOp j.desc = opScan → dForm j.desc = 4 → exec (.tileEvaluate e) s =
      .next (s.tileDone e j t lanes.length t.values (fun r' => { r' with
        groups := [lanes.foldl (fun g l => g.add j.desc l.2) (r.groups.headD (Group.new 0 false))] }))) ∧
    (dOp j.desc = opAgg → ∀ o, o = lanes.foldl (fun (gs : Option (List Group)) l =>
        gs.bind (fun gs => groupAdd j.desc gs (l.2.reg (dSrc j.desc)).val (l.2.reg (dSrc j.desc)).null l.2)) (some r.groups) →
      (o = none → exec (.tileEvaluate e) s = .next (s.tileFails e j { page := t.page, reason := 3, status := .ok })) ∧
      (∀ gs, o = some gs → exec (.tileEvaluate e) s =
        .next (s.tileDone e j t (gs.length - r.groups.length) t.values (fun r => { r with groups := gs })))) ∧
    (dOp j.desc = opProbe → dKind j.desc = 0 → exec (.tileEvaluate e) s =
      .next (s.probeDone e j t { lanes := [], probed := lanes.length, done := (keyed.filter (fun l =>
        bloomHit (r.filter.getD []) (dLog2 j.desc) (dK j.desc) (l.2.reg (dSrc j.desc)).val)).map (fun l => (l.1, [])) })) ∧
    (dOp j.desc = opProbe → dKind j.desc ≠ 0 → keyed ≠ [] → ∃ p : ProbeSt,
      exec (.tileEvaluate e) s = .next ((s.modRun e (fun r => { r with probe := some p })).askBuckets e j) ∧
      p.probed = lanes.length ∧ p.done = [] ∧
      p.cut = 0 ∧ p.lanes.map (fun l => (l.index, l.key, l.next)) = keyed.map (fun l => (l.1, (l.2.reg (dSrc j.desc)).val,
        dTable j.desc + 64 * hashBucket (dLog2 j.desc) (l.2.reg (dSrc j.desc)).val)))) ∧
  (∀ (s : State) (e : Fin 64) (r : EngRun) (j : Job) (t : Tile) (p : ProbeSt),
    s.running e = some (r, j) → r.tile = some t → r.probe = some p → s.dieUp = true →
    (s.bucketBack e t.tag = none → exec (.bucketReadReturn e) s = .next (s.askBuckets e j)) ∧
    (∀ i ix g, s.bucketBack e t.tag = some (i, ix, g) →
      let u := s.modEng e (fun x => { x with io := x.io.erase i })
      (g.status ≠ .ok → exec (.bucketReadReturn e) s = .next (u.tileFails e j { page := t.page, reason := 4, status := g.status })) ∧
      (∀ l, g.status = .ok → p.lanes.find? (fun l => l.index == ix) = some l →
        let p' := p.step l (nth g.data 0 0)
        (p'.lanes = [] → exec (.bucketReadReturn e) s = .next (u.probeDone e j t p')) ∧
        (p'.lanes ≠ [] → exec (.bucketReadReturn e) s =
          .next ((u.modRun e (fun r => { r with probe := some p' })).askBuckets e j))))) ∧
  (∀ (p : ProbeSt) (l : ProbeLane) (b : BitVec 512),
    let x := bucketOf b l.key
    let others := p.lanes.filter (fun y => y.index != l.index)
    (x.2 ≠ 0 → l.depth < 15 → p.step l b = { p with lanes := p.lanes.map (fun y =>
      if y.index = l.index then { l with next := x.2, depth := l.depth + 1, found := l.found ++ x.1 } else y) }) ∧
    (x.2 ≠ 0 → 15 ≤ l.depth → p.step l b = { p with lanes := others, cut := p.cut + 1 }) ∧
    (x.2 = 0 → l.found ++ x.1 = [] → p.step l b = { p with lanes := others }) ∧
    (x.2 = 0 → l.found ++ x.1 ≠ [] → p.step l b = { p with lanes := others, done := smPut p.done l.index (l.found ++ x.1) }))

/-- GATHER reads the count of its list and then one position at a time: a position outside the source range or in another channel is
skipped; of any other the header is read first, then the lines of its values, and its entry joins the body (R184, R187). -/
def Sys2Proof.Part.PositionsAreGathered : Prop :=
  (∀ (s u : State) (e : Fin 64) (r r' : EngRun) (j : Job), s.running e = some (r', j) → u = s.collect e j → (u.engs.eng[e]).run = some r →
    dOp j.desc = opGather → u.dieUp = true →
    (∀ t idx pos, r.gather = some (t, idx, pos) → exec (.gatherListRead e) s = .next (u.gatherOn e j t idx pos)) ∧
    (r.gather = none → r.stopped = false → u.jobStop j.id = false →
      (r.gcount = none → ∀ v o, u.listWord e j 0 = (v, o) →
        (o = none → exec (.gatherListRead e) s = .next v) ∧
        (∀ n, o = some (.ok, n) → exec (.gatherListRead e) s = .next (v.modRun e (fun r => { r with gcount := some n.toNat }))) ∧
        (∀ st n, o = some (st, n) → st ≠ .ok → exec (.gatherListRead e) s = .next (v.listFails e j st 0))) ∧
      (∀ n, r.gcount = some n → n ≤ r.gnext → exec (.gatherListRead e) s = .next u) ∧
      (∀ n, r.gcount = some n → r.gnext < n → ∀ v o, u.listWord e j (8 + 8 * r.gnext) = (v, o) →
        (o = none → exec (.gatherListRead e) s = .next v) ∧
        (∀ w, o = some (.ok, w) → v.changing (fieldN w 17 21) = false → exec (.gatherListRead e) s = .next
          ((v.modRun e (fun r => { r with gnext := r.gnext + 1, values := r.values + 1 })).gatherBegin e j w r.gnext)) ∧
        (∀ st n, o = some (st, n) → st ≠ .ok → exec (.gatherListRead e) s = .next (v.listFails e j st r.gnext))))) ∧
  (∀ (s : State) (e : Fin 64) (j : Job) (w : W64) (pos : Nat),
    (fieldN w 17 21 < dSrcPage j.desc ∨ dSrcPage j.desc + dSrcCount j.desc ≤ fieldN w 17 21 ∨
      (decodePage s.glb.variant s.glb.mapOrder (fieldN w 17 21)).1 ≠ e) →
    s.gatherBegin e j w pos = (((s.modRun e (fun r => { r with skipped := r.skipped + 1, result1 := r.result1 + 1 })).modRun e
      (fun r => { r with gather := none, cur := fieldN w 17 21 })).releaseBut e (some (fieldN w 17 21)))) ∧
  (∀ (s v : State) (e : Fin 64) (j : Job) (t t1 : Tile) (idx pos : Nat), s.feed e t = (v, t1) →
    (∀ f, t1.fail = some f → s.gatherOn e j t idx pos = v.gatherBad e j idx pos f) ∧
    (t1.fail = none → t1.parsed = true → v.srcWait e t1.tag = false → (∀ k ∈ t1.asked, (smGet? t1.lines k).isSome = true) →
      (∀ x ∈ gatherLines t1 j.desc idx, 16 * x.1 + x.2 ∈ t1.asked) →
      s.gatherOn e j t idx pos = v.gatherEntry e j t1.page (projectEntry t1.page idx ((dProjs j.desc).map (fun c => tileValue t1 t1.row c idx)))))

/-- Tiles are opened, read and checked row by row, evaluated lane by lane and contribute wholly; GATHER takes one position at a time. -/
def Obligations.TilesAreReadAndEvaluated : Prop :=
  Part.TilesAreOpened ∧ Part.TilesAreReadAndChecked ∧ Part.TilesAreEvaluated ∧ Part.PositionsAreGathered

/-- COPY_PAGE: an engine copies its pages one after the other, each row by row: it asks for the source row under the page's held entry,
writes it to the destination, and goes on once every write of it has completed; a refused source row or destination write fails the page
(R171, R185, R186, R187). -/
def Sys2Proof.Part.PagesAreCopied : Prop :=
  (∀ (s u : State) (e : Fin 64) (r0 r : EngRun) (j : Job), s.running e = some (r0, j) → u = s.collect e j → (u.engs.eng[e]).run = some r →
    dOp j.desc = opCopy → u.dieUp = true →
    (∀ c, r.copy = some c → exec (.copyPage e) s = .next (u.copyOn e j c)) ∧
    (r.copy = none → (r.stopped = true ∨ u.jobStop j.id = true ∨ r.tiles = []) → exec (.copyPage e) s = .next u) ∧
    (r.copy = none → r.stopped = false → u.jobStop j.id = false → ∀ page rest, r.tiles = page :: rest → u.changing page = false →
      let c : CopySt := { page := page, entry := u.pageEntry page, tag := (u.engs.eng[e]).nextTag }
      exec (.copyPage e) s = .next ((((u.modRun e (fun r => { r with tiles := rest, copy := some c })).walkAhead e rest).modEng e
        (fun x => { x with nextTag := x.nextTag + 1 })).copyOn e j c))) ∧
  (∀ (s : State) (e : Fin 64) (j : Job) (c : CopySt), (s.engs.eng[e].io).find? (fun i => i.write && i.record.isNone) = none →
    (c.asked = false → s.rateOpen e = true → s.copyOn e j c =
      (s.srcRead e j c.page { tile := c.tag, row := c.row, line := none, entry := c.entry }).modRun e
        (fun r => { r with copy := some { c with asked := true } })) ∧
    (c.asked = false → s.rateOpen e = false → s.copyOn e j c = s) ∧
    (c.asked = true → ∀ v gs, s.srcTake e c.tag = (v, gs) →
      (gs = [] → s.copyOn e j c = v) ∧
      (∀ x g rest, gs = (x, g) :: rest → g.lines = [] → s.copyOn e j c = v.copyFails e j c.page 1 g.status) ∧
      (∀ x g rest, gs = (x, g) :: rest → g.lines ≠ [] → ∀ w ls, v.copyLines e j c.page c.row g = (w, ls) →
        let c' : CopySt := { c with data := ls }
        s.copyOn e j c = ((w.modRun e (fun r => { r with copy := some c' })).releaseRows e).copySend e j c'))) ∧
  (∀ (s : State) (e : Fin 64) (j : Job) (c : CopySt) (i : EngIo),
    (s.engs.eng[e].io).find? (fun i => i.write && i.record.isNone) = some i →
    (i.got = none → s.copyOn e j c = s) ∧
    (∀ g, i.got = some g →
      let u := s.modEng e (fun x => { x with io := x.io.erase i })
      (g.status ≠ .ok → s.copyOn e j c = u.copyFails e j c.page 4 g.status) ∧
      (g.status = .ok →
        let n := if s.isLocal (copyDst j.desc c.page) then 1 else 16
        let v := u.modRun e (fun r => { r with result1 := r.result1 + countIf (c.data.take n) (fun l => l.2) })
        (c.data.drop n = [] → c.row = 127 → s.copyOn e j c = (v.modRun e (fun r => { r with
          copy := none, tilesDone := r.tilesDone + 1, result0 := r.result0 + 1, cur := c.page })).releaseRows e) ∧
        (c.data.drop n = [] → c.row ≠ 127 → s.copyOn e j c = v.modRun e (fun r => { r with
          copy := some { c with data := [], row := c.row + 1, asked := false } })) ∧
        (c.data.drop n ≠ [] → s.copyOn e j c = (v.modRun e (fun r => { r with copy := some { c with data := c.data.drop n } })).copySend e j
          { c with data := c.data.drop n }))))

/-- COPY_PAGE completes: an engine with no request outstanding whose next page no command is changing takes that page and asks for
its first row, where ENG_RATE lets it (R185, R458). -/
def Sys2Proof.Part.CopyPageCompletes : Prop :=
  ∀ (s : State) (e : Fin 64) (r : EngRun) (j : Job) (page : Nat) (rest : List Nat), s.running e = some (r, j) → (s.engs.eng[e]).io = [] →
    s.dieUp = true → dOp j.desc = opCopy → r.copy = none → r.stopped = false → s.jobStop j.id = false → r.tiles = page :: rest →
    s.changing page = false → s.rateOpen e = true → ∃ t : State, exec (.copyPage e) s = .next t ∧
      (t.engs.eng[e]).run = some { r with
        tiles := rest, copy := some { page := page, entry := s.pageEntry page, tag := (s.engs.eng[e]).nextTag, asked := true } } ∧
      ((t.engs.eng[e]).io.map (fun i => (i.gaddr, i.write, i.src.isSome))) =
        [(s.fab.nodeId.toNat * 1099511627776 + page * 131072, false, true)]

/-- An engine ends its part by its body, then its header once every write is answered, and then hands its results to the job; a part with
no output segment and nothing outstanding ends at once (R176, R177, R187, R188). -/
def Sys2Proof.Part.PartsEnd : Prop :=
  (∀ (s : State) (e : Fin 64) (r0 r : EngRun) (j : Job), s.running e = some (r0, j) → ((s.collect e j).engs.eng[e]).run = some r →
    (s.collect e j).dieUp = true → r.finished j = true →
    ∀ u v : State, u = (if r.ending = 0 then (s.collect e j).endBody e j else s.collect e j) →
      (u.engQuiet e = false → exec (.enginePartEnd e) s = .next u) ∧
      (u.engQuiet e = true → v = (if r.ending ≤ 1 then u.endHeader e j else u) →
        (v.engQuiet e = false → exec (.enginePartEnd e) s = .next v) ∧
        (v.engQuiet e = true → exec (.enginePartEnd e) s = .next (v.partDone e j)))) ∧
  (∀ (s : State) (e : Fin 64) (j : Job) (r : EngRun), (s.engs.eng[e]).run = some r → ∃ p : Part,
    p.engine = e.val ∧ p.result0 = r.result0 ∧ p.result1 = r.result1 ∧ p.first = r.first ∧ p.truncated = r.truncated ∧
    p.stopped = r.stopped ∧ p.failed = r.failed ∧
    s.partDone e j = ((s.modJob j.id (fun x => { x with parts := x.parts ++ [p] })).modEng e (fun x => { x with
      run := none, io := [], jobs := satAdd x.jobs 1 })).releaseRows e) ∧
  (∀ (s : State) (e : Fin 64) (r : EngRun) (j : Job), s.running e = some (r, j) → (s.engs.eng[e]).io = [] → s.dieUp = true →
    r.finished j = true → r.ending = 2 → ∃ t : State, exec (.enginePartEnd e) s = .next t ∧ (t.engs.eng[e]).run = none ∧
      (t.engs.eng[e]).jobs = satAdd (s.engs.eng[e]).jobs 1 ∧
      t.engs.jobs = s.engs.jobs.map (fun x => if x.id = j.id then { x with parts := x.parts ++ [r.part e] } else x))

/-- Pages are copied row by row; an engine's part ends with its header and its results. -/
def Obligations.CopiesAndPartsEnd : Prop :=
  Part.PagesAreCopied ∧ Part.CopyPageCompletes ∧ Part.PartsEnd

/-- A port issues a request whose tag is free and whose line no earlier request of its master holds, and lets it wait otherwise
(R234, R239); the Kerb takes its port's requests in the order of their issue, queues them by class, refuses class 15 from outside the
control island, and takes none into a full queue (R208, R221, R234). -/
def Sys2Proof.Part.RequestsAreIssuedAndQueued : Prop :=
  (∀ (s : State) (r : Req) (j : Fin 140) (sub : Fin 4), r.origin = .port j sub →
    let p := s.mports[j]
    let free := s.issueBlocked p r = false ∧ (waitingBefore r p.waiting).any (fun x => x.master = r.master && sameLine x r) = false
    (free → exec (.masterRequestIssue r) s = .next (s.started.modMport j (fun p => { p with
      waiting := p.waiting.erase r, outst := p.outst ++ [{ req := r, table := r.node != s.fab.nodeId }] }))) ∧
    (¬free → r ∉ p.waiting → exec (.masterRequestIssue r) s = .next (s.modMport j (fun p => { p with waiting := p.waiting ++ [r] }))) ∧
    (¬free → r ∈ p.waiting → exec (.masterRequestIssue r) s = .next s)) ∧
  (∀ (s : State) (j : Fin 140) (r : Req), (∀ o, firstUnentered (s.mports[j]).outst = some o → o.req ≠ r) →
    exec (.kerbEntry j r) s = .next s) ∧
  (∀ (s : State) (j : Fin 140) (r : Req) (c : Fin 16) (o : Outst), firstUnentered (s.mports[j]).outst = some o → o.req = r →
    c.val = r.cls.toNat →
    let full := 64 ≤ (s.kerbs[j].cls[c]).queue.length
    let u := s.modMport j (fun p => { p with outst := p.outst.map (fun x => if x = o then { x with entered := true } else x) })
    (full → exec (.kerbEntry j r) s = .next s) ∧
    (¬full → (r.cls ≠ 15 ∨ isMgmtAgent r.master = true) → exec (.kerbEntry j r) s = .next (u.started.modKerb j (fun k => { k with
      count := k.count + 1,
      cls := vmod k.cls c (fun x => { x with queue := x.queue ++ [{ req := r, since := s.strobe, num := k.count, msg := none }] }) }))) ∧
    (¬full → r.cls = 15 → isMgmtAgent r.master = false → exec (.kerbEntry j r) s = .next
      ((u.log evClassInvalid (detail j.val 15) (accessOf r.kind) r.master CStatus.notPermitted.code).complete
        { req := r, status := .notPermitted })))

/-- A Kerb forwards class 15 first and else the next class in turn whose head may pass: by its level, or because its queue is full, and
behind no earlier request of its master to the same line, once its switch has credits for it; a local request that passes is charged its
cost, enters the request plane at the Kerb's switch, and touches no other Kerb (R222-R225, R233). -/
def Sys2Proof.Part.KerbsForwardInTurn : Prop :=
  (∀ (s : State) (k : Fin 140), (∀ c, s.advance.canPass k c = false) → exec (.kerbForward k) s = .next s.advance) ∧
  (∀ (s a : State) (k : Fin 140) (c : Fin 16), a = s.advance → a.canPass k c = true →
    a.canPass k 15 = true ∧ c = 15 ∨ a.canPass k 15 = false ∧
      (∀ i, i < 16 → ((a.kerbs[k]).rr + 1 + i) % 16 = c.val → ∀ i', i' < i → ∀ d : Fin 16, d.val = ((a.kerbs[k]).rr + 1 + i') % 16 →
        a.canPass k d = false) →
    exec (.kerbForward k) s = .next (a.passHead k c)) ∧
  (∀ (s : State) (k : Fin 140) (c : Fin 16), s.canPass k c = true ↔ ∃ q rest, (s.kerbs[k].cls[c]).queue = q :: rest ∧
    ((s.kerbs[k]).lifted = true ∨ (s.kerbs[k].cls[c]).rate = 0 ∨ 0 < (s.kerbs[k].cls[c]).level ∨ 64 ≤ (q :: rest).length) ∧
    (s.kerbs[k]).blocked q = false ∧ s.hasRoom k q = true) ∧
  (∀ (s : State) (k : Fin 140) (c : Fin 16) (q : KReq) (rest : List KReq), (s.kerbs[k].cls[c]).queue = q :: rest → q.msg = none →
    q.req.node = s.fab.nodeId →
    let x := s.kerbs[k].cls[c]
    let t := s.passHead k c
    t.reqPlane = s.reqPlane ++ [{ load := { req := q.req, ingress := k }, spot := some (portSpot k), todo := (s.reqPath k q.req).drop 1 }] ∧
    (∀ k' : Fin 140, k' ≠ k → t.kerbs[k'] = s.kerbs[k']) ∧ t.mports = s.mports ∧ t.dram = s.dram ∧
    t.credits.req = takeCredit s.credits.req (portSpot k) (reqEntries q.req.kind) ∧ t.credits.cmp = s.credits.cmp ∧
    ((t.kerbs[k]).cls[c]).queue = rest ∧ (∀ d : Fin 16, d ≠ c → (t.kerbs[k]).cls[d] = (s.kerbs[k]).cls[d]) ∧
    ((t.kerbs[k]).cls[c]).level = (if (s.kerbs[k]).lifted = true ∨ x.rate = 0 then x.level else max (-65536) (x.level - (kerbCost q.req.kind : Int))) ∧
    ((t.kerbs[k]).cls[c]).spill = (if (s.kerbs[k]).lifted = true ∨ x.rate = 0 ∨ 0 < x.level then x.spill else satAdd x.spill 1))

/-- A fence covers what its master has outstanding or waiting to the node at its port, completes once all that has completed, and
reports whether any of it did not complete OK (R242). -/
def Sys2Proof.Part.FencesCover : Prop :=
  (∀ (s : State) (m : MasterId) (j : Fin 140) (node : BitVec 12),
    let covers := (s.mports[j]).covered m node
    (∀ x, x ∈ covers ↔ (∃ o ∈ (s.mports[j]).outst, o.req.master = m ∧ o.req.node = node ∧ x = (m, o.req.tag)) ∨
      (∃ r ∈ (s.mports[j]).waiting, r.master = m ∧ r.node = node ∧ x = (m, r.tag))) ∧
    (covers = [] → exec (.fence m j node) s = .next { s with outbox := .fenceDone j m false :: s.outbox }) ∧
    (covers ≠ [] → exec (.fence m j node) s = .next (s.modMport j (fun p => { p with
      fences := p.fences ++ [{ master := m, node := node, covers := covers }] })))) ∧
  (∀ (s : State) (j : Fin 140), (∀ f ∈ (s.mports[j]).fences, f.covers ≠ []) → exec (.fenceComplete j) s = .next s) ∧
  (∀ (s : State) (j : Fin 140) (f : FenceSt), (s.mports[j]).fences.find? (fun f => f.covers.isEmpty) = some f → f.msg = none →
    exec (.fenceComplete j) s = .next { s with
      mports := vmod s.mports j (fun p => { p with fences := p.fences.erase f }),
      outbox := .fenceDone j f.master f.err :: s.outbox })

/-- The oldest completion on its way to a port reaches it once it is past its hops: it gives its credits back, leaves every fence that
covered its request, frees the request's entry and is handed to its master, and what waited for the entry is issued; one that no request
waits for is late (R233, R234, R235, R239, R242, R248). -/
def Sys2Proof.Part.CompletionsReturn : Prop :=
  (∀ (s : State) (j : Fin 140), (s.advance.mports[j]).inflight = [] → exec (.completionReturn j) s = .next s.advance) ∧
  (∀ (s : State) (j : Fin 140) (x : Car Completion) (rest : List (Car Completion)), (s.advance.mports[j]).inflight = x :: rest →
    (x.todo ≠ [] → exec (.completionReturn j) s = .next s.advance) ∧
    (x.todo = [] → exec (.completionReturn j) s = .next (s.advance.returnOne j x rest).pushRows)) ∧
  (∀ (s : State) (j : Fin 140) (x : Car Completion) (rest : List (Car Completion)),
    let c := x.load
    let a : State := (({ s with credits := { s.credits with cmp := giveSpot s.credits.cmp x.spot (reqEntries c.req.kind) } } : State).countFwd
      x.spot.toList).modMport j (fun p => { p with inflight := rest })
    let u : State := { a with mports := a.mports.map (fun p : MPort => p.settle c.req.master c.req.tag c.status) }
    let o := (u.mports[j]).outst.find? (fun o => o.req.master = c.req.master && o.req.tag = c.req.tag)
    (o = none → s.returnOne j x rest = u.lateCmp) ∧
    (∀ y, o = some y →
      let v := u.modMport j (fun p => { p with outst := p.outst.erase y })
      s.returnOne j x rest = (({ v with dist := v.dist.map (fun d : District => { d with
        accepted := d.accepted.erase (c.req.master, c.req.tag) }) } : State).handOver j c).reissue j)) ∧
  (∀ (s : State) (j : Fin 140) (c : Completion), 136 ≤ j.val →
    (isMgmtAgent c.req.master = true ∨ s.engs.checking.any (fun x => x.reads.any (fun r => r.1 == c.req.tag && r.2.isNone)) = false) →
    s.handOver j c = s.modMport j (fun p => { p with delivered := p.delivered ++ [c] })) ∧
  (∀ (s : State) (e : Fin 64) (c : Completion), (s.engs.eng[e].io).any (fun x => x.tag == c.req.tag) = true →
    s.handOver (portEngine e) c = s.modEng e (fun x => { x with io := x.io.map (fun i =>
      if i.tag = c.req.tag then { i with got := some { status := c.status, data := c.data, lines := c.lines } } else i) }))

/-- Ports issue requests, Kerbs queue and forward them by class and bucket, and fences cover what is outstanding. -/
def Obligations.RequestsAreIssuedForwardedAndFenced : Prop :=
  Part.RequestsAreIssuedAndQueued ∧ Part.KerbsForwardInTurn ∧ Part.FencesCover ∧ Part.CompletionsReturn

/-- A memory request that comes to the end of its path at this node, no earlier one of its ingress for the slice being under way, is
refused, in this order, where LOCK is clear, the stack is not ready, the address is beyond the capacity, its District is not serving, or
its channel is offline; else its slice handles it (R19, R55, R64, R67, R235, R405). -/
def Sys2Proof.Part.RequestsReachTheirSlice : Prop :=
  ∀ (i : Instr) (s : State) (r : Req),
    (i = .lineRead r ∧ r.kind = .lineRead ∨ (∃ d p, i = .lineWrite r ∧ r.kind = .lineWrite d p) ∨
      (∃ d m, i = .partialWrite r ∧ r.kind = .partialWrite d m) ∨ (∃ st, i = .rowRead r ∧ r.kind = .rowRead st) ∨
      (∃ d p, i = .rowWrite r ∧ r.kind = .rowWrite d p)) → s.dieUp = true →
    (s.advance.takeReq r = none → exec i s = .next s.advance) ∧
    (∀ g, s.advance.takeReq r = some g → g.inBoot = false →
      let ch := (g.decodeAddr r.addr.toNat).ch
      (g.glb.mapLock = false → exec i s = .next (g.complete { req := r, status := .internal })) ∧
      (g.glb.mapLock = true → g.boot.phase = .starting → exec i s = .next (g.complete { req := r, status := .domainDown })) ∧
      (g.glb.mapLock = true → g.boot.phase = .ready →
        (g.glb.variant.capacity ≤ r.addr.toNat → exec i s = .next
          ((g.log evAddrInvalid r.addr.toNat (g.reqAccess r) r.master CStatus.notPermitted.code).complete { req := r, status := .notPermitted })) ∧
        (r.addr.toNat < g.glb.variant.capacity →
          ((g.dist[distOf ch]).fn.st = .off ∨ (g.dist[distOf ch]).fn.st = .starting →
            exec i s = .next (g.complete { req := r, status := .domainDown })) ∧
          ((g.dist[distOf ch]).fn.st = .stopping → (g.dist[distOf ch]).accepted.contains (r.master, r.tag) = false →
            g.jobRequest (distOf ch) r = false → exec i s = .next (g.complete { req := r, status := .domainDown })) ∧
          ((g.dist[distOf ch]).fn.st = .on → (g.chs[ch]).tsv.offline = true →
            exec i s = .next (g.complete { req := r, status := .channelOffline, epoch := (g.chs[ch]).ctl.epoch })) ∧
          ((g.dist[distOf ch]).fn.st = .on → (g.chs[ch]).tsv.offline = false →
            (g.chs[ch]).ctl.state ≠ .draining → (g.chs[ch]).ctl.state ≠ .selfRefresh → (g.chs[ch]).ctl.state ≠ .off →
            exec i s = .next (g.atSlice r)))))

/-- The page checks of a request by a master that is no control core, outside the command area and the tree store, in their order
(R121, R125, R127, R147). -/
def Sys2Proof.Part.PageChecksInOrder : Prop :=
  ∀ (s : State) (m : MasterId) (ch : Fin 64) (a access : Nat) (write : Bool) (e : W32),
    s.isWalkerScrubber m = false → s.isLocalCore m = false → inCmdArea (a / 131072) = false → s.inTree a = false →
    let deny := s.modCry ch (fun c => { c with deniedAccess := satAdd c.deniedAccess 1 })
    let granted := peValid e = true ∧ s.groupGrants (peGroup e) m write = true ∧ (write = true → peRo e = false)
    (peRetired e = true → s.pageCheckWith m ch a access write e = (s, some .retired)) ∧
    (peRetired e = false → ¬granted → s.pageCheckWith m ch a access write e = (deny, some .notPermitted)) ∧
    (peRetired e = false → granted → peEnc e = true → (s.keySlot (peSlot e)).usable = false →
      s.pageCheckWith m ch a access write e = (deny.logKeyEmpty (peSlot e) access m, some .notPermitted)) ∧
    (peRetired e = false → granted → (peEnc e = true → (s.keySlot (peSlot e)).usable = true) → write = true →
      s.blocked (a / 131072) e = true → s.pageCheckWith m ch a access write e =
        (s.modCry ch (fun c => { c with deniedSticky := satAdd c.deniedSticky 1 }), some .integrityFail)) ∧
    (peRetired e = false → granted → (peEnc e = true → (s.keySlot (peSlot e)).usable = true) →
      (write = true → s.blocked (a / 131072) e = false) → s.pageCheckWith m ch a access write e = (s, none)) ∧
    (s.groupGrants (peGroup e) m write = true ↔ ∃ i, i < 16 ∧ (s.groupPat (peGroup e) i).getLsbD 63 = true ∧
      (s.groupPat (peGroup e) i).getLsbD (if write then 61 else 62) = true ∧
      m &&& (s.groupPat (peGroup e) i).extractLsb' 20 20 = (s.groupPat (peGroup e) i).extractLsb' 0 20 &&& (s.groupPat (peGroup e) i).extractLsb' 20 20)

/-- Memory requests are refused in their order or handled by their slice. -/
def Obligations.RequestsReachTheirSlice : Prop :=
  Part.RequestsReachTheirSlice ∧ Part.PageChecksInOrder

/-- A line that a slice has in hand is checked line code, POISON, tag, in that order, and decrypted if ENC (R127 steps 4-7); a write
at the end of its counter is SEALED, and any other is stored under its counter (R74, R140, R145). -/
def Obligations.LinesAreOpenedAndStored : Prop :=
  (∀ (s : State) (ch : Fin 64) (m : MasterId) (access : Nat) (e : W32) (a : Nat) (l : SLine) (o : DecodeOut) (pw : Bool),
    s.isWalkerScrubber m = false → (s.chs[ch]).cry.injData = false →
    let k := s.keySlot (peSlot e)
    let c := s.lineCtr e a
    let plain := if peEnc e then lineData l ^^^ keystream k.dataKey c (a / 64) else lineData l
    let tagGood := lineTagged l = true ∧ lineTag l = tagOf k.tagKey k.hashKey (lineData l) (a / 64) c (lineState l)
    (o = .uncorrectable → s.openLine ch m access e a (l, o) pw = (s, .uncorrectable, 0)) ∧
    (o ≠ .uncorrectable → linePoison l = true → s.openLine ch m access e a (l, o) pw = (s, .poisoned, 0)) ∧
    (o ≠ .uncorrectable → linePoison l = false → peInt e = true → ¬tagGood → s.openLine ch m access e a (l, o) pw =
      (s.tagFail ch e a (s.decodeAddr a).key m access pw, .integrityFail, 0)) ∧
    (o ≠ .uncorrectable → linePoison l = false → (peInt e = true → tagGood) → s.openLine ch m access e a (l, o) pw = (s, .ok, plain))) ∧
  (∀ (s : State) (ch : Fin 64) (r : Req) (e : W32) (d : BitVec 512) (p : Bool),
    (s.isSealed e r.addr.toNat = true → s.serveWrite ch r e d p = (s.countSealed ch).completeAt ch r .sealed) ∧
    (s.isSealed e r.addr.toNat = false → s.serveWrite ch r e d p = s.storeFor ch r e r.addr.toNat d p)) ∧
  (∀ (s : State) (ch : Fin 64) (w : WqLine) (req : Option Req),
    let u := s.modCh ch (fun c => c.noteWrite w.key)
    let c := (u.chs[ch]).ctl
    (c.lineWaits w.key = false → c.queued? w.key ≠ none → s.enqueue ch w req = (u.modCtl ch (fun c => ({ c with
      wq := c.wq.map (fun (x : WqLine) => if x.key = w.key then w else x), wqCoalesce := satAdd c.wqCoalesce 1 }).updateCached w.key w.line), true)) ∧
    (c.lineWaits w.key = false → c.queued? w.key = none → c.wq.length < 128 → s.enqueue ch w req =
      (u.modCtl ch (fun c => ({ c with wq := c.wq ++ [w] }).updateCached w.key w.line), true)) ∧
    ((c.lineWaits w.key = true ∨ c.queued? w.key = none ∧ 128 ≤ c.wq.length) → s.enqueue ch w req =
      (u.modCtl ch (fun c => { c with wqWait := c.wqWait ++ [{ wline := w, req := req }] }), false))) ∧
  (∀ (s : State) (ch : Fin 64), (s.chs[ch]).ctl.wqWait = [] → exec (.writeQueueAdmit ch) s = .next s) ∧
  (∀ (s : State) (ch : Fin 64) (w : WqWait) (rest : List WqWait), (s.chs[ch]).ctl.wqWait = w :: rest →
    ((s.chs[ch]).ctl.wq.length < 128 ∨ (s.chs[ch]).ctl.queued? w.wline.key ≠ none → ∀ u, u = s.modCtl ch (fun c => ({ c with wqWait := rest } : Ctl).enter w.wline) →
      (w.req = none → exec (.writeQueueAdmit ch) s = .next u) ∧
      (∀ r, w.req = some r → exec (.writeQueueAdmit ch) s = .next (u.completeAt ch r w.st))) ∧
    (128 ≤ (s.chs[ch]).ctl.wq.length → (s.chs[ch]).ctl.queued? w.wline.key = none → exec (.writeQueueAdmit ch) s = .next s))

/-- What a write stores reads back: the stored form of a line written with any data, under any page entry whose INT comes with ENC,
at any address whose counter line is cached where one is needed, opens with OK to the same data for every master (R127, R131-R133, R140). -/
def Obligations.StoredLinesReadBack : Prop :=
  ∀ (s u : State) (ch : Fin 64) (m m' : MasterId) (access access' : Nat) (e : W32) (a key : Nat) (d : BitVec 512) (cls : BitVec 4)
    (w : WqLine) (pw : Bool) (o : DecodeOut),
    (peInt e = true → peEnc e = true) → (∀ i, s.ctrNeeded e a = some i → (s.ctrCached 1 i).isSome = true) →
    s.isWalkerScrubber m' = false → (s.chs[ch]).cry.injData = false → o ≠ .uncorrectable →
    s.storedForm ch m access e a key d false cls = (u, w) →
    ∃ v : State, u.openLine ch m' access' e a (w.line, o) pw = (v, .ok, d)

/-- In strobe k - 12 every channel chooses for slot k, once: the owner's candidate by the four rules, else a borrower's; the arbiters keep
every ten strobes of a layer at or below 16 activations; a candidate without a grant is counted and not issued (R75-R77, R213). -/
def Sys2Proof.Part.SlotsAreChosenAndGranted : Prop :=
  (∀ (c : Ctl) (cls rev cmd : Nat),
    (c.wqHigh ≤ c.wq.length → (c.wmCand (some cls) cmd).isSome = true → c.ownCand cls rev cmd = c.wmCand (some cls) cmd) ∧
    (c.wq.length < c.wqHigh → (c.raCand cls rev cmd).isSome = true → c.ownCand cls rev cmd = c.raCand cls rev cmd) ∧
    (c.wq.length < c.wqHigh → c.raCand cls rev cmd = none → (c.wmCand (some cls) cmd).isSome = true →
      c.ownCand cls rev cmd = c.wmCand (some cls) cmd) ∧
    (c.raCand cls rev cmd = none → c.wmCand (some cls) cmd = none → c.wqLow < c.wq.length → c.ownCand cls rev cmd = c.wmCand none cmd) ∧
    (512 ≤ c.log.length → c.wmCand (some cls) cmd = none) ∧
    (∀ x, c.raCand cls rev cmd = some x → c.bankReady x.row cmd = true)) ∧
  (∀ (c : Ctl) (r : Rbt) (rev cmd : Nat),
    (∀ x, c.lendCand 15 rev cmd = some x → c.borrow r rev cmd = some (15, x)) ∧
    (c.lendCand 15 rev cmd = none → r.borrowOff = true → c.borrow r rev cmd = none)) ∧
  (∀ s : State,
    (s.strobe + 12 ≤ s.slot → exec .slotSchedule s = .next s) ∧
    (s.slot < s.strobe + 12 → ∃ t : State, exec .slotSchedule s = .next t ∧ t.slot = s.strobe + 12 ∧ t.strobe = s.strobe ∧
      t.dram = s.dram ∧ t.sec = s.sec ∧ t.cmd = s.cmd ∧
      t = (s.arbOrder ((fins 64).filterMap (s.propose t.slot))).foldl (fun s p => s.decideSlot t.slot p) { s with slot := t.slot })) ∧
  (∀ (s : State) (ch : Fin 64) (layer t w : Nat),
    let k := arbKey ch layer
    (∀ u, s.activate ch layer t w = some u → ∀ i, i < 10 → windowSum (smGetD s.acts k []) (t - i) + w ≤ 16) ∧
    ((∀ i, i < 10 → windowSum (s.refRoom ch layer t ++ smGetD s.acts k []) (t - i) + w ≤ 16) → s.activate ch layer t w =
      some { s with
        acts := smPut s.acts k (((t, w) :: smGetD s.acts k []).filter (fun x => s.strobe < x.1 + 20)), arb := smPut s.arb k ch.val })) ∧
  (∀ (s : State) (k : Nat) (p : Proposal) (x : Cand), p.cand = some x →
    let v := s.noteBorrower p
    (v.activate p.ch (rowOfKey x.row).layer (k - 4) 1 = none → s.decideSlot k p = v.modCtl p.ch (fun c => { c with
      outs := c.outs ++ [{ slot := k, denied := true }],
      denyGuar := if p.guar then satAdd c.denyGuar 1 else c.denyGuar,
      denyOther := if p.guar then c.denyOther else satAdd c.denyOther 1 })) ∧
    (∀ u, v.activate p.ch (rowOfKey x.row).layer (k - 4) 1 = some u →
      let t := s.decideSlot k p
      (t.chs[p.ch]).ctl.chosen = (s.chs[p.ch]).ctl.chosen ++ [{ slot := k, cmd := x.cmd }] ∧ t.acts = u.acts ∧
      ∃ o : SlotOut, (t.chs[p.ch]).ctl.outs = (s.chs[p.ch]).ctl.outs ++ [o] ∧ o.slot = k ∧ o.cls = some x.cls ∧ o.denied = false))

/-- Maintenance slots (R50, R76, R79-R82, R87, R89): REFs fall due on the grid of the interval in force; the next maintenance slot goes to a
due REF that the arbiter grants, which costs four activations and moves on to the next bank; else to the drain or the recovery where one is
under way, else to the walking step, CA_CHECK, the scrubber or an STS, and it carries no request. How scrub reads and STSs share the slots that are
left is the model's reading (log entry 17). -/
def Sys2Proof.Part.MaintenanceSlotsCarryRefreshFirst : Prop :=
  (∀ (s : State) (ch : Fin 64) (l : Nat), (s.chs[ch]).tsv.offline = false → (s.chs[ch]).ctl.state ≠ .off →
    (s.chs[ch]).ctl.state ≠ .selfRefresh → (s.chs[ch]).ctl.lastRefDue = some l →
    let d := l + (if s.hotCh ch = true then 488 else 976)
    (d ≤ s.strobe → exec (.refreshDue ch) s = .next (s.modCtl ch (fun c => { c with lastRefDue := some d, refDue := c.refDue ++ [d] }))) ∧
    (s.strobe < d → exec (.refreshDue ch) s = .next s)) ∧
  (∀ (s : State) (ch : Fin 64), (s.chs[ch]).tsv.offline = false → (s.chs[ch]).tsv.hold = none →
    let c := s.chs[ch]
    let k := s.nextMaint ch
    let u := s.modCtl ch (fun x => { x with lastMaint := k })
    (c.ctl.state = .run ∨ c.ctl.state = .hold ∨ c.ctl.state = .draining → c.ctl.refDue ≠ [] →
      u.activateRef ch (s.nextRef ch).1 k ≠ none → exec (.maintenanceSlot ch) s = .next (u.issueRef ch k)) ∧
    ((c.ctl.refDue = [] ∨ u.activateRef ch (s.nextRef ch).1 k = none) → c.ctl.cmdFrom + 4 ≤ k →
      (c.ctl.state = .draining → c.ctl.recovery = false → exec (.maintenanceSlot ch) s =
        .next (u.decideSlot k { ch := ch, cand := (u.chs[ch]).ctl.wmCand none (k - 4) })) ∧
      (c.ctl.state = .hold ∨ c.ctl.state = .draining → c.ctl.recovery = true → exec (.maintenanceSlot ch) s = .next (u.recoveryStep ch k)) ∧
      (c.ctl.state = .run → c.ctl.recovery = false → c.ctl.fill = false →
        let v := u.modCtl ch (fun x => { x with polled := false })
        (∀ w, c.tsv.nextWalk = some w →
          (c.tsv.walkReading = true → exec (.maintenanceSlot ch) s = .next (v.issueSts ch k)) ∧
          (c.tsv.walkReading = false → exec (.maintenanceSlot ch) s = .next (v.sweepStep ch k w))) ∧
        (c.tsv.nextWalk = none →
          (c.ctl.caCheckDue = true → c.ctl.caCheckRun = false →
            exec (.maintenanceSlot ch) s = .next (v.modCtl ch (fun x => { x with caCheckRun := true }))) ∧
          ((c.ctl.caCheckDue = false ∨ c.ctl.caCheckRun = true) →
            (c.ctl.polled = true → v.scrubReady ch = true → exec (.maintenanceSlot ch) s = .next (v.issueScrub ch k)) ∧
            ((c.ctl.polled = false ∨ v.scrubReady ch = false) → exec (.maintenanceSlot ch) s = .next (v.issueSts ch k))))))) ∧
  (∀ (s : State) (ch : Fin 64) (k : Nat),
    let c := (s.chs[ch]).ctl
    s.issueSts ch k = s.modCtl ch (fun x => { x with
      chosen := c.chosen ++ [{ slot := k, cmd := .sts c.stsNext }], stsNext := (c.stsNext + 1) % s.glb.variant.layers, polled := true })) ∧
  (∀ (s : State) (ch : Fin 64) (k : Nat) (u : State),
    let c := (s.chs[ch]).ctl
    let n := s.glb.variant.layers
    let layer := c.nextBank % n
    let bank := c.nextBank / n
    s.activateRef ch layer k = some u →
    (∀ i, i < 10 → windowSum (smGetD s.acts (arbKey ch layer) []) (k - 4 - i) + 4 ≤ 16) ∧
    s.issueRef ch k = u.modCtl ch (fun c => { c with
      refDue := c.refDue.drop 1, chosen := c.chosen ++ [{ slot := k, cmd := .ref (layer * 4 + bank) c.nextGroup }],
      bankFree := smPut c.bankFree (layer * 4 + bank) (max (smGetD c.bankFree (layer * 4 + bank) 0) (k - 4) + 64),
      nextBank := (c.nextBank + 1) % (4 * n),
      nextGroup := if c.nextBank + 1 = 4 * n then (c.nextGroup + 1) % 128 else c.nextGroup }))

/-- Slots are chosen and granted within the activation limit, refresh first in maintenance slots. -/
def Obligations.SlotsAreScheduled : Prop :=
  Part.SlotsAreChosenAndGranted ∧ Part.MaintenanceSlotsCarryRefreshFirst

/-- In strobe k - 4 the command chosen for slot k goes out, and none where none is chosen: a WM carries every queued line of its row and
enters the write log, an RA for requests counts and takes an armed injection with it, an ALN ends the lockout of every layer and the next
command waits 16 strobes; a word with two wrong bits in a beat locks every layer out (R42, R43, R72, R78, R84-R87, R91, R120). -/
def Sys2Proof.Part.CommandsGoOut : Prop :=
  (∀ (s : State) (ch : Fin 64) (flips : BitVec 160), (∀ x ∈ (s.chs[ch]).ctl.chosen, x.slot ≠ s.strobe + 4) →
    exec (.rowCommandIssue ch flips) s = .next s) ∧
  (∀ (s : State) (ch : Fin 64) (x : SlotCmd), (s.chs[ch]).ctl.dueCmd s.strobe = some x → (s.chs[ch]).ctl.injUncorr = false →
    (s.chs[ch]).ctl.injCorr = false →
    let c := (s.chs[ch]).ctl
    ∃ t : State, exec (.rowCommandIssue ch 0) s = .next t ∧ (∀ n : Fin 64, n ≠ ch → t.chs[n] = s.chs[n]) ∧ t.dram = s.dram ∧
      (t.chs[ch]).ctl.chosen = c.chosen.erase x ∧ (t.chs[ch]).tsv = (s.chs[ch]).tsv ∧
      (∀ row m0, x.cmd = .wm row m0 →
        (t.chs[ch]).ctl.wq = c.wq.filter (fun w => w.key / 16 != row) ∧
        (t.chs[ch]).ctl.log = c.log ++ [{ row := row, mask := c.rowMask row, slot := x.slot }] ∧
        (t.chs[ch]).ctl.issued = c.issued ++ [{
          slot := x.slot, cmd := .wm row (c.rowMask row), lines := if (c.layer (rowOfKey row).layer).lockout then [] else c.rowLines row }] ∧
        (∀ i, i < 16 → ((c.rowMask row).getLsbD i = true ↔ ∃ w ∈ c.wq, w.key = row * 16 + i))) ∧
      (∀ row, x.cmd = .ra row false →
        (t.chs[ch]).ctl.rcMisses = satAdd c.rcMisses 1 ∧ (t.chs[ch]).ecc.injReq = 0 ∧ (t.chs[ch]).ctl.wq = c.wq ∧
        (t.chs[ch]).ctl.log = c.log ∧ (t.chs[ch]).ctl.issued = c.issued ++ [{ x with inj := (s.chs[ch]).ecc.injReq }]) ∧
      (x.cmd = .aln → (t.chs[ch]).ctl.cmdFrom = s.strobe + 16 ∧ (t.chs[ch]).ctl.issued = c.issued ∧
        ∀ l, l < s.glb.variant.layers → ((t.chs[ch]).ctl.layer l).lockout = false)) ∧
  (∀ (s : State) (ch : Fin 64) (x : SlotCmd) (flips : BitVec 160) (i : Nat), (s.chs[ch]).ctl.dueCmd s.strobe = some x →
    (s.chs[ch]).ctl.injUncorr = false → (s.chs[ch]).ctl.injCorr = false → i < 4 → 2 ≤ flipCount (beatFlips flips i) →
    ∃ t : State, exec (.rowCommandIssue ch flips) s = .next t ∧
      ∀ l, l < s.glb.variant.layers → ((t.chs[ch]).ctl.layer l).lockout = true)

/-- A WM's row crosses in its data strobe: the layer stores exactly the masked lines, with the bits that cross wrong, and latches the groups
whose parity mismatches; no other line of the layers changes, and a layer that did not take the command stores nothing (R42, R43, R49, R54, R85). -/
def Sys2Proof.Part.WrittenRowsCross : Prop :=
  (∀ (s : State) (ch : Fin 64) (wrong : BitVec 10240) (par : BitVec 20), (s.chs[ch]).ctl.crossing s.strobe isWm = none →
    exec (.wmDataStrobe ch wrong par) s = .next s) ∧
  (∀ (s : State) (ch : Fin 64) (wrong : BitVec 10240) (par : BitVec 20) (x : SlotCmd) (row : Nat) (mask : BitVec 16),
    (s.chs[ch]).ctl.crossing s.strobe isWm = some x → x.cmd = .wm row mask →
    (x.lines = [] → exec (.wmDataStrobe ch wrong par) s = .next (s.crossed ch x)) ∧
    (x.lines.length = 16 → row < 4194304 → Memory.wf s.dram = true →
      let w := wrong ^^^ (s.chs[ch]).tsv.deadBits Config.freeValue s.free
      ∃ t : State, exec (.wmDataStrobe ch wrong par) s = .next t ∧ Memory.wf t.dram = true ∧
      (t.chs[ch]).ctl.issued = (s.chs[ch]).ctl.issued.erase x ∧
      ((t.chs[ch]).ctl.layer (rowOfKey row).layer).wparity = ((s.chs[ch]).ctl.layer (rowOfKey row).layer).wparity ||| parityMismatch w par ∧
      (∀ i, i < 16 → mask.getLsbD i = true → t.dramLine ch.val (row * 16 + i) = nth x.lines i 0 ^^^ w.extractLsb' (640 * i) 640) ∧
      (∀ (c : Fin 64) (key : Nat), key < 67108864 → (c ≠ ch ∨ key / 16 ≠ row ∨ mask.getLsbD (key % 16) = false) →
        t.dramLine c.val key = s.dramLine c.val key))) ∧
  (∀ (t : Tsv) (f : Nat → W64) (n : Nat), t.dead = [] → t.deadBits f n = 0)

/-- A row that requests wait for crosses in its RA's data strobe: it is checked for parity, decoded, cached and serves the requests that wait
for it; an undriven strobe is discarded, its RA is chosen again, and command-word recovery starts (R42, R49, R69, R86, R87, R95). -/
def Sys2Proof.Part.ReadRowsCross : Prop :=
  (∀ (s : State) (ch : Fin 64) (wrong : BitVec 10240) (par : BitVec 20) (mid : BitVec 14),
    (s.chs[ch]).ctl.crossing s.strobe isReqRa = none → exec (.rowDataArrival ch wrong par mid) s = .next s) ∧
  (∀ (s : State) (ch : Fin 64) (wrong : BitVec 10240) (par : BitVec 20) (mid : BitVec 14) (x : SlotCmd) (row : Nat),
    (s.chs[ch]).ctl.crossing s.strobe isReqRa = some x → x.cmd = .ra row false →
    let layer := (rowOfKey row).layer
    let u := s.crossed ch x
    let undriven := ((s.chs[ch]).ctl.layer layer).lockout = true ∨ 1024 < mid.toNat
    (undriven → exec (.rowDataArrival ch wrong par mid) s = .next ((u.modCtl ch (fun c => { c with
      rq := c.rq.map (fun q => if q.row = row then { q with sched := false } else q) })).startRecovery ch)) ∧
    (¬undriven → ∀ v r, u.crossRead ch layer wrong par = (v, r) →
      ((v.chs[ch]).tsv.offline = true → exec (.rowDataArrival ch wrong par mid) s = .next v) ∧
      ((v.chs[ch]).tsv.offline = false → ∀ w ls,
        v.receiveRow ch row r x.inj (v.namedLine ch row).1 (v.namedLine ch row).2.1 (v.namedLine ch row).2.2.1 = (w, ls) →
        exec (.rowDataArrival ch wrong par mid) s = .next ((w.cacheRow ch row ls (v.namedLine ch row).2.2.2).serveRow? ch row
          (((w.chs[ch]).ctl.mergeRow row ls).zipIdx.map (fun y => (row * 16 + y.2, y.1))))))) ∧
  (∀ (s : State) (ch : Fin 64) (layer : Nat) (wrong : BitVec 10240) (par : BitVec 20), (s.chs[ch]).tsv.dead = [] →
    s.crossRead ch layer wrong par = ((s.modTsv ch (fun t => { t with injParity := false })).parityCheck ch layer false
      (parityMismatch wrong par ^^^ (if (s.chs[ch]).tsv.injParity then 1 else 0)), wrong))

/-- Row commands go out four strobes before their slot, and their rows cross in it. -/
def Obligations.RowsCross : Prop :=
  Part.CommandsGoOut ∧ Part.WrittenRowsCross ∧ Part.ReadRowsCross

/-- Dead connections (R52-R55): a data connection takes its group's free spare, or its symbol is erased; the fourth erased symbol of
a line position, or a second death in an erased symbol, takes the channel offline; an offline channel completes all it held, its clock
stops, and where its command connections work its layers enter self-refresh. -/
def Sys2Proof.Part.DeadConnectionsAreHandled : Prop :=
  (∀ (s : State) (ch : Fin 64) (auto : Bool) (c : Conn), c.kind = .data → c.idx < 10240 → (s.chs[ch]).tsv.offline = false →
    (s.chs[ch]).tsv.known c = false →
    let t := (s.chs[ch]).tsv
    let u := s.modTsv ch (fun t => { t with deadLast := deadWord c })
    let er := t.erased (c.idx / 8 / 80)
    let sym := c.idx / 8 % 80
    let spare := t.spareFree (c.idx / 64) = true ∧ (auto = true ∨ t.autoSpare = true)
    (spare → s.declareDead ch auto c = ((u.modTsv ch (fun t => { t with
        spares := smPut t.spares (c.idx / 64) { used := true, inService := true, pos := c.idx % 64 } })).bumpEpoch ch).log
        (evTsvSpareUsed ch.val) (detail ch.val (deadWord c).toNat) acSequencer) ∧
    (¬spare → sym ∉ er → er.length < 3 → t.erasedCount ≠ 0 → s.declareDead ch auto c = ((u.modTsv ch (fun t => { t with
        dead := c.idx :: t.dead, erase := smPut t.erase (c.idx / 8 / 80) (er ++ [sym]) })).bumpEpoch ch).log
        (evTsvErasure ch.val) (detail ch.val (deadWord c).toNat) acSequencer) ∧
    (¬spare → (sym ∈ er ∨ 3 ≤ er.length) → ∃ cause, s.declareDead ch auto c =
      (u.modTsv ch (fun t => { t with dead := c.idx :: t.dead })).goOffline ch cause)) ∧
  (∀ (s : State) (ch : Fin 64) (cause : Nat), (s.chs[ch]).tsv.offline = false → s.heldRequests ch = [] →
    let t := s.goOffline ch cause
    (t.chs[ch]).tsv.offline = true ∧ (t.chs[ch]).tsv.clk = false ∧ (t.chs[ch]).ctl.state = .offline ∧ (t.chs[ch]).ctl.wq = [] ∧
    (t.chs[ch]).ctl.rc = [] ∧ (t.chs[ch]).ctl.epoch = (s.chs[ch]).ctl.epoch + 1 ∧ t.glb.nodeEpoch = s.glb.nodeEpoch + 1 ∧
    (t.chs[ch]).tsv.lostWrites = satAdd (s.chs[ch]).tsv.lostWrites (s.chs[ch]).ctl.wq.length ∧
    (cause = 1 ∨ cause = 2 → ∀ l, l < s.glb.variant.layers → ((s.chs[ch]).ctl.layer l).lockout = false →
      ((t.chs[ch]).ctl.layer l).selfRefresh = true) ∧
    (∀ n : Fin 64, n ≠ ch → t.chs[n] = s.chs[n]) ∧ t.dram = s.dram)

/-- Status reads and CA_CHECK (R84, R86, R87): an STS hands over and clears its layer's latches and frees the layer's write log entries
of the WMs before it (log entry 83); an undriven one starts recovery, or names the layer as locked in one; CA_CHECK runs in its slot, and in a recovery
after the ALN, which it ends. -/
def Sys2Proof.Part.StatusReadsAct : Prop :=
  (∀ (s : State) (ch : Fin 64) (mid : BitVec 14) (par : BitVec 20), (s.chs[ch]).ctl.crossing s.strobe isSts = none →
    exec (.stsResult ch mid par) s = .next s) ∧
  (∀ (s : State) (ch : Fin 64) (mid : BitVec 14) (par : BitVec 20) (x : SlotCmd) (layer : Nat),
    (s.chs[ch]).ctl.crossing s.strobe isSts = some x → x.cmd = .sts layer → (s.chs[ch]).tsv.offline = false →
    let l := (s.chs[ch]).ctl.layer layer
    let u := s.crossed ch x
    let undriven := l.lockout = true ∨ 1024 < mid.toNat
    (undriven → (s.chs[ch]).ctl.recovery = false → exec (.stsResult ch mid par) s = .next (u.startRecovery ch)) ∧
    (undriven → (s.chs[ch]).ctl.recovery = true → exec (.stsResult ch mid par) s =
      .next (u.modCtl ch (fun c => { c with recGot := c.recGot + 1, locked := c.locked ++ [layer] }))) ∧
    (¬undriven → (s.chs[ch]).ctl.recovery = false → l.wparity = 0 → exec (.stsResult ch mid 0) s = .next (u.modCtl ch (fun c => { c with
      layers := smPut c.layers layer { l with corrected := 0, wparity := 0 }, caCount := satAdd c.caCount l.corrected.toNat,
      caLastConn := if l.corrected.toNat = 0 then c.caLastConn else BitVec.ofNat 6 l.lastConn.toNat,
      caLastLayer := if l.corrected.toNat = 0 then c.caLastLayer else BitVec.ofNat 4 layer,
      lastStsConn := if l.corrected.toNat = 0 then none else some l.lastConn.toNat,
      caCheckDue := c.caCheckDue || decide (l.corrected.toNat ≠ 0 ∧ c.lastStsConn = some l.lastConn.toNat),
      log := c.log.filter (fun w => (rowOfKey w.row).layer != layer || decide (x.slot ≤ w.slot)) })))) ∧
  (∀ (s : State) (ch : Fin 64), (s.chs[ch]).tsv.offline = false → (s.chs[ch]).ctl.caCheckDue = true → (s.chs[ch]).ctl.caCheckRun = true →
    (s.chs[ch]).ctl.recovery = false →
    exec (.caCheck ch []) s = .next (s.modCtl ch (fun c => { c with caCheckDue := false, caCheckRun := false, lastStsConn := none }))) ∧
  (∀ (s : State) (ch : Fin 64), (s.chs[ch]).tsv.offline = false → (s.chs[ch]).ctl.recovery = true → (s.chs[ch]).ctl.recAln = true →
    (s.chs[ch]).ctl.recChecked = false → (s.chs[ch]).ctl.cmdFrom ≤ s.strobe →
    let u := s.modCtl ch (fun c => { c with caCheckDue := false, caCheckRun := false, lastStsConn := none })
    ((s.chs[ch]).tsv.retrainDue = some .full →
      exec (.caCheck ch []) s = .next (u.modCtl ch (fun c => { c with recChecked := true }))) ∧
    ((s.chs[ch]).tsv.retrainDue ≠ some .full → exec (.caCheck ch []) s = .next (u.endRecovery ch))) ∧
  (∀ (s : State) (ch : Fin 64), (s.chs[ch]).ctl.log = [] → (s.chs[ch]).ctl.waiting = [] →
    let t := s.endRecovery ch
    (t.chs[ch]).ctl.recovery = false ∧ (t.chs[ch]).ctl.locked = [] ∧
    (t.chs[ch]).ctl.state = (if (s.chs[ch]).ctl.state = .hold ∧ (s.chs[ch]).ctl.fill = false then .run else (s.chs[ch]).ctl.state) ∧
    (∀ n : Fin 64, n ≠ ch → t.chs[n] = s.chs[n]) ∧ t.dram = s.dram)

/-- Walking steps (R50, R51, R62, R86): a background step falls due after WALK_INTERVAL revolutions; its pattern is written in one
maintenance slot and read back in a later one of the same revolution; a read-back without a mismatch ends the step, one with a mismatch
runs it three times; misses in one run are transients. -/
def Sys2Proof.Part.SweepsAct : Prop :=
  (∀ (s : State) (ch : Fin 64), (s.chs[ch]).tsv.offline = false →
    let t := (s.chs[ch]).tsv
    (t.walkEn = true ∨ t.sweepForced = true → t.walkInterval ≤ t.walkRevs →
      exec (.walkStepDue ch) s = .next (s.modTsv ch (fun t => { t with walkDue := true, walkRevs := 0 }))) ∧
    (t.walkEn = false ∧ t.sweepForced = false ∨ t.walkRevs < t.walkInterval → exec (.walkStepDue ch) s = .next s)) ∧
  (∀ (s : State) (ch : Fin 64) (k : Nat) (w : WalkRun),
    (∀ a, w.tlw = some a → a / 256 = k / 256 → ∃ t : State, s.sweepStep ch k w = t.chooseCmd ch k (.tlr w.layer) ∧
      (t.chs[ch]).tsv.walk = some { w with tlr := some k }) ∧
    (w.tlw = none → k % 256 < 240 → ∃ t : State, s.sweepStep ch k w = t.chooseCmd ch k (.tlw w.layer w.pattern) ∧
      (t.chs[ch]).tsv.walk = some { w with tlw := some k }) ∧
    (w.tlw = none → 240 ≤ k % 256 → s.sweepStep ch k w = s)) ∧
  (∀ (s : State) (ch : Fin 64) (misses : List Conn) (mid : BitVec 14), (s.chs[ch]).ctl.crossing s.strobe isTlr = none →
    exec (.walkStep ch misses mid) s = .next s) ∧
  (∀ (s : State) (ch : Fin 64) (misses : List Conn) (mid : BitVec 14) (x : SlotCmd) (layer : Nat),
    (s.chs[ch]).ctl.crossing s.strobe isTlr = some x → x.cmd = .tlr layer →
    let undriven := ((s.chs[ch]).ctl.layer layer).lockout = true ∨ 1024 < mid.toNat
    (¬undriven → exec (.walkStep ch misses mid) s = .next ((s.crossed ch x).walkCompare ch misses)) ∧
    (undriven → exec (.walkStep ch misses mid) s = .next (((s.crossed ch x).modTsv ch (fun t => { t with
      walk := t.walk.map (fun w => { w with tlw := none, tlr := none }) })).startRecovery ch))) ∧
  (∀ (s : State) (ch : Fin 64) (w : WalkRun), (s.chs[ch]).tsv.walk = some w → (s.chs[ch]).tsv.hold = none →
    (w.misses = [] → ∃ t : State, s.walkCompare ch [] = t ∧ (t.chs[ch]).tsv.walk = none ∧ (t.chs[ch]).tsv.transients = (s.chs[ch]).tsv.transients ∧
      (w.targeted = false → (t.chs[ch]).tsv.sweepPos = ((s.chs[ch]).tsv.sweepPos + 1) % (16 * s.glb.variant.layers) ∧
        (t.chs[ch]).tsv.sweeps = (if (s.chs[ch]).tsv.sweepPos + 1 = 16 * s.glb.variant.layers then (s.chs[ch]).tsv.sweeps + 1
          else (s.chs[ch]).tsv.sweeps)) ∧
      (w.targeted = true → ∀ layer p rest, (s.chs[ch]).tsv.targeted = (layer, p) :: rest →
        (t.chs[ch]).tsv.targeted = (if p = 15 then rest else (layer, p + 1) :: rest))) ∧
    (∀ c cs, w.run < 2 → s.walkCompare ch (c :: cs) = s.modTsv ch (fun t => { t with
      walk := some { w with run := w.run + 1, tlw := none, tlr := none, misses := addMisses w.misses (c :: cs) } }))) ∧
  (∀ (s : State) (ch : Fin 64) (misses : List WalkMiss), (∀ m ∈ misses, m.runs < 2) → (s.chs[ch]).tsv.hold = none →
    s.walkOutcome ch misses = s.modTsv ch (fun t => { t with transients := satAdd t.transients (countIf misses (fun m => m.runs == 1)) }))

/-- Dead connections take spares, erase symbols or take the channel offline; status reads and sweeps act. -/
def Obligations.RowPathFailuresAreHandled : Prop :=
  Part.DeadConnectionsAreHandled ∧ Part.StatusReadsAct ∧ Part.SweepsAct

/-- Retrains (R56-R58): drift beyond the limit, up or down (the model's choice, log entry 101), asks for one at most once in 2^20 strobes, 2^30 strobes force one, one channel of a
District is held at a time, row transfers that have gone out cross before the hold, a full one holds the layers in self-refresh; a hold
ends after its length, and the end of a full retrain takes the next epoch and the new baseline. -/
def Sys2Proof.Part.RetrainsRun : Prop :=
  (∀ (s : State) (ch : Fin 64) (a : AgeCounts), (s.chs[ch]).tsv.offline = false → (s.chs[ch]).tsv.autoRetrain = true →
    let t := (s.chs[ch]).tsv
    let now : W32 := at32 16 a.stress.toNat ||| at32 0 a.ref.toNat
    let u := s.modTsv ch (fun t => { t with ageNow := now })
    (driftExceeds t.ageBase now t.driftLimit = false → exec (.driftCheck ch a) s = .next u) ∧
    (driftExceeds t.ageBase now t.driftLimit = true → (∀ k, t.lastDrift = some k → k + 1048576 ≤ s.strobe) →
      exec (.driftCheck ch a) s = .next (u.modTsv ch (fun t => { t with
        retrainDue := some (t.retrainDue.getD .incremental), lastDrift := some s.strobe }))) ∧
    (driftExceeds t.ageBase now t.driftLimit = true → (∃ k, t.lastDrift = some k ∧ s.strobe < k + 1048576) →
      exec (.driftCheck ch a) s = .next (u.log (evTsvDrift ch.val) (detail ch.val t.deadLast.toNat) acSequencer))) ∧
  (∀ (s : State) (ch : Fin 64), (s.chs[ch]).tsv.offline = false → 1073741824 ≤ (s.chs[ch]).tsv.sinceTrain →
    exec (.strobeLimitReached ch) s = .next (s.modTsv ch (fun t => { t with retrainDue := some (t.retrainDue.getD .incremental) }))) ∧
  (∀ (s : State) (ch : Fin 64) (k : RetrainKind), (s.chs[ch]).tsv.retrainDue = some k → (s.chs[ch]).ctl.state = .run →
    (s.chs[ch]).ctl.recovery = false → (s.chs[ch]).ctl.fill = false →
    ((∃ n : Fin 64, n ≠ ch ∧ distOf n = distOf ch ∧ (s.chs[n]).tsv.hold ≠ none) → exec (.retrainHoldStart ch) s = .next s) ∧
    ((∀ n : Fin 64, n ≠ ch → distOf n = distOf ch → (s.chs[n]).tsv.hold = none) → ∃ t : State,
      exec (.retrainHoldStart ch) s = .next t ∧ (t.chs[ch]).ctl.state = .hold ∧ (t.chs[ch]).tsv.retrainDue = none ∧
      (∃ h : Hold, (t.chs[ch]).tsv.hold = some h ∧ h.kind = k ∧ s.strobe ≤ h.start ∧
        (∀ x ∈ (s.chs[ch]).ctl.issued, x.moves = true → x.slot < h.start)) ∧
      (∀ x ∈ (t.chs[ch]).ctl.chosen, k = .incremental ∧ isRef x = true) ∧ (t.chs[ch]).ctl.wq = (s.chs[ch]).ctl.wq ∧
      (t.chs[ch]).ctl.rq.map (fun q => q.req) = (s.chs[ch]).ctl.rq.map (fun q => q.req) ∧
      (t.chs[ch]).ctl.waiting = (s.chs[ch]).ctl.waiting ∧ (t.chs[ch]).ctl.issued = (s.chs[ch]).ctl.issued ∧
      (k = .full → ∀ l, l < s.glb.variant.layers → ((s.chs[ch]).ctl.layer l).lockout = false →
        ((t.chs[ch]).ctl.layer l).selfRefresh = true) ∧
      (∀ n : Fin 64, n ≠ ch → t.chs[n] = s.chs[n]) ∧ t.dram = s.dram ∧ t.kerbs = s.kerbs)) ∧
  (∀ (s : State) (ch : Fin 64) (failed : Bool) (found : List Conn) (age : AgeCounts),
    ((s.chs[ch]).tsv.hold = none ∨ ∃ h, (s.chs[ch]).tsv.hold = some h ∧
      s.strobe < h.start + (match h.kind with | .incremental => 64 | .full => 1024) * s.glb.variant.layers) →
    exec (.retrainHoldEnd ch failed found age) s = .next s) ∧
  (∀ (s : State) (ch : Fin 64) (h : Hold) (age : AgeCounts), (s.chs[ch]).tsv.hold = some h →
    h.start + (match h.kind with | .incremental => 64 | .full => 1024) * s.glb.variant.layers ≤ s.strobe → (s.chs[ch]).tsv.deferred = [] →
    (s.chs[ch]).ctl.state = .hold → (s.chs[ch]).ctl.recovery = false → (s.chs[ch]).ctl.fill = false →
    (s.chs[ch]).ctl.waiting = [] → (∀ w ∈ s.cmd.waits, w.kind ≠ .retrain ch true) → ∃ t : State,
      exec (.retrainHoldEnd ch false [] age) s = .next t ∧ (t.chs[ch]).tsv.hold = none ∧ (t.chs[ch]).tsv.sinceTrain = 0 ∧
      (t.chs[ch]).ctl.state = .run ∧ (t.chs[ch]).tsv.ageNow = at32 16 age.stress.toNat ||| at32 0 age.ref.toNat ∧
      (h.kind = .full → (t.chs[ch]).tsv.ageBase = at32 16 age.stress.toNat ||| at32 0 age.ref.toNat ∧
        (t.chs[ch]).ctl.epoch = (s.chs[ch]).ctl.epoch + 1 ∧ (t.chs[ch]).ctl.rowFrom = s.strobe + 64) ∧
      (h.kind = .incremental → (t.chs[ch]).tsv.ageBase = (s.chs[ch]).tsv.ageBase ∧ (t.chs[ch]).ctl.epoch = (s.chs[ch]).ctl.epoch))

/-- Injections and sweeps that a register write arms, and RBT_COMMIT; each changes that one field (R62, R91, R120, R154, R211). -/
def Sys2Proof.Part.InjectionsAreArmed : Prop :=
  ∀ (s : State) (p : Sys2Proof.Path) (m : MasterId) (ch : Fin 64),
    (Writable s p m (offChs ch 0x008) →
      exec (.tsvParityInject p m ch) s = .next (s.modTsv ch (fun t => { t with injParity := true })) ∧
      exec (.tsvWalkSweep p m ch) s = .next (s.modTsv ch (fun t => { t with
        sweepPos := 0, walkDue := true, walkRevs := 0, sweepForced := true, walk := t.walk.filter (fun w => w.targeted) })) ∧
      ((s.chs[ch]).tsv.offline = false → exec (.tsvRetrainInc p m ch) s = .next (s.modTsv ch (fun t => { t with
        retrainDue := some (if t.retrainDue = some .full then .full else .incremental) })))) ∧
    (Writable s p m (offChs ch 0x434) →
      exec (.caUncorrInject p m ch) s = .next (s.modCtl ch (fun c => { c with injUncorr := true })) ∧
      exec (.caCorrInject p m ch) s = .next (s.modCtl ch (fun c => { c with injCorr := true }))) ∧
    (Writable s p m (offChs ch 0x838) → ∀ v : W32, let n := fieldN v 0 3
      ((n = 0 ∨ 5 < n) → exec (.eccInject p m ch v) s = .next s) ∧
      (1 ≤ n → n ≤ 5 → v.getLsbD 3 = false → exec (.eccInject p m ch v) s = .next (s.modEcc ch (fun e => { e with injReq := n }))) ∧
      (1 ≤ n → n ≤ 5 → v.getLsbD 3 = true → exec (.eccInject p m ch v) s = .next (s.modEcc ch (fun e => { e with injScrub := n })))) ∧
    (Writable s p m (offChs ch 0xC1C) →
      exec (.ctrTagInject p m ch) s = .next (s.modCry ch (fun c => { c with injCtr := true })) ∧
      exec (.dataTagInject p m ch) s = .next (s.modCry ch (fun c => { c with injData := true }))) ∧
    (Writable s p m (offChs ch 0x1404) →
      (isCore p m = true → exec (.rbtCommit p m ch) s = .next (s.modRbt ch (fun r => { r with commit := true }))) ∧
      (isCore p m = false → exec (.rbtCommit p m ch) s = .next s))

/-- Retrains run as R56-R58 say, and each injection arms its own field. -/
def Obligations.RetrainsAndInjections : Prop :=
  Part.RetrainsRun ∧ Part.InjectionsAreArmed

/-- The initial fill (R64, R101): a write of ADDR_MAP with LOCK keeps the order and locks it; INIT holds the channel, and transfers chosen for
its requests are chosen again after the fill; at the end every line of the channel reads zero, its remap entries hold zero lines, INIT_DONE is
set and the channel returns to RUN, and no other channel's content changes. That INIT on a channel that is offline, or whose District is not
ON, has no effect is the model's choice (log entry 88). -/
def Sys2Proof.Part.MapLockAndInitialFill : Prop :=
  (∀ (s : State) (p : Sys2Proof.Path) (m : MasterId) (order : BitVec 2), Writable s p m 0x100 →
    (s.glb.mapLock = false → exec (.addrMapLock p m order) s = .next
      { s with glb := { s.glb with mapOrder := order, mapLock := isCore p m } }) ∧
    (s.glb.mapLock = true → exec (.addrMapLock p m order) s = .next s)) ∧
  (∀ (s : State) (p : Sys2Proof.Path) (m : MasterId) (ch : Fin 64), Writable s p m (offChs ch 0x804) →
    ((s.chs[ch]).tsv.offline = true ∨ s.distOn (distOf ch) = false → exec (.initialFillStart p m ch) s = .next s) ∧
    ((s.chs[ch]).tsv.offline = false → s.distOn (distOf ch) = true → exec (.initialFillStart p m ch) s = .next
      ((s.modCh ch (fun c => c.cancelAll s.glb.variant.layers (fun x => !isRef x))).modCtl ch (fun c =>
        { c with fill := true, state := if c.state = .run then .hold else c.state })))) ∧
  (∀ (s : State) (ch : Fin 64), (s.chs[ch]).ctl.fill = false → exec (.initialFillEnd ch) s = .next s) ∧
  (∀ (s : State) (ch : Fin 64), (s.chs[ch]).ctl.fill = true → ∀ u,
    u = ((s.eraseChannel ch).modEcc ch (fun e => { e with
          initDone := true, remap := e.remap.map (fun kv => (kv.1, { kv.2 with content := some 0 })) })).modCtl ch (fun c => { c with
      fill := false, rc := [], wq := [], log := [], issued := c.issued.filter (fun x => !isWm x),
      state := if c.state = .hold ∧ c.recovery = false ∧ (s.chs[ch]).tsv.hold = none then .run else c.state }) →
    exec (.initialFillEnd ch) s = .next (u.drainWaiting ch) ∧
    (Memory.wf s.dram = true → ∀ key, key < 67108864 → u.dramLine ch.val key = 0) ∧
    (Memory.wf s.dram = true → ∀ (c : Fin 64) (key : Nat), c ≠ ch → key < 67108864 → u.dramLine c.val key = s.dramLine c.val key))

/-- The scrubber's function (R102, R106, R361, R362): it enters ON with a new generation; reads fall due once a revolution, ROWS_PER_REV of
them, in a channel in RUN; it enters OFF once no scrub read and no rewrite is outstanding; elsewhere each leaves the state as it is. -/
def Sys2Proof.Part.ScrubberFunction : Prop :=
  (∀ s : State, s.scrub.fn.st = .starting → exec .scrubberStartingEnd s = .next
    { s with scrub := { s.scrub with fn := { s.scrub.fn with st := .on }, gen := s.scrub.gen + 1 } }) ∧
  (∀ s : State, s.scrub.fn.st ≠ .starting → exec .scrubberStartingEnd s = .next s) ∧
  (∀ s : State, s.scrub.fn.st = .stopping →
    (∀ n : Fin 64, (s.chs[n]).ecc.reads = [] ∧ (∀ w ∈ (s.chs[n]).ctl.wq, w.rewrite = false) ∧
      (∀ w ∈ (s.chs[n]).ctl.wqWait, w.wline.rewrite = false)) →
    exec .scrubberStopped s = .next { s with scrub := { s.scrub with fn := { s.scrub.fn with st := .off } } }) ∧
  (∀ s : State, (s.scrub.fn.st ≠ .stopping ∨ ∃ n : Fin 64, (s.chs[n]).ecc.reads ≠ [] ∨ (∃ w ∈ (s.chs[n]).ctl.wq, w.rewrite = true) ∨
      (∃ w ∈ (s.chs[n]).ctl.wqWait, w.wline.rewrite = true)) → exec .scrubberStopped s = .next s) ∧
  (∀ (s : State) (ch : Fin 64),
    (s.scrub.fn.st = .on → (s.chs[ch]).ctl.state = .run → (s.chs[ch]).ecc.dueRev ≤ s.strobe / 256 → exec (.scrubReadDue ch) s = .next
      (s.modEcc ch (fun e => { e with due := e.due + (e.cfg.extractLsb' 24 4).toNat, dueRev := s.strobe / 256 + 1 }))) ∧
    ((s.scrub.fn.st ≠ .on ∨ (s.chs[ch]).ctl.state ≠ .run ∨ s.strobe / 256 < (s.chs[ch]).ecc.dueRev) →
      exec (.scrubReadDue ch) s = .next s))

/-- A scrubbed row (R86, R87, R103-R105): the row of the scrub RA whose data strobe is the present one is checked for parity and its lines are
handled in the order 0 to 15; an undriven strobe is discarded, the row is read again first, and recovery starts. The action on a line by its
decode is R103's: a line that the write queue held before the RA is left to it, and a rewrite is dropped where a write entered the slice since
the RA. -/
def Sys2Proof.Part.ScrubRowsAreHandled : Prop :=
  (∀ (s : State) (ch : Fin 64) (wrong : BitVec 10240) (par : BitVec 20) (mid : BitVec 14),
    (s.chs[ch]).ctl.crossing s.strobe isScrubRa = none → exec (.scrubRowResult ch wrong par mid) s = .next s) ∧
  (∀ (s : State) (ch : Fin 64) (wrong : BitVec 10240) (par : BitVec 20) (mid : BitVec 14) (x : SlotCmd) (row : Nat) (b : Bool),
    (s.chs[ch]).ctl.crossing s.strobe isScrubRa = some x → x.cmd = .ra row b →
    let layer := (rowOfKey row).layer
    let undriven := ((s.chs[ch]).ctl.layer layer).lockout = true ∨ 1024 < mid.toNat
    let u := s.crossed ch x
    (undriven → exec (.scrubRowResult ch wrong par mid) s = .next ((u.modEcc ch (fun e => { e with
      again := e.again ++ e.reads.filter (fun r => r.row == row), reads := e.reads.filter (fun r => r.row != row) })).startRecovery ch)) ∧
    (¬undriven → ∀ v w, (u.modEcc ch (fun e => { e with reads := e.reads.filter (fun r => r.row ≠ row) })).crossRead ch layer wrong par = (v, w) →
      ((v.chs[ch]).tsv.offline = true → exec (.scrubRowResult ch wrong par mid) s = .next v) ∧
      ((v.chs[ch]).tsv.offline = false → x.inj = 0 → ∀ ra, (s.chs[ch]).ecc.reads.find? (fun r => r.row = row) = some ra →
        exec (.scrubRowResult ch wrong par mid) s = .next ((List.range 16).foldl (fun (t : State) i =>
          t.scrubLine ch (row * 16 + i) (t.decodeAt ch (row * 16 + i) (w.extractLsb' (640 * i) 640) 0) (ra.written.contains i)
            ((ra.asked.toList ++ (s.chs[ch]).ecc.targeted).contains (row * 16 + i))) v)))) ∧
  (∀ (s : State) (ch : Fin 64) (key : Nat) (x : ScrubAct), s.scrubRewrite ch key x true = (s, false)) ∧
  (∀ (s : State) (ch : Fin 64) (key : Nat) (l : SLine) (asked : Bool), (s.chs[ch]).ctl.queued? key ≠ none →
    (∀ t e, s.scrubLine ch key ((l, .corrected t e), false) false asked = s.noteCorrected ch key t e (s.self agentScrubber) acScrub) ∧
    s.scrubLine ch key ((l, .uncorrectable), false) false asked = s.noteScrubUe ch key false) ∧
  (∀ (c : Channel) (key : Nat) (l : SLine), c.scrubAct key l .clean = none) ∧
  (∀ (c : Channel) (key : Nat) (l : SLine) (t e : Nat),
    ((c.ecc.fixAt = 0 ∨ t < c.ecc.fixAt) → c.scrubAct key l (.corrected t e) = none) ∧
    (c.ecc.fixAt ≠ 0 → c.ecc.fixAt ≤ t → ∃ x, c.scrubAct key l (.corrected t e) = some x ∧ x.line = refresh l ∧ x.poison = false ∧
      (x.insert = true ↔ c.ecc.remapMode = 2 ∧ c.ecc.remapAt ≤ t))) ∧
  (∀ (c : Channel) (key : Nat) (l : SLine),
    (c.ctl.cachedGood key = none → ∃ x, c.scrubAct key l .uncorrectable = some x ∧ x.line = poisonLine ∧ x.poison = true ∧
      (x.insert = true ↔ c.ecc.remapMode ≠ 0)) ∧
    (∀ g, c.ctl.cachedGood key = some g → ∃ x, c.scrubAct key l .uncorrectable = some x ∧ x.line = refresh g ∧ x.poison = false))

/-- The initial fill zeroes its channel only; the scrubber reads and repairs rows. -/
def Obligations.FillAndScrub : Prop :=
  Part.MapLockAndInitialFill ∧ Part.ScrubberFunction ∧ Part.ScrubRowsAreHandled

/-- The walker (R58, R141, R142, R143): the oldest walk fetches its highest missing line, once the channel that holds it is not held; a failed
fetch ends every walk that needs the line with its outcome, the level-1 line ends it well, and others go on; with no walk it fetches ahead
(R154); dirty lines above DIRTY_LIMIT go back, oldest first. -/
def Obligations.WalkerFetchesAndWritesBack : Prop :=
  (∀ s : State, s.sec.walks = [] → s.sec.ahead = [] → exec .counterWalkFetch s = .next s) ∧
  (∀ (s : State) (i : Nat) (rest : List Nat), s.sec.walks = [] → s.sec.ahead = i :: rest →
    (s.highestMissing 8 1 i = none → exec .counterWalkFetch s = .next { s with sec := { s.sec with ahead := rest } }) ∧
    (∀ k x, s.highestMissing 8 1 i = some (k, x) →
      (s.heldAt (s.ctrAt k x) = true → exec .counterWalkFetch s = .next s) ∧
      (s.heldAt (s.ctrAt k x) = false → ∀ (u : State) (st : CStatus), s.fetchCtr k x = (u, st) →
        (st ≠ .ok ∨ k = 1 → exec .counterWalkFetch s = .next { u with sec := { u.sec with ahead := rest } }) ∧
        (st = .ok → k ≠ 1 → exec .counterWalkFetch s = .next u)))) ∧
  (∀ (s : State) (w : Walk) (rest : List Walk), s.sec.walks = w :: rest →
    (s.highestMissing 8 1 w.idx = none → exec .counterWalkFetch s = .next (s.endWalk w .ok)) ∧
    (∀ k i, s.highestMissing 8 1 w.idx = some (k, i) →
      (s.heldAt (s.ctrAt k i) = true → exec .counterWalkFetch s = .next s) ∧
      (s.heldAt (s.ctrAt k i) = false → ∀ (u : State) (st : CStatus), s.fetchCtr k i = (u, st) →
        (st ≠ .ok → exec .counterWalkFetch s = .next
          ((u.sec.walks.filter (fun x => x.idx / 8 ^ (k - 1) = i)).foldl (fun t x => t.endWalk x st) u)) ∧
        (st = .ok → k = 1 → exec .counterWalkFetch s = .next (u.endWalk w .ok)) ∧
        (st = .ok → k ≠ 1 → exec .counterWalkFetch s = .next u)))) ∧
  (∀ s : State, s.sec.dirty.length ≤ s.sec.ctrCfg.toNat → s.sec.cache.length ≤ 262144 → exec .counterWriteBack s = .next s) ∧
  (∀ s : State, (s.sec.ctrCfg.toNat < s.sec.dirty.length ∨ 262144 < s.sec.cache.length) →
    (s.sec.dirty.find? s.canWriteBack = none → exec .counterWriteBack s = .next s) ∧
    (∀ k, s.sec.dirty.find? s.canWriteBack = some k → exec .counterWriteBack s = .next ((s.writeBack k).evictCtr k))) ∧
  (∀ (s : State) (key k i : Nat) (c : CtrLine), ctrOfAddr s.glb.variant s.sec.capCode (key * 64) = some (k, i) →
    smGet? s.sec.cache key = some c → c.sealHeld = false → (s.chs[(s.decodeAddr (key * 64)).ch]).tsv.offline = false →
    s.distPowered (distOf (s.decodeAddr (key * 64)).ch) = true →
    (s.writeBack key).sec.dirty = (s.bumpParent k i).1.sec.dirty.erase key ∧
    (k = s.levels → smGetD (s.writeBack key).sec.roots i 0 = smGetD s.sec.roots i 0 + 1))

/-- The retirement service acts on its oldest reason (R113-R116): none while the action is 0, the page is retired or
the page and reason have been acted on; a record for an
invalid page, for action 1, for an offline channel, or with no reserve page; else it begins the migration. -/
def Sys2Proof.Part.RetirementReasonsAct : Prop :=
  ∀ (s : State),
    (s.retire.reasons = [] → exec .retirementReason s = .next s) ∧
    ((s.boot.phase ≠ .ready ∨ s.dieUp = false ∨ s.retire.migrating ≠ none ∨ 1024 ≤ s.retire.records.length) →
      exec .retirementReason s = .next s) ∧
    (∀ page reason rest, s.retire.reasons = (page, reason) :: rest → s.boot.phase = .ready → s.dieUp = true →
      s.retire.migrating = none → s.retire.records.length < 1024 →
      let e := s.patRaw page
      let ch := (s.decodeAddr (page * 131072)).ch
      let post := fun (nr : Bool) => { s with retire := { s.retire with
        reasons := rest, records := s.retire.records ++ [retireRecord false nr reason 0 page], acted := (page, reason) :: s.retire.acted } }
      ((s.retire.action = 0 ∨ peRetired e = true ∨ (page, reason) ∈ s.retire.acted) → exec .retirementReason s = .next
        { s with retire := { s.retire with reasons := rest, acted := (page, reason) :: s.retire.acted } }) ∧
      (s.retire.action ≠ 0 → peRetired e = false → (page, reason) ∉ s.retire.acted → peValid e = false →
        ((s.retire.action = 2 ∧ page ∈ s.retire.reserve) → exec .retirementReason s = .next ((post false).setRetired page)) ∧
        (¬(s.retire.action = 2 ∧ page ∈ s.retire.reserve) → exec .retirementReason s = .next (post false))) ∧
      (s.retire.action ≠ 0 → peRetired e = false → (page, reason) ∉ s.retire.acted → peValid e = true →
        ((s.retire.action = 1 ∨ (s.chs[ch]).tsv.offline = true) → exec .retirementReason s = .next (post false)) ∧
        (s.retire.action ≠ 1 → (s.chs[ch]).tsv.offline = false →
          (s.freeReserve = none → exec .retirementReason s = .next (post true)) ∧
          (∀ dst, s.freeReserve = some dst →
            (s.engs.eng[ch].fn.st = .on → exec .retirementReason s = .next
              (({ s with retire := { s.retire with reasons := rest } }).beginMigration page reason dst)) ∧
            (s.engs.eng[ch].fn.st ≠ .on → exec .retirementReason s = .next s)))))

/-- A migration (R115, R514): RO at the source and the source's entry, not yet VALID, at the reserve page; the COPY once no request
looks either page up and its engine has room; at its end the reserve page is made VALID and the source RETIRED, or all is undone; a restart undoes one that was cut short. -/
def Sys2Proof.Part.MigrationCopiesThePage : Prop :=
  (∀ (s : State) (page : Nat), (s.retire.migrating = none ∨ (∃ x, s.retire.migrating = some x ∧ x.1 ≠ page) ∨ s.boot.phase ≠ .ready ∨ s.dieUp = false) →
    exec (.pageMigrate page) s = .next s) ∧
  (∀ (s : State) (src dst reason : Nat) (ro : Bool), s.retire.migrating = some (src, dst, reason, ro) → s.boot.phase = .ready → s.dieUp = true →
    let ch := (s.decodeAddr (src * 131072)).ch
    (s.migrateJob = none → s.lookups (fun q _ => q == src || q == dst) = [] → s.engRoom (BitVec.twoPow 64 ch.val) = true → exec (.pageMigrate src) s = .next
      (s.dispatch none 0 (migrateDesc ch.val src (s.fab.nodeId.toNat * 1099511627776 + dst * 131072)) 0 (BitVec.twoPow 64 ch.val) 15
        (some (s.self agentCC0)))) ∧
    (s.migrateJob = none → (s.lookups (fun q _ => q == src || q == dst) ≠ [] ∨ s.engRoom (BitVec.twoPow 64 ch.val) = false) →
      exec (.pageMigrate src) s = .next s) ∧
    (∀ j, s.migrateJob = some j →
      (j.ended = false → exec (.pageMigrate src) s = .next s) ∧
      (j.ended = true → (∀ p ∈ j.parts, p.failed = false) → exec (.pageMigrate src) s = .next ((s.dropJob j.id).endMigration src dst reason ro)) ∧
      (j.ended = true → (∃ p ∈ j.parts, p.failed = true) →
        let u := (s.dropJob j.id).undoMigration src dst ro (j.parts.any (fun p => p.refused))
        exec (.pageMigrate src) s = .next { u with retire := u.retire.post (retireRecord false false reason 0 src) src reason }))) ∧
  (∀ (s : State) (src dst reason : Nat) (ro : Bool), s.retire.migrating = some (src, dst, reason, ro) → s.migrateJob = none →
    s.boot.phase = .starting → exec .retirementRestart s = .next
      (let u := s.undoMigration src dst ro false
       { u with retire := { u.retire with reasons := (src, reason) :: u.retire.reasons } })) ∧
  (∀ s : State, (s.retire.migrating = none ∨ s.migrateJob ≠ none ∨ s.boot.phase ≠ .starting) → exec .retirementRestart s = .next s) ∧
  (∀ (s : State) (page reason dst : Nat), smWf s.sec.pat = true → page ≠ dst →
    let u := s.beginMigration page reason dst
    u.patRaw page = s.patRaw page ||| 0x08000000 ∧ u.patRaw dst = s.patRaw page &&& 0x77FFFFFF ∧
    u.retire.migrating = some (page, dst, reason, peRo (s.patRaw page)) ∧ dst ∉ u.retire.reserve ∧
    (∀ q, q ≠ page → q ≠ dst → u.patRaw q = s.patRaw q)) ∧
  (∀ (s : State) (page dst : Nat) (ro : Bool), smWf s.sec.pat = true → page ≠ dst →
    let u := s.undoMigration page dst ro false
    u.patRaw dst = s.patRaw dst &&& 0x04000000 ∧ u.patRaw page = (if ro then s.patRaw page else s.patRaw page &&& 0xF7FFFFFF) ∧ u.retire.migrating = none ∧
    u.retire.reserve = (if peRetired (s.patRaw dst) then s.retire.reserve else dst :: s.retire.reserve) ∧ (∀ q, q ≠ page → q ≠ dst → u.patRaw q = s.patRaw q))

/-- The retirement service acts on its oldest reason, migrates pages or undoes the migration. -/
def Obligations.RetirementAndMigration : Prop :=
  Part.RetirementReasonsAct ∧ Part.MigrationCopiesThePage

/-- The conservation check (R250, R251): START begins one unless one runs; at the end DONE sets with ABORTED, or with the failing checks and
PASS where there is none; the lowest failing bit is logged as CONS_FAIL; nothing else changes. -/
def Obligations.ConservationCheckRuns : Prop :=
  (∀ (s : State) (p : Sys2Proof.Path) (m : MasterId), Writable s p m 0x11C →
    (s.glb.cons.running = false → exec (.consCheckStart p m) s = .next { s with glb := { s.glb with cons := { running := true } } }) ∧
    (s.glb.cons.running = true → exec (.consCheckStart p m) s = .next s)) ∧
  (∀ s : State, s.glb.cons.running = false → exec .consCheckEnd s = .next s) ∧
  (∀ s : State, s.glb.cons.running = true → s.glb.cons.aborted = true →
    exec .consCheckEnd s = .next { s with glb := { s.glb with cons := { done := true, aborted := true } } }) ∧
  (∀ s : State, s.glb.cons.running = true → s.glb.cons.aborted = false →
    let r := s.consFails
    let u := { s with glb := { s.glb with cons := { done := true, pass := r == 0, fail := r } } }
    (r = 0 → exec .consCheckEnd s = .next u) ∧
    (∀ i, i < 12 → r.getLsbD i = true → (∀ k, k < i → r.getLsbD k = false) →
      exec .consCheckEnd s = .next (u.log evConsFail (detail 0 i) acNone))) ∧
  (∀ s : State,
    (s.consFails.getLsbD 0 = true ↔ ∃ n : Fin 64, s.distOn (distOf n) = true ∧ (s.chs[n]).ctl.rqLevel ≠ 0) ∧
    (s.consFails.getLsbD 1 = true ↔ ∃ n : Fin 64, s.distOn (distOf n) = true ∧ ∃ r ∈ (s.chs[n]).ctl.rc, r.held = true ∨ r.pins ≠ 0) ∧
    (s.consFails.getLsbD 2 = true ↔ ∃ n : Fin 64, s.distOn (distOf n) = true ∧ 128 < (s.chs[n]).ctl.wq.length) ∧
    (s.consFails.getLsbD 3 = true ↔ ∃ k : Fin 8, s.distOn k = true ∧ s.hopEmpty (.sw k) = false) ∧
    (s.consFails.getLsbD 4 = true ↔ s.hopEmpty .plaza = false) ∧
    (s.consFails.getLsbD 5 = true ↔ ∃ k ∈ s.kerbs.toList, ∃ c ∈ k.cls.toList, c.queue ≠ []) ∧
    (s.consFails.getLsbD 6 = true ↔ s.credits ≠ {}) ∧
    (s.consFails.getLsbD 7 = true ↔ ∃ p ∈ s.mports.toList, p.outst ≠ []) ∧
    (s.consFails.getLsbD 8 = true ↔ ∃ p ∈ s.mports.toList, p.outst ≠ []) ∧
    (s.consFails.getLsbD 9 = true ↔ ∃ n : Fin 64, s.distOn (distOf n) = true ∧ ((s.chs[n]).rbt).identity s.strobe = false) ∧
    (s.consFails.getLsbD 10 = true ↔ ∃ kv ∈ s.cmd.queues, kv.2.head ≠ kv.2.done) ∧
    (s.consFails.getLsbD 11 = true ↔ s.sec.walks ≠ []))

/-- A received flit (R274-R278): discarded where the link does not run; counted where its CRC fails or its TYPE is reserved, with NAK
set for the CRC; a CTRL flit's link word applies; a MSG flit's messages are taken only at the expected SEQ, which then advances. -/
def Sys2Proof.Part.FlitsAreReceived : Prop :=
  (∀ (s : State) (l : SubLink) (f : BitVec 2048),
    ((s.subAt l).ll = .down ∨ (s.subAt l).lstate ≠ .active → exec (.flitReceive l f) s = .next s) ∧
    ((s.subAt l).ll ≠ .down → (s.subAt l).lstate = .active →
      (crc64 (toBytes f 248) ≠ f.extractLsb' 1984 64 → exec (.flitReceive l f) s = .next
        ((s.modSub l (fun u => { u with crcErr := satAdd u.crcErr 1, nakTx := true })).sendCtrl l)) ∧
      (crc64 (toBytes f 248) = f.extractLsb' 1984 64 →
        (3 ≤ (f.extractLsb' 12 4).toNat → exec (.flitReceive l f) s = .next (s.modSub l (fun u => { u with crcErr := satAdd u.crcErr 1 }))) ∧
        ((f.extractLsb' 12 4).toNat ≤ 1 → (s.subAt l).ll = .init → exec (.flitReceive l f) s = .next s) ∧
        ((f.extractLsb' 12 4).toNat = 0 → (s.subAt l).ll ≠ .init → exec (.flitReceive l f) s = .next ((s.applyLink l (fLink f)).pumpAll l)) ∧
        ((f.extractLsb' 12 4).toNat = 1 → (s.subAt l).ll ≠ .init →
          exec (.flitReceive l f) s = .next (((s.applyLink l (fLink f)).takeMsgFlit l f).pumpAll l)) ∧
        ((f.extractLsb' 12 4).toNat = 2 → exec (.flitReceive l f) s = .next (s.takeInit l f))))) ∧
  (∀ (s : State) (l : SubLink) (f : BitVec 2048),
    (f.extractLsb' 0 12 ≠ (s.subAt l).rxSeq → s.takeMsgFlit l f = s) ∧
    (f.extractLsb' 0 12 = (s.subAt l).rxSeq →
      let xs := (s.subAt l).partialRx ++ (List.range 15).map (fSlot f)
      (reservedIn 128 xs = true → s.takeMsgFlit l f = s.crcFail l) ∧
      (reservedIn 128 xs = false → s.takeMsgFlit l f =
        (((s.modSub l (fun u => { u with rxSeq := u.rxSeq + 1, rxAny := true, nakTx := false })).takeMsgs 128 l xs).sendCtrl l))))

/-- Acknowledgement, credits and initialisation (R278, R280, R282): ACK_SEQ frees the flits that it covers, oldest first; returned
credits are the difference of the counts modulo 256; the end of a link that has seen INIT from a partner that saw its own enters RUN. -/
def Sys2Proof.Part.LinkWordsAndInitFlitsApply : Prop :=
  (∀ (u : Sub) (a : BitVec 12),
    ((∀ x ∈ u.replayBuf, x.seq ≠ a) → u.applyAck a = { u with acked := a }) ∧
    (∀ (x : TxFlit) (pre post : List TxFlit), u.replayBuf = pre ++ x :: post → x.seq = a → (∀ y ∈ pre, y.seq ≠ a) →
      (u.applyAck a).replayBuf = post ∧ (u.applyAck a).acked = a ∧ (u.applyAck a).nextSeq = u.nextSeq ∧ (u.applyAck a).vc = u.vc)) ∧
  (∀ (v : Vc) (r : BitVec 8), (v.applyRet r).held - v.held = (v.applyRet r).rseen - v.rseen ∧
    ((v.applyRet r).held - v.held).toNat = (r.toNat + 256 - v.rseen.toNat % 256) % 256 ∧
    (v.applyRet r).rseen.setWidth 8 = r ∧ (v.applyRet r).init = v.init ∧ (v.applyRet r).sent = v.sent) ∧
  (∀ (v : Vc), v.giveBack.issued - v.issued = v.pend - v.giveBack.pend ∧ (v.giveBack.issued - v.issued).toNat = min 255 v.pend.toNat ∧
    v.giveBack.occ = v.occ ∧ v.giveBack.rcvd = v.rcvd ∧ v.giveBack.held = v.held) ∧
  (∀ (s : State) (l : SubLink) (f : BitVec 2048), (s.subAt l).ll ≠ .init →
    exec (.initFlit l f) s = .next s ∧ s.takeInit l f = s) ∧
  (∀ (s : State) (l : SubLink) (f : BitVec 2048), (s.subAt l).ll = .init →
    (crc64 (toBytes f 248) ≠ f.extractLsb' 1984 64 → exec (.initFlit l f) s = .next (s.crcFail l)) ∧
    (crc64 (toBytes f 248) = f.extractLsb' 1984 64 → (f.extractLsb' 12 4).toNat ≠ 2 → exec (.initFlit l f) s = .next s) ∧
    (crc64 (toBytes f 248) = f.extractLsb' 1984 64 → (f.extractLsb' 12 4).toNat = 2 →
      ∃ u : State, exec (.initFlit l f) s = .next u ∧ (u.subAt l).peerSeen = true ∧
        ((u.subAt l).peerSaw = ((s.subAt l).peerSaw || (fSlot f 0).getLsbD 20)) ∧
        ((u.subAt l).ll = .run ↔ (u.subAt l).peerSaw = true) ∧
        (∀ v : Fin 4, (u.subAt l).vc[v].held = (fSlot f 0).extractLsb' (32 + 16 * v.val) 16 ∧
          (u.subAt l).vc[v].init = (fSlot f 0).extractLsb' (32 + 16 * v.val) 16)))

/-- Flits are taken at their SEQ only, and acknowledgements free what they cover. -/
def Obligations.FlitsAreReceivedAndAcknowledged : Prop :=
  Part.FlitsAreReceived ∧ Part.LinkWordsAndInitFlitsApply

/-- Replay (R278, R279): every unacknowledged flit is sent again from the oldest, with its SEQ and slots, as one episode that raises the
link epoch and logs LINK_REPLAY; the buffer, the credits and the sequence keep; ACK_TIMEOUT starts one on a link that carries traffic. -/
def Sys2Proof.Part.ReplaySendsAgain : Prop :=
  (∀ (s : State) (l : SubLink), exec (.ackTimeout l) s = .next (if subCarries (s.subAt l) then s.startReplay l else s)) ∧
  (∀ (s : State) (l : SubLink), ((s.subAt l).replayBuf = [] ∨ (s.subAt l).lstate ≠ .active) → s.startReplay l = s) ∧
  (∀ (s : State) (l : SubLink), (s.subAt l).replayBuf ≠ [] → (s.subAt l).lstate = .active →
    let u := s.startReplay l
    u.outbox.drop (u.outbox.length - (s.outbox.length + (s.subAt l).replayBuf.length)) =
      ((s.subAt l).replayBuf.map (fun x => Out.flit l (flitBits 1 x.seq (s.subAt l).linkWord x.slots false))).reverse ++ s.outbox ∧
    (u.subAt l).replayBuf = (s.subAt l).replayBuf ∧ (u.subAt l).nextSeq = (s.subAt l).nextSeq ∧ (u.subAt l).vc = (s.subAt l).vc ∧
    (u.subAt l).replays = satAdd (s.subAt l).replays 1 ∧
    (u.subAt l).replayFlits = satAdd (s.subAt l).replayFlits (s.subAt l).replayBuf.length ∧
    u.chs = s.chs ∧ u.dram = s.dram ∧ u.cmd = s.cmd)

/-- Audits (R283): every 65,536 MSG flits sent make one due, and it goes out in flits of its own at the next message boundary; a received one frees its slots and is checked against this end's counts, and a
failed check counts, is logged for each virtual channel, and starts resynchronisation. -/
def Sys2Proof.Part.AuditsAreSentAndChecked : Prop :=
  (∀ (s : State) (l : SubLink), ((s.subAt l).auditDue = false ∨ (s.subAt l).lstate ≠ .active ∨ subCarries (s.subAt l) = false ∨
      (s.subAt l).rsyncTx = true ∨ 512 ≤ (s.subAt l).replayBuf.length) → exec (.auditSend l) s = .next s) ∧
  (∀ (s : State) (l : SubLink), (s.subAt l).auditDue = true → (s.subAt l).lstate = .active → subCarries (s.subAt l) = true →
    (s.subAt l).rsyncTx = false → (s.subAt l).replayBuf.length < 512 →
    exec (.auditSend l) s = .next (((s.modSub l (fun u => { u with auditDue := false })).sendSlots l
      (msgSlots (s.subAt l).auditMsg)).pumpAll l)) ∧
  (∀ (s : State) (l : SubLink) (x : List (BitVec 128)),
    ((s.sendMsgFlit l x).subAt l).sinceAudit = ((s.subAt l).sinceAudit + 1) % 65536 ∧
    (((s.sendMsgFlit l x).subAt l).auditDue = true ↔ (s.subAt l).auditDue = true ∨ (s.subAt l).sinceAudit = 65535)) ∧
  (∀ (s : State) (l : SubLink) (m : Msg), exec (.audit l m) s = .next ((s.freeRx l m).auditCheck l m)) ∧
  (∀ (s : State) (l : SubLink) (m : Msg), (∀ v : Fin 4, auditFails ((s.subAt l).vc[v]) (advertised v) (auditCounts m v.val) = 0) →
    s.auditCheck l m = s.modSub l (fun u => { u with auditPass := u.auditPass + 1 })) ∧
  (∀ (s : State) (l : SubLink) (m : Msg), (∃ v : Fin 4, auditFails ((s.subAt l).vc[v]) (advertised v) (auditCounts m v.val) ≠ 0) →
    ((s.auditCheck l m).subAt l).auditFail = satAdd (s.subAt l).auditFail 1 ∧ ((s.auditCheck l m).subAt l).rsyncTx = true ∧
    ((s.auditCheck l m).subAt l).auditPass = (s.subAt l).auditPass) ∧
  (∀ (c : Vc) (adv sent rseen held : BitVec 16),
    ((auditFails c adv (sent, rseen, held)).getLsbD 0 = true ↔ sent ≠ c.rcvd) ∧
    ((auditFails c adv (sent, rseen, held)).getLsbD 1 = true ↔ held ≠ adv - sent + rseen) ∧
    ((auditFails c adv (sent, rseen, held)).getLsbD 2 = true ↔ adv.toNat < (c.issued - rseen).toNat) ∧
    ((auditFails c adv (sent, rseen, held)).getLsbD 3 = true ↔ c.occ + c.pend ≠ c.rcvd - c.issued))

/-- Credit resynchronisation and the link-layer injections (R284, R309): RSYNC_DONE once the receive buffers are empty; with both sent and
seen, the credits return to what the partner advertised and every count to 0, and the epoch increments; LL_FORCE arms each injection. -/
def Sys2Proof.Part.ResynchronisationAndInjections : Prop :=
  (∀ (s : State) (l : SubLink), exec (.rsyncDone l) s = .next (s.resyncReady l)) ∧
  (∀ (s : State) (l : SubLink), ((s.subAt l).rsyncTx = false ∨ (s.subAt l).rdoneTx = true ∧ (s.subAt l).rdoneRx = false ∨
      (s.subAt l).rdoneTx = false ∧ ((s.subAt l).rsyncRx = false ∨ (s.subAt l).rx ≠ [])) → s.resyncReady l = s) ∧
  (∀ (s : State) (l : SubLink), (s.subAt l).rsyncTx = true → (s.subAt l).rdoneTx = true → (s.subAt l).rdoneRx = true →
    s.resyncReady l = (((s.modSub l (fun u => { u with
      rsyncTx := false, rdoneTx := false, rdoneRx := false, vc := u.vc.map Vc.restart, ll := u.settled })).bumpLinkEpoch l).sendCtrl l).pumpAll l) ∧
  (∀ v : Vc, v.restart = { init := v.init, held := v.init }) ∧
  (∀ (s : State) (p : Sys2Proof.Path) (m : MasterId) (l : SubLink), Writable s p m (offPort l.port (0x400 + 0x100 * l.sub.val + 0x28)) →
    (isCore p m = false → exec (.auditNow p m l) s = .next s ∧ exec (.creditSkew p m l) s = .next s ∧ exec (.crcInject p m l) s = .next s) ∧
    (isCore p m = true →
      exec (.auditNow p m l) s = .next (s.modSub l (fun u => { u with auditDue := true })) ∧
      exec (.crcInject p m l) s = .next (s.modSub l (fun u => { u with injCrc := true })) ∧
      exec (.creditSkew p m l) s = .next (s.modSub l (fun u => { u with
        vc := vmod u.vc 0 (fun c => { c with held := if c.held = 0 then 0 else c.held - 1 }) }))))

/-- Replay sends every unacknowledged flit again; audits and resynchronisation restore credits. -/
def Obligations.LinksReplayAndAudit : Prop :=
  Part.ReplaySendsAgain ∧ Part.AuditsAreSentAndChecked ∧ Part.ResynchronisationAndInjections

/-- A request message goes on (R221, R244, R293, R294, R296): it waits behind an earlier one of its virtual channel and egress, for room in its
class queue or a free transit entry, or, a FENCE for this node, for the earlier requests of its master; at hop 63 it completes with PATH_DOWN and HOP_LIMIT is logged;
with an egress up it leaves there with its hop count one higher and a transit entry; otherwise it completes with PATH_DOWN, counted in NO_ROUTE. -/
def Sys2Proof.Part.MessagesAreForwarded : Prop :=
  (∀ (s : State) (l : SubLink) (m : Msg), (isReqTy (hTy m.hdr) = false ∨ s.flt.stopped = true ∨ s.mustWait l m = true) →
    exec (.messageForward l m) s = .next s) ∧
  (∀ (s : State) (l : SubLink) (m : Msg),
    (∀ (pre rest : List Msg) (x : Msg), (s.subAt l).rx = pre ++ rest → m ∉ pre → x ∈ pre → vcOf (hTy x.hdr) = vcOf (hTy m.hdr) →
      s.exitOf x = s.exitOf m → s.mustWait l m = true) ∧
    (isReqTy (hTy m.hdr) = true → s.exitOf m = (s.egress m).2) ∧
    ((0x20 ≤ hTy m.hdr ∨ hTy m.hdr = 0x06 ∧ (s.egress m).2 = .here) → 16384 ≤ s.fab.transit.length → s.mustWait l m = true) ∧
    (hTy m.hdr < 0x20 → hTy m.hdr ≠ 0x06 → s.kerbTakes (portLink l.port) (hCls m.hdr) = false → s.mustWait l m = true) ∧
    (∀ (k : SubLink) (x : Msg), hTy m.hdr = 0x06 → (s.egress m).2 = .here → k ∈ allSubs → k ≠ l → x ∈ (s.subAt k).rx → isReqTy (hTy x.hdr) = true →
      hTy x.hdr < 0x20 → hTy x.hdr ≠ 0x06 → hMaster x.hdr = hMaster m.hdr → (s.egress x).2 = .here → s.mustWait l m = true)) ∧
  (∀ (s : State) (l : SubLink) (m : Msg), isReqTy (hTy m.hdr) = true → s.flt.stopped = false → s.mustWait l m = false →
    let u := s.freeRx l m
    (0x20 ≤ hTy m.hdr → (s.egress m).2 = .here → exec (.messageForward l m) s = .next s) ∧
    (0x20 ≤ hTy m.hdr → (s.egress m).2 ≠ .here → (u.egress m).2 ≠ .here →
      exec (.messageForward l m) s = .next ((u.countMgt l.port).forwardMsg l m)) ∧
    (hTy m.hdr < 0x20 → (u.egress m).2 = .here → exec (.messageForward l m) s = .next (u.arriveReq l m)) ∧
    (hTy m.hdr < 0x20 → (u.egress m).2 ≠ .here →
      exec (.messageForward l m) s = .next (u.kerbEnter (portLink l.port) (msgReq l m.hdr [] []) (some m)))) ∧
  (∀ (s : State) (l : SubLink) (m : Msg),
    (hHops m.hdr = 63 → s.forwardMsg l m =
      (s.logAddr evHopLimit (m.hdr.extractLsb' 64 52).toNat acLink (hMaster m.hdr) CStatus.pathDown.code).noRoute.answer l m.hdr .pathDown) ∧
    (hHops m.hdr ≠ 63 → ∀ (t : State) (e : Egress), s.egress m = (t, e) →
      (∀ o, e = .sub o → s.forwardMsg l m = ((t.countFwd [portSpot (portLink o.port)]).addTransit m.hdr (some l) (some o)).sendOn o
        { m with hdr := hWithHops m.hdr (hHops m.hdr + 1) }) ∧
      ((∀ o, e ≠ .sub o) → s.forwardMsg l m = t.noRoute.answer l m.hdr .pathDown))) ∧
  (∀ (h : Hdr), hHops h ≠ 63 → hHops (hWithHops h (hHops h + 1)) = hHops h + 1 ∧ hTy (hWithHops h (hHops h + 1)) = hTy h ∧
    hMaster (hWithHops h (hHops h + 1)) = hMaster h ∧ hTag (hWithHops h (hHops h + 1)) = hTag h)

/-- The route of a request for a node (R293): local, the primary sub-link if up, the alternate if enabled and up (counted in REROUTES),
else none; with no entry, the parent if up. -/
def Sys2Proof.Part.RoutesFollowTheTable : Prop :=
  ∀ (s : State) (d : BitVec 12),
    (d = s.fab.nodeId → s.route d = (s, .here)) ∧
    (d ≠ s.fab.nodeId →
      let e := smGetD s.fab.route d.toNat 0
      (e.getLsbD 63 = true →
        (subUp (s.subAt (rtPrimary e)) = true → s.route d = (s, .sub (rtPrimary e))) ∧
        (subUp (s.subAt (rtPrimary e)) = false → e.getLsbD 62 = true → subUp (s.subAt (rtAlternate e)) = true →
          s.route d = ({ s with fab := { s.fab with reroutes := satAdd s.fab.reroutes 1 } }, .sub (rtAlternate e))) ∧
        (subUp (s.subAt (rtPrimary e)) = false → (e.getLsbD 62 = false ∨ subUp (s.subAt (rtAlternate e)) = false) → s.route d = (s, .down))) ∧
      (e.getLsbD 63 = false →
        (∀ l, s.fab.parent = some l → subUp (s.subAt l) = true → s.route d = (s, .sub l)) ∧
        ((∀ l, s.fab.parent = some l → subUp (s.subAt l) = false) → s.route d = (s, .down))) ∧
      (rtPrimary e).port.val = (e.extractLsb' 50 6).toNat ∧ (rtPrimary e).sub.val = (e.extractLsb' 48 2).toNat ∧
      (rtAlternate e).port.val = (e.extractLsb' 42 6).toNat ∧ (rtAlternate e).sub.val = (e.extractLsb' 40 2).toNat)

/-- Requests leave on the route of their node, or complete with PATH_DOWN. -/
def Obligations.MessagesFollowTheirRoute : Prop :=
  Part.MessagesAreForwarded ∧ Part.RoutesFollowTheTable

/-- Completions retrace (R295), in the order of their virtual channel and exit (R296): out of the ingress of the entry that matches MASTER and TAG, which is freed; one with no entry, or with an
orphaned entry, is late and counted. Answers to management requests take the same way, or end here with the request that asked. -/
def Sys2Proof.Part.CompletionsRetrace : Prop :=
  (∀ (s : State) (l : SubLink) (m : Msg), (isCmpTy (hTy m.hdr) = false ∨ s.outOfTurn l m = true) →
    exec (.completionRetrace l m) s = .next s) ∧
  (∀ (s : State) (l : SubLink) (m : Msg) (t : Transit), isCmpTy (hTy m.hdr) = true → s.transitOf (hMaster m.hdr) (hTag m.hdr) = some t →
    s.exitOf m = (match t.ingress with | some i => .sub i | none => .here)) ∧
  (∀ (s : State) (l : SubLink) (m : Msg), isCmpTy (hTy m.hdr) = true → s.outOfTurn l m = false → ∃ through : List Spot,
    exec (.completionRetrace l m) s = .next (((s.freeRx l m).countFwd (portSpot (portLink l.port) :: through)).returnMsg m) ∧
    ((∀ t, s.transitOf (hMaster m.hdr) (hTag m.hdr) = some t → t.ingress = none) → through = []) ∧
    (∀ t i, s.transitOf (hMaster m.hdr) (hTag m.hdr) = some t → t.ingress = some i → through = [.plaza, portSpot (portLink i.port)])) ∧
  (∀ (s : State) (i : Instr) (l : SubLink) (m : Msg) (ty : Nat),
    (i = .enumReply l m ∧ ty = 0x32 ∨ i = .remoteReply l m ∧ ty = 0x29 ∨ i = .mgmtCmp l m ∧ ty = 0x28) →
    (hTy m.hdr = ty → s.outOfTurn l m = false → exec i s = .next ((s.freeRx l m).returnMsg m)) ∧
    ((hTy m.hdr ≠ ty ∨ s.outOfTurn l m = true) → exec i s = .next s)) ∧
  (∀ (s : State) (m : Msg), (∀ t ∈ s.fab.transit, t.master ≠ hMaster m.hdr ∨ t.tag ≠ hTag m.hdr) → s.returnMsg m = s.lateCmp) ∧
  (∀ (s : State) (m : Msg) (t : Transit), s.transitOf (hMaster m.hdr) (hTag m.hdr) = some t →
    (t.orphan = true → s.returnMsg m = (s.dropTransit t).lateCmp) ∧
    (∀ l, t.orphan = false → t.ingress = some l → s.returnMsg m = (s.dropTransit t).sendBack l m) ∧
    (∀ q, t.orphan = false → t.ingress = none → s.fab.mgmt.find? (fun q => q.tag = hTag m.hdr) = some q →
      (MasterId.agent (hMaster m.hdr)).toNat = 0x50 →
      s.returnMsg m = (s.dropTransit t).mgmtDone q (CStatus.ofCode (hStatus m.hdr)) (m.hdr.extractLsb' 96 32) (nth m.slots 0 0)) ∧
    (t.orphan = false → t.ingress = none → s.fab.mgmt.find? (fun q => q.tag = hTag m.hdr) = none →
      s.returnMsg m = (s.dropTransit t).deliverCmp m)) ∧
  (∀ (s : State), s.lateCmp = { s with glb := { s.glb with lateCmp := satAdd s.glb.lateCmp 1 } })

/-- A sub-link that goes DOWN (R266, R295): one that was up raises its epoch and counts the loss, an unclean one logs LINK_DOWN; it ends
DOWN with its link layer DOWN and nothing held; each entry with it as ingress is orphaned, and each that left by it completes with PATH_DOWN. -/
def Sys2Proof.Part.SublinksGoDown : Prop :=
  (∀ (s : State) (l : SubLink) (o : Bool), (s.subAt l).lstate ≠ .active → (s.subAt l).lstate ≠ .recovery → (s.subAt l).lstate ≠ .quiet →
    exec (.sublinkDown l o) s = .next (s.modSub l Sub.lost)) ∧
  (∀ (s : State) (l : SubLink), (s.subAt l).lstate = .active ∨ (s.subAt l).lstate = .recovery ∨ (s.subAt l).lstate = .quiet →
    let width := if (s.subAt l).lstate = .recovery then (s.subAt l).before else (s.subAt l).lanes
    let held := countIf (s.subAt l).tx (fun m => isCmpTy (hTy m.hdr))
    (∃ b : State, b = (s.bumpLinkEpoch l).modPort l.port (fun p => { p with downsOrd := satAdd p.downsOrd 1 }) ∧
      exec (.sublinkDown l true) s = .next (((({ b with glb := { b.glb with lateCmp := satAdd b.glb.lateCmp held } } : State).modSub l
        Sub.lost).loseLink l).liftKerb l.port)) ∧
    (∃ b : State, b = ((s.bumpLinkEpoch l).modPort l.port (fun p => { p with downsUnc := satAdd p.downsUnc 1 })).log
        (evLinkDown l.port.val) (detail l.port.val (l.sub.val + 256 * laneCount width)) acLink ∧
      exec (.sublinkDown l false) s = .next (((({ b with glb := { b.glb with lateCmp := satAdd b.glb.lateCmp held } } : State).modSub l
        Sub.lost).loseLink l).liftKerb l.port))) ∧
  (∀ u : Sub, u.lost.lstate = .down ∧ u.lost.ll = .down ∧ u.lost.tx = [] ∧ u.lost.rx = [] ∧ u.lost.partialRx = [] ∧ u.lost.lanes = 0 ∧
    u.lost.epoch = u.epoch ∧ u.lost.errLimit = u.errLimit) ∧
  (∀ (s : State) (l : SubLink), s.fab.mgmt = [] → ∀ t ∈ (s.loseLink l).fab.transit, t.ingress = some l → t.orphan = true) ∧
  (∀ (s u : State) (t : Transit), u = { s.dropTransit t with glb := { s.glb with synthCmp := satAdd s.glb.synthCmp 1 } } →
    (t.orphan = true → s.synthesise t = u.lateCmp) ∧
    (∀ i, t.orphan = false → t.ingress = some i → s.synthesise t = u.sendBack i (u.answerMsg t.hdr .pathDown)) ∧
    (∀ j o, t.orphan = false → t.ingress = none →
      s.fab.mgmt.find? (fun q => q.tag = t.tag && (MasterId.agent t.master).toNat = agentCC0) = none →
      s.outstPort t.master t.tag = some (j, o) → s.synthesise t = u.giveCmp j .plaza { req := o.req, status := .pathDown, synthesised := true }))

/-- Completions retrace their transit entry; a link that goes DOWN completes what left by it. -/
def Obligations.CompletionsRetraceOrLinksFail : Prop :=
  Part.CompletionsRetrace ∧ Part.SublinksGoDown

/-- Window accesses and mailbox writes of other nodes (R288, R373, R470): a MGMT_RD or MGMT_WR for this node acts as an access under the
message's identity over the sub-link's path and completes with MGMT_CMP and that access's status, the read's with the word; a MBX_MSG of a
side writes its outgoing word or sets the partner's doorbell bits, and one of another identity is refused and counted. -/
def Sys2Proof.Part.ManagementMessagesAct : Prop :=
  ∀ (s : State) (l : SubLink) (m : Msg), s.flt.stopped = false → s.dieInReset = false → s.mustWait l m = false →
    let u := (s.freeRx l m).countMgt l.port
    (u.egress m).2 = .here →
    let off := if fieldN m.hdr 64 40 < 0xFF00000000 then 0x1000000 else fieldN m.hdr 64 40 - 0xFF00000000
    (hTy m.hdr = 0x20 → ∀ (t : State) (w : W32) (st : CStatus), u.readReg (.scezo l.port l.sub) (hMaster m.hdr) off = (t, w, st) →
      exec (.mgmtRd l m) s = .next (t.mgmtAnswer l m.hdr st w)) ∧
    (hTy m.hdr = 0x21 → ∀ (t : State) (st : CStatus),
      u.writeReg (.scezo l.port l.sub) (hMaster m.hdr) off ((nth m.slots 0 0).setWidth 32) = (t, st) →
      exec (.mgmtWr l m) s = .next (t.mgmtAnswer l m.hdr st)) ∧
    (hTy m.hdr = 0x22 → ∀ ch : Fin 64, ch.val = (m.hdr.extractLsb' 64 6).toNat →
      (u.mbxSide (u.mbx.ch[ch]) (hMaster m.hdr) = none → exec (.mbxMsg l m) s = .next
        (({ u with mbx := { u.mbx with reject := satAdd u.mbx.reject 1 } } : State).mgmtAnswer l m.hdr .notPermitted)) ∧
      (∀ side, u.mbxSide (u.mbx.ch[ch]) (hMaster m.hdr) = some side → u.sideDown ((u.mbx.ch[ch]).partner side) = none →
        (m.hdr.getLsbD 70 = false → exec (.mbxMsg l m) s = .next ((u.mbxSend ch side ((nth m.slots 0 0).setWidth 32)).mgmtAnswer l m.hdr .ok)) ∧
        (m.hdr.getLsbD 70 = true → exec (.mbxMsg l m) s = .next ((u.mbxRing ch side ((nth m.slots 0 0).setWidth 32)).mgmtAnswer l m.hdr .ok))))

/-- Messages that only node 0x000's control cores may send (R289, R292, R299, R300): another sender's completes with NOT_PERMITTED; theirs write
a route entry, give the node its ID and parent, answer a probe with identity and state, or install a key set, and complete with OK. -/
def Sys2Proof.Part.MasterMessagesAct : Prop :=
  (∀ (i : Instr) (s : State) (l : SubLink) (m : Msg),
    (i = .routeWrite l m ∧ hTy m.hdr = 0x24 ∨ i = .fabKey l m ∧ hTy m.hdr = 0x25 ∨ i = .enumProbe l m ∧ hTy m.hdr = 0x30 ∨
      i = .nodeAssign l m ∧ hTy m.hdr = 0x31) → s.flt.stopped = false → s.dieInReset = false → s.mustWait l m = false →
    let u := (s.freeRx l m).countMgt l.port
    ((u.egress m).2 = .here → fromMaster m.hdr = false → exec i s = .next (u.answer l m.hdr .notPermitted)) ∧
    ((u.egress m).2 ≠ .here → exec i s = .next (u.forwardMsg l m))) ∧
  (∀ (s : State) (l : SubLink) (m : Msg), s.flt.stopped = false → s.dieInReset = false → s.mustWait l m = false →
    fromMaster m.hdr = true →
    let u := (s.freeRx l m).countMgt l.port
    (u.egress m).2 = .here →
    (hTy m.hdr = 0x24 → ∀ e : W64, (nth m.slots (if hSr m.hdr then 4 else 0) 0).setWidth 64 = e →
      exec (.routeWrite l m) s = .next ((u.setRoute (if hSr m.hdr then 0 else fieldN m.hdr 64 12) e).mgmtAnswer l m.hdr .ok)) ∧
    (hTy m.hdr = 0x31 → exec (.nodeAssign l m) s = .next
      (({ u with fab := { u.fab with nodeId := (nth m.slots 4 0).setWidth 12, parent := some l } } : State).mgmtAnswer l m.hdr .ok)) ∧
    (hTy m.hdr = 0x30 → exec (.enumProbe l m) s = .next (u.sendBack l
      { hdr := cmpHdr 0x32 (hCls m.hdr) (hTag m.hdr) (hMaster m.hdr) .ok u.fab.nodeId, slots := [u.enumSlot l] })) ∧
    (hTy m.hdr = 0x25 → u.sec.agreeReady = false → exec (.fabKey l m) s = .next (u.mgmtAnswer l m.hdr .notPermitted)) ∧
    (hTy m.hdr = 0x25 → u.sec.agreeReady = true → ∀ k, u.unwrapBlob (keyBlob m) = .ok k → exec (.fabKey l m) s = .next
      (({ u with fab := u.fab.install (fabKeys k.1 k.2) (ofBytes 32 (((keyBlob m).drop 4).take 4)) } : State).mgmtAnswer l m.hdr .ok))) ∧
  (∀ (f : Fab) (k : FabKeys) (g : W32), (f.install k g).cur = some k ∧ (f.install k g).prev = f.cur ∧ (f.install k g).kg = g.getLsbD 0 ∧
    (f.install k g).nonce = 0 ∧ (f.install k g).route = f.route ∧ (f.install k g).nodeId = f.nodeId)

/-- Management messages act under their identity, and only node 0x000 sets a node up. -/
def Obligations.ManagementMessagesAct : Prop :=
  Part.ManagementMessagesAct ∧ Part.MasterMessagesAct

/-- Fabric time (R303): a node with a parent asks once a period with T1; a request is answered with T1, T2 and T3; the child computes its offset
and delay and corrects its time: whole above 1 µs, and by up to 6,000 ppm of the period below. -/
def Sys2Proof.Part.TimeIsExchanged : Prop :=
  (∀ s : State, (s.fab.parent = none ∨ s.fab.syncEn = false ∨ s.fabMaster = true ∨ ∃ l, s.fab.parent = some l ∧ subUp (s.subAt l) = false) →
    exec .tsyncPeriod s = .next s) ∧
  (∀ (s : State) (l : SubLink), s.fab.parent = some l → s.fab.syncEn = true → s.fabMaster = false → subUp (s.subAt l) = true →
    exec .tsyncPeriod s = .next (({ s with fab := { s.fab with t1 := some s.fab.time } } : State).sendOn l
      { hdr := reqHdr 0x38 0 0 0 s.fab.time })) ∧
  (∀ (s : State) (l : SubLink) (m : Msg), hTy m.hdr = 0x38 → s.dieInReset = false → exec (.tsyncReq l m) s = .next
    ((s.freeRx l m).sendOn l { hdr := reqHdr 0x39 0 0 0 (m.hdr.extractLsb' 64 64), slots := [(s.fab.time ++ s.fab.time : BitVec 128)] })) ∧
  (∀ (s : State) (l : SubLink) (m : Msg), hTy m.hdr = 0x39 →
    let u := s.freeRx l m
    let t1 : W64 := m.hdr.extractLsb' 64 64
    let t2 : W64 := (nth m.slots 0 0).setWidth 64
    let t3 : W64 := (nth m.slots 0 0).extractLsb' 64 64
    (u.fab.parent = some l → u.fab.t1 = some t1 → exec (.tsyncRsp l m) s = .next
      { u with fab := u.fab.correct (tsyncOffset t1 t2 t3 u.fab.time) (tsyncDelay t1 t2 t3 u.fab.time) }) ∧
    ((u.fab.parent ≠ some l ∨ u.fab.t1 ≠ some t1) → exec (.tsyncRsp l m) s = .next u)) ∧
  (∀ (f : Fab) (o d : Int), (1000 < o.natAbs → (f.correct o d).time = f.time + BitVec.ofInt 64 o) ∧
    (o.natAbs ≤ 1000 → ∃ x : Int, (f.correct o d).time = f.time + BitVec.ofInt 64 x ∧ x.natAbs ≤ 6 * f.period.toNat ∧
      x.natAbs ≤ o.natAbs) ∧ (f.correct o d).route = f.route ∧ (f.correct o d).t1 = none)

/-- Detaching (R304): a received DETACH takes the sub-link out of routing and logs PEER_DETACH; a node in DETACHING whose drains have ended
quiets its links and carries its action out, and the time limit completes what still waits. -/
def Sys2Proof.Part.DetachTakesLinksOut : Prop :=
  (∀ (s : State) (l : SubLink) (m : Msg), hTy m.hdr ≠ 0x3A → exec (.detach l m) s = .next s) ∧
  (∀ (s : State) (l : SubLink) (m : Msg), hTy m.hdr = 0x3A →
    ∃ u : State, exec (.detach l m) s = .next (u.log (evPeerDetach l.port.val)
      (detail l.port.val (l.sub.val + 65536 * (u.subAt l).partner.toNat)) acLink) ∧
    u = (s.freeRx l m).modSub l (fun u => { u with detachRx := true }) ∧ subUp (u.subAt l) = false) ∧
  (∀ s : State, s.fab.detaching = true → s.boot.warmReq = none → (∀ n, s.boot.phase ≠ .warm n) →
    (s.throughEmpty = true → exec .detachDrainEnd s = .next s.finishDetach) ∧ (s.throughEmpty = false → exec .detachDrainEnd s = .next s) ∧
    exec .drainTimeLimit s = .next s.finishDetach) ∧
  (∀ s : State, (s.fab.detaching = false ∨ s.boot.warmReq ≠ none) → exec .detachDrainEnd s = .next s ∧
    (s.boot.phase ≠ .warm 1 → exec .drainTimeLimit s = .next s)) ∧
  (∀ s : State, s.fab.detachAction = 0 → s.finishDetach.fab.nodeId = 0xFFF#12 ∧ s.finishDetach.fab.route = [] ∧
    s.finishDetach.fab.parent = none ∧ s.finishDetach.fab.detaching = false)

/-- Nodes take time from their parent, and detaching takes links out of routing. -/
def Obligations.TimeAndDetach : Prop :=
  Part.TimeIsExchanged ∧ Part.DetachTakesLinksOut

/-- Markers and detectors (R259, R265, R266, R268): a marker with a bad SYNC or CRC is counted and otherwise ignored; a good one gives the
partner, QUIET and RETRAIN. LOS and LOL show live and latch; a lane in use of an ACTIVE Scezo sub-link starts recovery, or QUIET after a marker. -/
def Sys2Proof.Part.MarkersAndDetectors : Prop :=
  (∀ (s : State) (l : SubLink) (lane : Fin 8) (mk : BitVec 128),
    (markerOk mk = false → exec (.alignmentMarker l lane mk) s = .next
      (s.modPort l.port (fun p => { p with lane := vmod p.lane lane (fun x => { x with amErr := satAdd x.amErr 1 }) }))) ∧
    (markerOk mk = true → mk.getLsbD 80 = false → mk.getLsbD 81 = false → exec (.alignmentMarker l lane mk) s = .next
      (s.modSub l (fun u => { u with partner := mk.extractLsb' 48 12 }))) ∧
    (markerOk mk = true → mk.getLsbD 80 = true → mk.getLsbD 81 = false → exec (.alignmentMarker l lane mk) s = .next
      (((s.modSub l (fun u => { u with partner := mk.extractLsb' 48 12 })).modSub l (fun u => { u with quietRx := true })).modPort l.port
        (fun p => { p with quietSeen := true }))) ∧
    (markerOk mk = true → mk.getLsbD 80 = false → mk.getLsbD 81 = true → exec (.alignmentMarker l lane mk) s = .next
      ((s.modSub l (fun u => { u with partner := mk.extractLsb' 48 12 })).enterRecovery l false))) ∧
  (∀ mk : BitVec 128, markerOk mk = true ↔ mk.extractLsb' 0 32 = 0xB269C51E#32 ∧
    crc16 (((toBytes mk 16).drop 4).take 10) = mk.extractLsb' 112 16) ∧
  (∀ (s : State) (p : Fin 64) (lane : Fin 8) (on : Bool), ∀ u,
    (u = s.modPort p (fun x => { x with los := setBit x.los lane.val on, losSeen := if on then setBit x.losSeen lane.val true else x.losSeen }) →
      exec (.los p lane on) s = .next (if on then u.detectorFires p lane true else u)) ∧
    (u = s.modPort p (fun x => { x with lol := setBit x.lol lane.val on, lolSeen := if on then setBit x.lolSeen lane.val true else x.lolSeen }) →
      exec (.lol p lane on) s = .next (if on then u.detectorFires p lane false else u))) ∧
  (∀ (s : State) (p : Fin 64) (lane : Fin 8) (los : Bool) (l : SubLink), s.subOfLane p lane = some l → s.deaf l = false →
    scezoMode (s.ports[p]).mode = true →
    ((s.subAt l).lstate = .active → (s.subAt l).lanes.getLsbD lane.val = false → s.detectorFires p lane los = s) ∧
    ((s.subAt l).lstate = .active → (s.subAt l).lanes.getLsbD lane.val = true → (los = false ∨ (s.subAt l).quietRx = false) →
      s.detectorFires p lane los = s.enterRecovery l false) ∧
    ((s.subAt l).lstate = .active → (s.subAt l).lanes.getLsbD lane.val = true → los = true → (s.subAt l).quietRx = true →
      s.detectorFires p lane los = s.modSub l (fun u => { u with lstate := .quiet })) ∧
    ((s.subAt l).lstate = .eq → s.detectorFires p lane los = s.modSub l (fun u => { u with bad := setBit u.bad lane.val true })))

/-- Recovery (R266, R267): an ACTIVE Scezo sub-link enters RECOVERY, raises its epoch and logs LANE_RETRAIN; an attempt that locks every lane
returns to ACTIVE; the third failure in a row ends DOWN; others go on to the attempt of R267. -/
def Sys2Proof.Part.RecoveryAttemptsFollow : Prop :=
  (∀ (s : State) (l : SubLink) (full : Bool), ((s.subAt l).lstate ≠ .active ∨ scezoMode (s.ports[l.port]).mode = false) →
    exec (.recoveryEnter l full) s = .next s) ∧
  (∀ (s : State) (l : SubLink) (full : Bool), (s.subAt l).lstate = .active → scezoMode (s.ports[l.port]).mode = true →
    ∃ u : State, exec (.recoveryEnter l full) s = .next u ∧ (u.subAt l).lstate = .recovery ∧ (u.subAt l).failed = 0 ∧
      (u.subAt l).epoch = (s.subAt l).epoch + 1 ∧ u.glb.nodeEpoch = s.glb.nodeEpoch + 1 ∧ (u.subAt l).before = (s.subAt l).lanes ∧
      (u.subAt l).target = (if full then modeLanes (s.ports[l.port]).mode l.sub.val else (s.subAt l).lanes) ∧
      (u.subAt l).replayBuf = (s.subAt l).replayBuf ∧ (u.subAt l).tx = (s.subAt l).tx ∧ (u.subAt l).vc = (s.subAt l).vc) ∧
  (∀ (s : State) (l : SubLink) (r : TrainRes) (b : Bool), (s.subAt l).lstate ≠ .recovery → exec (.recoveryAttemptEnd l r b) s = .next s) ∧
  (∀ (s : State) (l : SubLink) (r : TrainRes) (b : Bool), (s.subAt l).lstate = .recovery →
    let u := s.subAt l
    let locked := trainGood r &&& u.target &&& ~~~u.bad
    (locked = u.target → ∃ t : State, exec (.recoveryAttemptEnd l r b) s = .next t) ∧
    (locked ≠ u.target → 2 ≤ u.failed → exec (.recoveryAttemptEnd l r b) s = .next (s.linkDown l false)) ∧
    (locked ≠ u.target → u.failed < 2 → ∃ n : Sub, n = u.nextAttempt locked (b && (s.ports[l.port]).degradeEn) ∧
      exec (.recoveryAttemptEnd l r b) s = .next ((s.modSub l (fun _ => { n with failed := u.failed + 1 })).modPort l.port
        (fun p => p.countAttempt n.full)))) ∧
  (∀ (u : Sub) (locked : BitVec 16) (d : Bool),
    ((locked = 0 ∨ d = false ∨ u.narrow = true ∧ u.full = false ∨ bestGroup u.target locked = none) →
      u.nextAttempt locked d = { u with full := true, bad := 0 }) ∧
    (∀ g, locked ≠ 0 → d = true → (u.narrow = false ∨ u.full = true) → bestGroup u.target locked = some g →
      u.nextAttempt locked d = { u with target := g, narrow := true, bad := 0 } ∧ g &&& locked = g ∧ g &&& u.target = g ∧ g ≠ u.target)) ∧
  (∀ (s : State) (l : SubLink),
    let u := s.subAt l
    let lanes := if u.lstate = .recovery then u.before else u.lanes
    (s.deaf l = false → u.quietRx = false → scezoMode (s.ports[l.port]).mode = true → (u.lstate = .active ∨ u.lstate = .recovery) →
      ((s.ports[l.port]).losNow).setWidth 16 &&& lanes = lanes → exec (.losAllLanesTimeout l) s = .next (s.linkDown l false)) ∧
    ((u.quietRx = true ∨ ((s.ports[l.port]).losNow).setWidth 16 &&& lanes ≠ lanes ∨ scezoMode (s.ports[l.port]).mode = false) →
      exec (.losAllLanesTimeout l) s = .next s))

/-- Training (R262-R264): a sub-link that may train goes DOWN or DETECT to POLL once a partner is found, POLL to CONFIG once its lanes lock, CONFIG
to EQ, and through the rate change, at the highest rate of its mode that both ends allow (R257), to ACTIVE; an attempt that fails or takes too long returns to DETECT. -/
def Sys2Proof.Part.TrainingStagesFollow : Prop :=
  (∀ (s : State) (l : SubLink) (found : Bool), s.mayTrain l = true → ((s.subAt l).lstate = .down ∨ (s.subAt l).lstate = .detect) →
    exec (.detectTimer l found) s = .next (s.modSub l (fun u => { u with
      lstate := if found then .poll else .detect, target := modeLanes (s.ports[l.port]).mode l.sub.val, rateDone := false, bad := 0,
      quietRx := false, quietTx := false }))) ∧
  (∀ (s : State) (l : SubLink) (found : Bool) (r : TrainRes), s.mayTrain l = false →
    exec (.detectTimer l found) s = .next s ∧ exec (.trainingStageEnd l r) s = .next s) ∧
  (∀ (s : State) (l : SubLink) (r : TrainRes), s.mayTrain l = true →
    let u := s.subAt l
    let p := s.ports[l.port]
    let fail := s.modSub l (fun u => { u with lstate := .detect, lanes := 0, rate := 0, rateDone := false, bad := 0 })
    (u.lstate = .poll → trainGood r &&& u.target = u.target → exec (.trainingStageEnd l r) s = .next
      (s.modSub l (fun u => { u with lstate := .config }))) ∧
    (u.lstate = .poll → trainGood r &&& u.target ≠ u.target → cxlMode p.mode = false →
      ((p.degradeEn = false ∨ bestGroup u.target (trainGood r &&& u.target) = none) → exec (.trainingStageEnd l r) s = .next fail) ∧
      (∀ g, p.degradeEn = true → bestGroup u.target (trainGood r &&& u.target) = some g →
        exec (.trainingStageEnd l r) s = .next (s.modSub l (fun u => { u with lstate := .config, target := g })))) ∧
    (u.lstate = .config → r.reversed = true → p.reversalEn = false → exec (.trainingStageEnd l r) s = .next fail) ∧
    (u.lstate = .config → (r.reversed = false ∨ p.reversalEn = true) → exec (.trainingStageEnd l r) s = .next (s.modSub l (fun u => { u with
      lstate := .eq, reversed := r.reversed, partner := r.partner, rateDone := false, bad := 0 }))) ∧
    (u.lstate = .eq → u.rateDone = false → rateFor p.mode (min r.rate.val p.maxRate) ≠ 0 → exec (.trainingStageEnd l r) s = .next
      (s.modSub l (fun u => { u with rateDone := true, rate := BitVec.ofNat 3 (rateFor p.mode (min r.rate.val p.maxRate)) }))) ∧
    (rateFor p.mode (min r.rate.val p.maxRate) ≤ min r.rate.val p.maxRate ∧ (cxlMode p.mode = false →
      rateFor p.mode (min r.rate.val p.maxRate) = min r.rate.val p.maxRate) ∧ (cxlMode p.mode = true →
      rateFor p.mode (min r.rate.val p.maxRate) ≠ 3 ∧ rateFor p.mode (min r.rate.val p.maxRate) ≠ 5)) ∧
    (u.lstate = .eq → u.rateDone = true → trainGood r &&& u.target &&& ~~~u.bad = u.target → exec (.trainingStageEnd l r) s = .next (s.trained l r)) ∧
    (u.lstate = .eq → u.rateDone = true → trainGood r &&& u.target &&& ~~~u.bad ≠ u.target → exec (.trainingStageEnd l r) s = .next fail)) ∧
  (∀ (s : State) (l : SubLink) (r : TrainRes), s.hostOfSub l = none →
    ((s.trained l r).subAt l).lstate = .active ∧ ((s.trained l r).subAt l).lanes = (s.subAt l).target ∧ ((s.trained l r).subAt l).ll = .init ∧
    ((s.trained l r).subAt l).nextSeq = 0 ∧ ((s.trained l r).subAt l).replayBuf = [] ∧
    ((s.trained l r).subAt l).epoch = (s.subAt l).epoch + 1) ∧
  (∀ (s : State) (l : SubLink) (r : TrainRes) (h : Fin 8), s.hostOfSub l = some h →
    (((s.trained l r).hosts[h]).linkUp = true ∧ ((s.trained l r).hosts[h]).linkGen = (s.hosts[h]).linkGen + 1 ∧
      ((s.trained l r).subAt l).lstate = .active ∧ ((s.trained l r).kerbs[portHost h]).lifted = false)) ∧
  (∀ (s : State) (l : SubLink),
    (((s.subAt l).lstate = .poll ∨ (s.subAt l).lstate = .config ∨ (s.subAt l).lstate = .eq) → exec (.trainingTimeout l) s = .next
      (s.modSub l (fun u => { u with lstate := .detect, lanes := 0, rate := 0, rateDone := false, bad := 0 }))) ∧
    ((s.subAt l).lstate ≠ .poll → (s.subAt l).lstate ≠ .config → (s.subAt l).lstate ≠ .eq → exec (.trainingTimeout l) s = .next s))

/-- Markers, detectors, recovery attempts and training stages move a sub-link. -/
def Obligations.LanesTrainAndRecover : Prop :=
  Part.MarkersAndDetectors ∧ Part.RecoveryAttemptsFollow ∧ Part.TrainingStagesFollow

/-- The port function, margining and the port's injections (R255, R270, R273): STARTING ends in ON with a new generation, STOPPING in OFF once
a host port owes nothing; START on an ACTIVE lane runs a measurement, which its end leaves done or aborted with its count; FORCE holds a detector of a lane asserted for 250 strobes. A scan through the test access port shifts
what its register captured and then what came in (R59, R272), ends each link where its instruction takes the lanes, and leaves TDO at the slew
step of its clock (R504); debug disable takes the instructions of IEEE 1838 away (R60), which then select the bypass register (log entry 98). -/
def Obligations.PortsMarginsAndScan : Prop :=
  (∀ (s : State) (p : Fin 64),
    ((s.ports[p]).fn.st = .starting → exec (.portStartingEnd p) s = .next
      ((s.modPort p (fun x => { x with fn := { x.fn with st := .on }, gen := x.gen + 1 })).liftKerb p)) ∧
    ((s.ports[p]).fn.st ≠ .starting → exec (.portStartingEnd p) s = .next s) ∧
    ((s.ports[p]).fn.st = .stopping → (∀ h, s.hostOn p = some h → (s.hosts[h]).pend = []) → exec (.portStoppingEnd p) s = .next (s.darkPort p)) ∧
    (((s.ports[p]).fn.st ≠ .stopping ∨ ∃ h, s.hostOn p = some h ∧ (s.hosts[h]).pend ≠ []) → exec (.portStoppingEnd p) s = .next s) ∧
    ((s.darkPort p).ports[p]).fn.st = .off ∧ ((s.darkPort p).ports[p]).mode = 0 ∧
    (∀ i : Fin 4, (((s.darkPort p).ports[p]).subs[i]).lstate = .down ∧ (((s.darkPort p).ports[p]).subs[i]).ll = .down)) ∧
  (∀ (s : State) (pa : Sys2Proof.Path) (m : MasterId) (p : Fin 64) (lane : Fin 8), Writable s pa m (offPort p 0x040) →
    (isCore pa m = false → exec (.portForceRetrain pa m p) s = .next s ∧ exec (.losInject pa m p lane) s = .next s ∧
      exec (.lolInject pa m p lane) s = .next s) ∧
    (isCore pa m = true → exec (.portForceRetrain pa m p) s = .next ((fins 4).foldl (fun s i => s.enterRecovery { port := p, sub := i } true) s) ∧
      (∀ u, u = s.modPort p (fun x => { x with
          forces := (lane, true, s.strobe + 250) :: x.forces.filter (fun f => f.1 != lane || f.2.1 != true), losSeen := setBit x.losSeen lane.val true }) →
        exec (.losInject pa m p lane) s = .next (u.detectorFires p lane true) ∧ ((u.ports[p]).losNow).getLsbD lane.val = true) ∧
      (∀ u, u = s.modPort p (fun x => { x with
          forces := (lane, false, s.strobe + 250) :: x.forces.filter (fun f => f.1 != lane || f.2.1 != false), lolSeen := setBit x.lolSeen lane.val true }) →
        exec (.lolInject pa m p lane) s = .next (u.detectorFires p lane false) ∧ ((u.ports[p]).lolNow).getLsbD lane.val = true))) ∧
  (∀ (s : State) (pa : Sys2Proof.Path) (m : MasterId) (p : Fin 64) (lane : Fin 8) (v : W32), Writable s pa m (offPort p (0x108 + 16 * lane.val)) →
    (isCore pa m = false → exec (.marginStart pa m p lane v) s = .next s) ∧
    (isCore pa m = true → v.getLsbD 31 = true → s.laneActive p lane = true → exec (.marginStart pa m p lane v) s = .next
      (s.modPort p (fun q => { q with lane := vmod q.lane lane (fun x => { x with margin := v &&& 0xFFFF8000#32, result := 1, errors := 0 }) })))) ∧
  (∀ (s : State) (p : Fin 64) (lane : Fin 8) (e : BitVec 30) (a : Bool), ∃ u : State, exec (.marginEnd p lane e a) s = .next u ∧
    u = { s with ports := u.ports } ∧ (∀ q, q ≠ p → u.ports[q] = s.ports[q]) ∧
    (((s.ports[p]).lane[lane]).result = 1 → ((u.ports[p]).lane[lane]).errors = e ∧ ((u.ports[p]).lane[lane]).result = (if a then 3 else 2) ∧
      ((u.ports[p]).lane[lane]).margin.getLsbD 31 = false) ∧
    (((s.ports[p]).lane[lane]).result ≠ 1 → (u.ports[p]).lane[lane] = (s.ports[p]).lane[lane])) ∧
  (∀ (s : State) (c : TapScan), s.sidebandUp = false → exec (.boundaryScanLoad c) s = .next s) ∧
  (∀ (s : State) (c : TapScan), s.sidebandUp = true →
    let i := if c.instr.stacked = true ∧ s.debugDisable = true then TapInstr.bypass else c.instr
    let u := if i.takesLanes then s.lanesLost else s
    exec (.boundaryScanLoad c) s = .next { u with
      tap := u.tap.update i c.shift, slew := { u.slew with tdo := slewStep c.tck },
      outbox := .tdo ((s.tapCapture i c.pins ++ c.shift).take c.shift.length) u.slew.tdo :: u.outbox }) ∧
  (∀ s : State, s.lanesLost = (fins 8).foldl State.hostLost (allSubs.foldl (fun (s : State) l =>
    match (s.subAt l).lstate with
    | .active | .recovery => if scezoMode (s.ports[l.port]).mode then s.linkDown l false else s
    | _ => s) s)) ∧
  (∀ (s : State) (i : Nat), s.inChain i = true ↔ ∀ j, j ≤ i % s.glb.variant.layers →
    nth s.tap.chain (i / s.glb.variant.layers * s.glb.variant.layers + j) false = true) ∧
  (∀ ps : Nat, (slewStep ps = 0 ↔ 1000000 ≤ ps) ∧ (slewStep ps = 1 ↔ 250000 ≤ ps ∧ ps < 1000000) ∧
    (slewStep ps = 2 ↔ 125000 ≤ ps ∧ ps < 250000) ∧ (slewStep ps = 3 ↔ ps < 125000))

/-- Host requests (R318, R319, R321, R325, R327): a ready port sends a request that hits a decoder and a VALID segment entry to its node and
address, in the entry's class and under the port's identity; a request that hits none is an address miss. -/
def Sys2Proof.Part.HostRequestsAreTranslated : Prop :=
  (∀ (s : State) (h : Fin 8) (i : Instr) (hpa : BitVec 52) (tag : BitVec 16) (kind : ReqKind),
    (i = .memRd h hpa tag ∧ kind = .lineRead ∨ (∃ d p, i = .memWr h hpa tag d p ∧ kind = .lineWrite d p) ∨
      (∃ d k, i = .memWrPtl h hpa tag d k false ∧ kind = .partialWrite d k) ∨
      (∃ d k, i = .memWrPtl h hpa tag d k true ∧ kind = .lineWrite d true)) →
    (s.hostAccepts h = false → exec i s = .next s) ∧
    (s.hostAccepts h = true →
      ((s.hosts[h]).decode hpa.toNat = none → exec i s = .next (s.addrMiss h tag kind hpa.toNat)) ∧
      (∀ pool, (s.hosts[h]).decode hpa.toNat = some pool →
        (s.bootMap = true → s.inBoot = true → s.boot.cxlPath = true → h = 0 → pool < 4194304 →
          exec i s = .next (s.windowMem h tag kind pool)) ∧
        (s.bootMap = true → (s.inBoot = false ∨ s.boot.cxlPath = false ∨ h ≠ 0 ∨ 4194304 ≤ pool) →
          exec i s = .next (s.addrMiss h tag kind pool)) ∧
        (s.bootMap = false → s.boot.phase = .ready → ∀ (u : State) (e : W64), s.segLookup h pool = (u, e) →
          (e.getLsbD 63 = false → exec i s = .next (u.addrMiss h tag kind pool)) ∧
          (e.getLsbD 63 = true → ∀ (node : BitVec 12) (a : Nat), u.segTarget e pool = (node, a) →
            exec i s = .next ((u.modHost h (fun p => { p with
              pend := p.pend ++ [{
                tag := tag, req := (u.hosts[h]).nextTag, write := isWrite kind, pool := BitVec.ofNat 50 pool, node := node,
                addr := BitVec.ofNat 40 a, entry := e }],
              nextTag := p.nextTag + 1 })).portIssue
              (portHost h) { master := u.self h.val, tag := (u.hosts[h]).nextTag, cls := e.extractLsb' 56 4, node := node, addr := BitVec.ofNat 40 a, kind := kind, origin := .port (portHost h) 0 })))))) ∧
  (∀ (s u : State) (h : Fin 8) (pool : Nat) (e : W64), s.segLookup h pool = (u, e) → e = smGetD s.cmd.segs (pool / 17179869184) 0 ∧
    u = { s with hosts := u.hosts, free := s.free + 1 } ∧ (u.hosts[h]).pend = (s.hosts[h]).pend) ∧
  (∀ (s : State) (e : W64) (pool : Nat), e.getLsbD 62 = false → e.extractLsb' 40 12 ≠ 0xFFF#12 →
    s.segTarget e pool = (e.extractLsb' 40 12, (e.extractLsb' 30 10).toNat * 1073741824 + pool % 17179869184)) ∧
  (∀ (s : State) (h : Fin 8) (hpa : BitVec 52), exec (.memSpecRd h hpa) s = .next s) ∧
  (∀ (s : State) (h : Fin 8) (hpa : BitVec 52) (tag : BitVec 16), s.hostAccepts h = true →
    exec (.memInv h hpa tag) s = .next { s with outbox := .cmp h tag :: s.outbox } ∧
    exec (.memRdFwd h hpa) s = .next (s.modHost h (fun p => { p with proto := satAdd p.proto 1 })))

/-- A completion becomes the host's response (R327, R328): data where OK; a failed read is zero data with Poison, counted and recorded in
LAST_ERR; a failed write is a Cmp, counted, recorded and logged as HOST_WR_REFUSED with the global address and the status. -/
def Sys2Proof.Part.HostResponsesFollowTheStatus : Prop :=
  (∀ (s : State) (h : Fin 8), (s.mports[portHost h]).delivered = [] → exec (.cxlCompletionMap h) s = .next s) ∧
  (∀ (s : State) (h : Fin 8) (c : Completion) (rest : List Completion) (q : HostPend), (s.mports[portHost h]).delivered = c :: rest →
    (s.hosts[h]).pend.find? (fun x => x.req = c.req.tag) = some q →
    ∀ u, u = (s.modMport (portHost h) (fun p => { p with delivered := rest })).modHost h (fun p => { p with pend := p.pend.erase q }) →
    let a := q.pool.toNat
    let err := fun (w : Bool) => (BitVec.ofNat 64 c.status.code <<< 60 ||| (if w then 0x0800000000000000 else 0) ||| BitVec.ofNat 64 a : W64)
    (q.write = false → c.status = .ok → exec (.cxlCompletionMap h) s = .next (u.emit (.memData h q.tag (nth c.data 0 0) false))) ∧
    (q.write = true → c.status = .ok → exec (.cxlCompletionMap h) s = .next (u.emit (.cmp h q.tag))) ∧
    (q.write = false → c.status ≠ .ok → exec (.cxlCompletionMap h) s = .next ((u.emit (.memData h q.tag 0 true)).modHost h (fun p => { p with
      rdPoison := satAdd p.rdPoison 1, lastErr := err false }))) ∧
    (q.write = true → c.status ≠ .ok → exec (.cxlCompletionMap h) s = .next (((u.emit (.cmp h q.tag)).modHost h (fun p => { p with
      wrRefused := satAdd p.wrRefused 1, lastErr := err true })).logAddr (evHostWrRefused h.val) (q.node.toNat * 2 ^ 40 + c.req.addr.toNat)
        (accessOf c.req.kind) (u.self h.val) c.status.code))) ∧
  (∀ (s : State) (h : Fin 8) (tag : BitVec 16) (a : Nat), a < 2 ^ 50 →
    ((s.addrMiss h tag .lineRead a).hosts[h]).addrMiss = satAdd (s.hosts[h]).addrMiss 1 ∧
    ((s.addrMiss h tag .lineRead a).hosts[h]).rdPoison = satAdd (s.hosts[h]).rdPoison 1 ∧
    (s.addrMiss h tag .lineRead a).outbox = .memData h tag 0 true :: s.outbox)

/-- Host requests are translated or miss, and completions become the responses they ask for. -/
def Obligations.HostRequestsAreServed : Prop :=
  Part.HostRequestsAreTranslated ∧ Part.HostResponsesFollowTheStatus

/-- HDM decoders (R317): a commit that keeps the rules commits and, with Lock On Commit, locks, its DPA range starting at the end of the decoder
before plus its skip; one that breaks a rule sets Error Not Committed; a locked decoder or a link that is down takes none. -/
def Sys2Proof.Part.DecodersCommitInOrder : Prop :=
  ∀ (s : State) (h : Fin 8) (d : Fin 4) (base size : W64) (ways gran : BitVec 16) (skip : W64) (lock : Bool),
    (((s.hosts[h]).linkUp = false ∨ ((s.hosts[h]).hdm[d]).locked = true) →
      exec (.hdmDecoderCommit h d base size ways gran skip lock) s = .next s) ∧
    ((s.hosts[h]).linkUp = true → ((s.hosts[h]).hdm[d]).locked = false →
      ∃ (u : State) (n : Hdm), exec (.hdmDecoderCommit h d base size ways gran skip lock) s = .next u ∧
        u = s.modHost h (fun p => { p with hdm := vput p.hdm d n }) ∧
        let start := (if d.val = 0 then 0 else ((s.hosts[h]).hdm.toList.getD (d.val - 1) {}).dpaEnd) + skip.toNat
        (n.committed = true ↔ ways.toNat ∈ [1, 2, 4, 8] ∧ gran.toNat ∈ [256, 512, 1024, 2048, 4096, 8192, 16384] ∧
          268435456 ∣ base.toNat ∧ 268435456 ∣ size.toNat ∧ 268435456 ∣ skip.toNat ∧
          (d.val ≠ 0 → ((s.hosts[h]).hdm.toList.getD (d.val - 1) {}).committed = true) ∧ start + size.toNat / ways.toNat ≤ 2 ^ 50) ∧
        (n.error = true ↔ n.committed = false) ∧ (n.locked = true ↔ n.committed = true ∧ lock = true) ∧
        n.base = base.toNat ∧ n.size = size.toNat ∧ n.dpa = start)

/-- Configuration requests and the primary mailbox (R310, R312, R316): a request on an up link completes with its data and changes at most its
own field of the port; every supported mailbox command answers its payload and any other opcode Unsupported. -/
def Sys2Proof.Part.ConfigurationAndMailboxAnswer : Prop :=
  (∀ (s : State) (h : Fin 8) (op : ConfigOp), (s.dieUp = false ∨ (s.hosts[h]).linkUp = false) → exec (.configRequest h op) s = .next s) ∧
  (∀ (s : State) (h : Fin 8), s.dieUp = true → (s.hosts[h]).linkUp = true →
    let done := fun (u : State) (d : W64) => ({ u with outbox := .cfgCpl h d :: s.outbox } : State)
    (∀ v, exec (.configRequest h (.writeCommand v)) s = .next (done (s.modHost h (fun p => { p with command := v })) 0)) ∧
    exec (.configRequest h .readCommand) s = .next (done s ((s.hosts[h]).command.setWidth 64)) ∧
    (∀ v, exec (.configRequest h (.writeBar true v)) s = .next (done (s.modHost h (fun p => { p with bar2 := v &&& 0xFFFFFFFFFF000000 })) 0)) ∧
    (∀ v, exec (.configRequest h (.writeBar false v)) s = .next (done (s.modHost h (fun p => { p with bar0 := v &&& 0xFFFFFFFFFFFE0000 })) 0)) ∧
    exec (.configRequest h (.readId 0)) s = .next (done s 0x1FB7) ∧
    exec (.configRequest h (.readId 3)) s = .next (done s 0x050210) ∧
    (∀ d, exec (.configRequest h (.writePower d)) s = .next (done (s.modHost h (fun p => { p with d3hot := d })) 0)) ∧
    (∀ v a d k, exec (.configRequest h (.writeMsixEntry v a d k)) s = .next (done (s.modHost h (fun p => { p with
      msix := smPut p.msix v.toNat { addr := a, data := d, masked := k } })) 0)) ∧
    ∃ u : State, exec (.configRequest h .flr) s = .next (done u 0) ∧ u = { s with hosts := u.hosts } ∧ (u.hosts[h]).hdm = (s.hosts[h]).hdm ∧
      (u.hosts[h]).pend = (s.hosts[h]).pend ∧ (u.hosts[h]).command = 0 ∧ (u.hosts[h]).bar2 = 0 ∧ (u.hosts[h]).msixEn = false) ∧
  (∀ (s : State) (h : Fin 8), s.dieUp = true → (s.hosts[h]).linkUp = true → (s.hosts[h]).d3hot = false →
    let done := fun (u : State) (p : List Byte) => ({ u with outbox := .mailbox h false p :: s.outbox } : State)
    exec (.identifyMemoryDevice h) s = .next (done s
      (List.replicate 16 0 ++ toBytes 4194304#64 8 ++ toBytes 4194304#64 8 ++ List.replicate 35 0)) ∧
    (∃ p : List Byte, p.length = 28 ∧ exec (.getSupportedLogs h) s = .next (done s p)) ∧
    (∃ p : List Byte, p.length = 28 ∧ ∀ offset length, exec (.getLog h offset length) s = .next (done s ((p.drop offset).take length))) ∧
    exec (.getEventRecords h) s = .next (done s (List.replicate 32 0)) ∧
    exec (.clearEventRecords h) s = .next (done s []) ∧
    exec (.getEventInterruptPolicy h) s = .next (done s (toBytes (s.hosts[h]).evtPolicy 4)) ∧
    (∀ v, exec (.setEventInterruptPolicy h v) s = .next (done (s.modHost h (fun p => { p with evtPolicy := v })) [])) ∧
    (∀ op : BitVec 16, op.toNat ∉ [0x0100, 0x0101, 0x0102, 0x0103, 0x0400, 0x0401, 0x4000] →
      exec (.unsupportedMailboxCmd h op) s = .next { s with outbox := .mailbox h true [] :: s.outbox }))

/-- Host link events (R329-R331): PERSTk_N, a hot reset, link disable and link loss take the link down, and every request outstanding becomes
one whose completion is discarded; their end returns configuration and decoders to reset values. A port that leaves ON stops accepting and goes down
once it owes nothing. -/
def Sys2Proof.Part.HostLinksGoDown : Prop :=
  (∀ (s : State) (h : Fin 8) (ls : LState), ((s.hostDown h ls).hosts[h]).linkUp = false ∧ ((s.hostDown h ls).hosts[h]).accepting = false ∧
    (∀ q ∈ ((s.hostDown h ls).hosts[h]).pend, q.lost = true) ∧ ((s.hostDown h ls).mports[portHost h]).delivered = [] ∧
    ((s.hostDown h ls).mports[portHost h]).outst = (s.mports[portHost h]).outst ∧ (s.hostDown h ls).cmd = s.cmd ∧
    ((s.hostDown h ls).hosts[h]).hdm = (s.hosts[h]).hdm ∧ ((s.hostDown h ls).kerbs[portHost h]).lifted = true ∧
    ((s.hostDown h ls).hosts[h]).discarded = satAdd (s.hosts[h]).discarded (s.mports[portHost h]).delivered.length) ∧
  (∀ (s : State) (h : Fin 8),
    ((s.boot.devRstHigh = false ∨ (s.ports[hostPortOf h]).fn.st = .off) → exec (.perstAssert h) s = .next
      (s.modHost h (fun p => { p with perst := true }))) ∧
    (s.boot.devRstHigh = true → (s.ports[hostPortOf h]).fn.st ≠ .off → exec (.perstAssert h) s = .next
      ((s.modHost h (fun p => { p with perst := true })).hostDown h .detect)) ∧
    ((s.hosts[h]).perst = false → exec (.perstDeassert h) s = .next s) ∧
    ((s.hosts[h]).perst = true → (s.boot.devRstHigh = false ∨ (s.ports[hostPortOf h]).fn.st = .off) → exec (.perstDeassert h) s = .next
      (s.modHost h (fun p => { p with perst := false }))) ∧
    ((s.hosts[h]).perst = true → s.boot.devRstHigh = true → (s.ports[hostPortOf h]).fn.st ≠ .off → exec (.perstDeassert h) s = .next
      ((s.modHost h (fun p => { p with perst := false })).modHost h CxlPort.conventionalReset)) ∧
    ((s.hosts[h]).linkUp = true →
      exec (.hotReset h) s = .next ((s.modHost h (fun p => { p with hotReset := true })).hostDown h .detect) ∧
      exec (.linkDisable h) s = .next ((s.modHost h (fun p => { p with linkDisabled := true })).hostDown h .down) ∧
      exec (.hostLinkLoss h) s = .next ((s.hostDown h .detect).modHost h CxlPort.conventionalReset)) ∧
    ((s.hosts[h]).linkUp = false → exec (.hotReset h) s = .next s ∧ exec (.linkDisable h) s = .next s ∧ exec (.hostLinkLoss h) s = .next s) ∧
    (((s.hosts[h]).hotReset = true ∨ (s.hosts[h]).linkDisabled = true) → ∃ u : State, exec (.hotResetEnd h) s = .next u ∧
      u = { s with hosts := u.hosts, ports := u.ports } ∧ (u.hosts[h]).hotReset = false ∧ (u.hosts[h]).linkDisabled = false ∧
      (u.hosts[h]).hdm = Vector.replicate 4 {} ∧ (u.hosts[h]).command = 0 ∧ (u.hosts[h]).addrMiss = (s.hosts[h]).addrMiss ∧
      (cxlMode (s.ports[hostPortOf h]).mode = true → (u.subAt (hostSub h)).lstate = .detect)) ∧
    (s.hostLeaving h = false → exec (.hostPortLeaveOn h) s = .next s) ∧
    ((s.ports[hostPortOf h]).fn.st = .stopping → (∀ n, s.boot.phase ≠ .warm n) →
      ((s.hosts[h]).pend = [] → exec (.hostPortLeaveOn h) s = .next ((s.modHost h (fun p => { p with accepting := false })).hostDown h .down)) ∧
      ((s.hosts[h]).pend ≠ [] → exec (.hostPortLeaveOn h) s = .next (s.modHost h (fun p => { p with accepting := false })))))

/-- Decoders commit in order; configuration and mailbox requests answer; host link events act. -/
def Obligations.HostPortsAreConfigured : Prop :=
  Part.DecodersCommitInOrder ∧ Part.ConfigurationAndMailboxAnswer ∧ Part.HostLinksGoDown

/-- Message words (R367, R369-R371): the writing side's word is stored and its FULL flag set, with a crossing counted where the opposite word became
FULL within the last 1 µs; over a FULL word it sets the overrun; the other side's read empties it; a partner that is down takes no word. -/
def Sys2Proof.Part.MessageWordsCross : Prop :=
  (∀ (s : State) (p : Sys2Proof.Path) (m : MasterId) (ch : Fin 64) (v : W32), s.reaches p (0x030000 + ch.val * 0x40 + 0x0C) = true →
    s.mbxSide (s.mbx.ch[ch]) m = some .a → s.sideDown (s.mbx.ch[ch]).bindB = none →
    let x := s.mbx.ch[ch]
    (x.a2bFull = true → exec (.a2bMsgWrite p m ch true v) s = .next (s.modMbx ch (fun x => { x with a2b := v, aOver := true }))) ∧
    (x.a2bFull = false → ∀ cross : Bool, cross = (x.b2aFull && decide (4 * s.strobe ≤ x.b2aSince + 1000)) →
      exec (.a2bMsgWrite p m ch true v) s = .next ((s.modMbx ch (fun x => { x with
        a2b := v, a2bFull := true, a2bSince := 4 * s.strobe, crossed := x.crossed || cross,
        crossCount := if cross then satAdd x.crossCount 1 else x.crossCount })).mbxNotify x.bindB))) ∧
  (∀ (s : State) (p : Sys2Proof.Path) (m : MasterId) (ch : Fin 64) (v : W32), s.reaches p (0x030000 + ch.val * 0x40 + 0x10) = true →
    s.mbxSide (s.mbx.ch[ch]) m = some .b → s.sideDown (s.mbx.ch[ch]).bindA = none →
    let x := s.mbx.ch[ch]
    (x.b2aFull = true → exec (.a2bMsgWrite p m ch false v) s = .next (s.modMbx ch (fun x => { x with b2a := v, bOver := true }))) ∧
    (x.b2aFull = false → ∀ cross : Bool, cross = (x.a2bFull && decide (4 * s.strobe ≤ x.a2bSince + 1000)) →
      exec (.a2bMsgWrite p m ch false v) s = .next ((s.modMbx ch (fun x => { x with
        b2a := v, b2aFull := true, b2aSince := 4 * s.strobe, crossed := x.crossed || cross,
        crossCount := if cross then satAdd x.crossCount 1 else x.crossCount })).mbxNotify x.bindA))) ∧
  (∀ (s : State) (p : Sys2Proof.Path) (m : MasterId) (ch : Fin 64) (v : W32) (a : Bool) (st : CStatus),
    s.reaches p (0x030000 + ch.val * 0x40 + (if a then 0x0C else 0x10)) = true →
    s.mbxSide (s.mbx.ch[ch]) m = some (if a then .a else .b) → s.sideDown (if a then (s.mbx.ch[ch]).bindB else (s.mbx.ch[ch]).bindA) = some st →
    exec (.a2bMsgWrite p m ch a v) s = .next (s.modMbx ch (fun x => if a then { x with lastA := BitVec.ofNat 4 st.code }
      else { x with lastB := BitVec.ofNat 4 st.code }))) ∧
  (∀ (s : State) (p : Sys2Proof.Path) (m : MasterId) (ch : Fin 64),
    (s.reaches p (0x030000 + ch.val * 0x40 + 0x10) = true → s.mbxSide (s.mbx.ch[ch]) m = some .a →
      exec (.a2bMsgRead p m ch true) s = .next ((s.modMbx ch (fun x => { x with b2aFull := false })).emit (.readData p (s.mbx.ch[ch]).b2a))) ∧
    (s.reaches p (0x030000 + ch.val * 0x40 + 0x0C) = true → s.mbxSide (s.mbx.ch[ch]) m = some .b →
      exec (.a2bMsgRead p m ch false) s = .next ((s.modMbx ch (fun x => { x with a2bFull := false })).emit (.readData p (s.mbx.ch[ch]).a2b))))

/-- Doorbells, bindings and the lock (R366, R367, R369): the partner sets bits, with a notification where a masked-in bit was 0; the owner clears
them; a stranger's access is refused and counted; a control core writes a valid binding entry until the lock, which only a core sets. -/
def Sys2Proof.Part.DoorbellsAndBindings : Prop :=
  (∀ (s : State) (p : Sys2Proof.Path) (m : MasterId) (ch : Fin 64) (v : W32), s.reaches p (0x030000 + ch.val * 0x40 + 0x1C) = true →
    let x := s.mbx.ch[ch]
    (s.mbxSide x m = some .a → s.sideDown x.bindB = none →
      exec (.doorbellSet p m ch true v) s = .next (let u := s.modMbx ch (fun x => { x with dbB := x.dbB ||| v })
        if v &&& ~~~x.dbB &&& x.maskB = 0 then u else u.mbxNotify x.bindB)) ∧
    (s.mbxSide x m = some .b → exec (.doorbellClear p m ch false v) s = .next (s.modMbx ch (fun x => { x with dbB := x.dbB &&& ~~~v }))) ∧
    (s.mbxSide x m = none → exec (.doorbellSet p m ch true v) s = .next { s with mbx := { s.mbx with reject := satAdd s.mbx.reject 1 } })) ∧
  (∀ (s : State) (p : Sys2Proof.Path) (m : MasterId) (ch : Fin 64) (v : W32), s.reaches p (0x030000 + ch.val * 0x40 + 0x14) = true →
    let x := s.mbx.ch[ch]
    (s.mbxSide x m = some .b → s.sideDown x.bindA = none →
      exec (.doorbellSet p m ch false v) s = .next (let u := s.modMbx ch (fun x => { x with dbA := x.dbA ||| v })
        if v &&& ~~~x.dbA &&& x.maskA = 0 then u else u.mbxNotify x.bindA)) ∧
    (s.mbxSide x m = some .a → exec (.doorbellClear p m ch true v) s = .next (s.modMbx ch (fun x => { x with dbA := x.dbA &&& ~~~v })))) ∧
  (∀ (s : State) (p : Sys2Proof.Path) (m : MasterId) (ch : Fin 64) (a : Bool) (v : W32),
    s.reaches p (0x030000 + ch.val * 0x40 + (if a then 0 else 4)) = true → isCore p m = true →
    let x := s.mbx.ch[ch]
    (s.mbx.lock = true → exec (.mbxBindDirectWrite p m ch a v) s = .next s) ∧
    (s.mbx.lock = false → v.getLsbD 31 = false → exec (.mbxBindDirectWrite p m ch a v) s = .next
      (s.modMbx ch (fun x => if a then { x with bindA := v } else { x with bindB := v }))) ∧
    (s.mbx.lock = false → v.getLsbD 31 = true → (v.extractLsb' 20 8 = 0 ∨ 8 ≤ (v.extractLsb' 20 8).toNat) →
      agentAssigned (v.extractLsb' 0 8).toNat = true → ((if a then x.bindB else x.bindA).getLsbD 31 = false) →
      exec (.mbxBindDirectWrite p m ch a v) s = .next (s.modMbx ch (fun x => if a then { x with bindA := v } else { x with bindB := v })))) ∧
  (∀ (s : State) (p : Sys2Proof.Path) (m : MasterId), s.reaches p 0x031000 = true →
    (isCore p m = true → exec (.mbxLockWrite p m) s = .next { s with mbx := { s.mbx with lock := true } }) ∧
    (isCore p m = false → exec (.mbxLockWrite p m) s = .next { s with mbx := { s.mbx with reject := satAdd s.mbx.reject 1 } }))

/-- Message words cross once, doorbells notify, and bindings hold until the lock. -/
def Obligations.MailboxesCarryWordsAndDoorbells : Prop :=
  Part.MessageWordsCross ∧ Part.DoorbellsAndBindings

/-- Who may access the management window (R469-R474): an access that the rights do not allow is counted, recorded and has no other effect, a
misaligned one too; one of a District that is off, or beyond the window's path, does nothing; and a read that is allowed answers the value. -/
def Sys2Proof.Part.WindowAccessesAreChecked : Prop :=
  (∀ (s : State) (p : Sys2Proof.Path) (m : MasterId) (off : BitVec 24) (v : W32), s.reaches p off.toNat = true →
    (off.toNat % 4 ≠ 0 ∨ s.writeAccess p m off.toNat = .denied → exec (.registerWrite p m off v) s = .next (s.deny p m true)) ∧
    (off.toNat % 4 = 0 → s.writeAccess p m off.toNat = .down → exec (.registerWrite p m off v) s = .next s) ∧
    (off.toNat % 4 = 0 → s.writeAccess p m off.toNat = .ok → exec (.registerWrite p m off v) s = .next (s.writeOpen p m off.toNat v).1)) ∧
  (∀ (s : State) (p : Sys2Proof.Path) (m : MasterId) (off : BitVec 24) (v : W32), s.reaches p off.toNat = false →
    exec (.registerWrite p m off v) s = .next s ∧
    exec (.clearingRead p m off) s = .next { s with outbox := .readData p 0 :: s.outbox } ∧
    exec (.loReadLatch p m off) s = .next { s with outbox := .readData p 0 :: s.outbox }) ∧
  (∀ (s : State) (p : Sys2Proof.Path) (m : MasterId) (off : BitVec 24), s.reaches p off.toNat = true →
    (off.toNat % 4 ≠ 0 ∨ s.readAccess p m off.toNat = .denied →
      exec (.clearingRead p m off) s = .next ((s.deny p m false).emit (.readData p 0)) ∧
      exec (.loReadLatch p m off) s = .next ((s.deny p m false).emit (.readData p 0))) ∧
    (off.toNat % 4 = 0 → s.readAccess p m off.toNat = .ok → ∀ (u : State) (w : W32) (st : CStatus), s.readOpen p m off.toNat = (u, w, st) →
      exec (.clearingRead p m off) s = .next (u.emit (.readData p w)) ∧ exec (.loReadLatch p m off) s = .next (u.emit (.readData p w)))) ∧
  (∀ (s : State) (p : Sys2Proof.Path) (m : MasterId) (w : Bool),
    (s.deny p m w).glb.denied = satAdd s.glb.denied 1 ∧
    (s.deny p m w).glb.lastDenied = ((if w then 0x80000000#32 else 0) ||| m.setWidth 32) ∧
    (s.deny p m w).boot.i3cRefused = (s.boot.i3cRefused || decide (p = .i3c)) ∧ (s.deny p m w).chs = s.chs ∧ (s.deny p m w).dram = s.dram) ∧
  (∀ (s : State) (h : Fin 8) (w : Bool) (n : Nat) (off : BitVec 24) (v : W64),
    ((s.dieUp = false ∨ (s.hosts[h]).linkUp = false ∨ (s.hosts[h]).d3hot = true) → exec (.bar2Access h w off v n) s = .next s) ∧
    (s.dieUp = true → (s.hosts[h]).linkUp = true → (s.hosts[h]).d3hot = false →
      ∀ u : State, u = s.countFwd (if w then [.sw h, .plaza] else [.sw h, .plaza, .plaza, .sw h]) →
      let bad := (n ≠ 4 ∧ n ≠ 8) ∨ (n = 8 ∧ off.toNat % 8 ≠ 0)
      (bad → w = true → exec (.bar2Access h w off v n) s = .next (u.deny (.host h) (u.self h.val) true)) ∧
      (bad → w = false → exec (.bar2Access h w off v n) s = .next ((u.deny (.host h) (u.self h.val) false).emit (.cfgCpl h 0))) ∧
      (n = 4 → w = true → exec (.bar2Access h w off v n) s = .next (u.writeReg (.host h) (u.self h.val) off.toNat (v.setWidth 32)).1) ∧
      (n = 4 → w = false → ∀ (x : State) (r : W32) (st : CStatus), u.readReg (.host h) (u.self h.val) off.toNat = (x, r, st) →
        exec (.bar2Access h w off v n) s = .next (x.emit (.cfgCpl h (r.setWidth 64)))) ∧
      (n = 8 → off.toNat % 8 = 0 → w = true → exec (.bar2Access h w off v n) s = .next
        (((u.writeReg (.host h) (u.self h.val) off.toNat (v.setWidth 32)).1).writeReg (.host h) (u.self h.val) (off.toNat + 4)
          (v.extractLsb' 32 32)).1) ∧
      (n = 8 → off.toNat % 8 = 0 → w = false → ∀ (x y : State) (r q : W32) (st st' : CStatus),
        u.readReg (.host h) (u.self h.val) off.toNat = (x, r, st) → x.readReg (.host h) (u.self h.val) (off.toNat + 4) = (y, q, st') →
        exec (.bar2Access h w off v n) s = .next (y.emit (.cfgCpl h (q ++ r))))))

/-- The clearing of counters and the latch of a register's other half (R6, R471, R475): a read of an RC register by a master with WRITE clears it,
one by a master with READ alone does not; a read of a LO half latches HI for its path alone, and the path's read of HI returns the latched half. -/
def Sys2Proof.Part.ReadsClearAndLatch : Prop :=
  (∀ (s : State) (p : Sys2Proof.Path) (m : MasterId), s.reaches p 0x118 = true →
    ((s.rights p m).write = true → ∃ u : State, exec (.clearingRead p m 0x118) s = .next (u.emit (.readData p s.glb.synthCmp)) ∧
      u.glb = { s.glb with synthCmp := 0 } ∧ u.chs = s.chs ∧ u.cmd = s.cmd) ∧
    ((s.rights p m).read = true → (s.rights p m).write = false → (s.rights p m).core = false →
      exec (.clearingRead p m 0x118) s = .next (s.emit (.readData p s.glb.synthCmp)))) ∧
  (∀ (s : State) (p : Sys2Proof.Path) (m : MasterId), s.reaches p 0x508010 = true → s.readAccess p m 0x508010 = .ok →
    ∃ u : State, exec (.loReadLatch p m 0x508010) s = .next (u.emit (.readData p (s.fab.time.setWidth 32))) ∧
      u = { s with latches := u.latches } ∧ (u.latchOf p).rd = some (0x508010, s.fab.time.extractLsb' 32 32) ∧
      (∀ q, q ≠ p → u.latchOf q = s.latchOf q)) ∧
  (∀ (s : State) (p : Sys2Proof.Path) (hi : W32), (s.latchOf p).rd = some (0x508010, hi) → s.latchedValue p 0x508014 = hi) ∧
  (∀ (s : State) (p : Sys2Proof.Path), (∀ hi, (s.latchOf p).rd ≠ some (0x508010, hi)) → s.latchedValue p 0x508014 = s.fab.time.extractLsb' 32 32) ∧
  (∀ (s u : State) (p : Sys2Proof.Path) (i : Fin 16) (lo hi : W32), u = s.grantWrite p (0x40 + 8 * i.val) lo →
    u.glb = s.glb ∧ (u.grantWrite p (0x44 + 8 * i.val) hi).glb.grants = s.glb.grants.set i.val ((hi ++ lo) &&& 0xE00000FFFFFFFFFF#64) ∧
    ((s.latchOf p).wr = none → s.grantWrite p (0x44 + 8 * i.val) hi = s))

/-- Window accesses act within their rights, and reads clear or latch as their register says. -/
def Obligations.WindowAccessesAreChecked : Prop :=
  Part.WindowAccessesAreChecked ∧ Part.ReadsClearAndLatch

/-- Cold resets (R380, R384, R386, R407): DEV_RST_N falling and an undervoltage put every field at its reset value but fuses,
pins, supplies and the outside, and give CAUSE and UV_RAIL; the stack leaves reset once every rail is good, both resets are high
and nothing holds it. -/
def Sys2Proof.Part.ColdResetsClear : Prop :=
  ∀ s : State,
    (s.boot.devRstHigh = true → ∃ t : State, exec .devRstAssert s = .next t ∧ t.boot.cause = 1 ∧ t.boot.phase = .held ∧
      t.boot.devRstHigh = false ∧ t.fuse = { blown := s.fuse.blown } ∧ t.dram = [] ∧ t.sec = {} ∧ t.flt = {} ∧ t.cmd = {} ∧ t.fab = {} ∧
      t.glb = { variant := s.glb.variant } ∧ t.boot.warmCount = 0 ∧ t.tap = {} ∧ t.slew = {} ∧ t.boot.rails = s.boot.rails ∧ t.pending = s.pending ∧ t.strobe = s.strobe) ∧
    (s.boot.devRstHigh = false → exec .devRstAssert s = .next s) ∧
    (∀ r : Fin 7, ∃ t : State, exec (.railUndervoltage r) s = .next t ∧ t.boot.phase = .held ∧ t.boot.rails.getLsbD r.val = false ∧
      t.fuse = { blown := s.fuse.blown } ∧ t.dram = [] ∧ t.sec = {} ∧ t.flt = {} ∧ t.cmd = {} ∧ t.fab = {} ∧
      (r.val = 3 → t.boot.cause = 0 ∧ t.boot.uvRail = 0) ∧ (r.val < 3 → t.boot.cause = 2 ∧ t.boot.uvRail = r.val) ∧
      (3 < r.val → t.boot.cause = 2 ∧ t.boot.uvRail = r.val - 1)) ∧
    (∀ c : Instr, ∀ u : State,
      (c = .devRstDeassert ∧ u = { s with boot := { s.boot with devRstHigh := true } } ∨
       c = .warmRstDeassert ∧ u = { s with boot := { s.boot with warmRstHigh := true } } ∨
       c = .railsGood ∧ u = { s with boot := { s.boot with rails := 0x7F#7 } } ∨
       c = .refclkRestored ∧ u = { s with boot := { s.boot with ref0 := true, ref1 := true, refHold := false } }) →
      ((u.boot.phase = .held ∧ u.boot.devRstHigh = true ∧ u.boot.warmRstHigh = true ∧ u.boot.rails = 0x7F#7 ∧ u.boot.refHold = false ∧
          u.boot.tripHold = false) →
        exec c s = .next { u with boot := { u.boot with phase := .released, leftReset := u.now } }) ∧
      (¬(u.boot.phase = .held ∧ u.boot.devRstHigh = true ∧ u.boot.warmRstHigh = true ∧ u.boot.rails = 0x7F#7 ∧ u.boot.refHold = false ∧
          u.boot.tripHold = false) → exec c s = .next u))

/-- Causes of a warm reset (R383, R384, R387, R388): WARM_RST_N falling asks for one with CAUSE 4; a lost reference clock logs
REFCLK_LOSS, holds the stack and asks with CAUSE 6; a cause has no further effect while a sequence runs. -/
def Sys2Proof.Part.WarmResetsAreAsked : Prop :=
  ∀ s : State,
    (s.boot.warmRstHigh = true → s.boot.warmReq = none → s.boot.phase ≠ .held → (∀ n, s.boot.phase ≠ .warm n) →
      exec .warmRstAssert s = .next { s with boot := { s.boot with warmRstHigh := false, warmReq := some 4 } }) ∧
    (s.boot.warmRstHigh = true → (s.boot.warmReq ≠ none ∨ s.boot.phase = .held ∨ ∃ n, s.boot.phase = .warm n) →
      exec .warmRstAssert s = .next { s with boot := { s.boot with warmRstHigh := false } }) ∧
    (s.boot.warmRstHigh = false → exec .warmRstAssert s = .next s) ∧
    (∀ input : Bool, ∃ t : State, exec (.refclkLoss input) s = .next t ∧ t.boot.refHold = true ∧
      (input = false → t.boot.ref0 = false ∧ t.boot.ref1 = s.boot.ref1) ∧ (input = true → t.boot.ref1 = false ∧ t.boot.ref0 = s.boot.ref0) ∧
      (s.boot.warmReq = none → s.boot.phase ≠ .held → (∀ n, s.boot.phase ≠ .warm n) → t.boot.warmReq = some 6) ∧
      t.flt = (s.log evRefclkLoss (detail 0 (b2n (!t.boot.ref0) + 2 * b2n (!t.boot.ref1)))).flt ∧
      t = { s with boot := t.boot, flt := t.flt }) ∧
    (s.boot.warmReq = none → exec .warmResetBegin s = .next s) ∧
    (∀ k, s.boot.warmReq = some k → (∀ n, s.boot.phase ≠ .warm n) →
      ((s.flt.stopped = true ∨ s.dieInReset = true) → exec .warmResetBegin s = .next { s with boot := { s.boot with phase := .warm 2 } }) ∧
      (s.flt.stopped = false → s.dieInReset = false → ∃ t : State, exec .warmResetBegin s = .next t ∧ t.boot.phase = .warm 1 ∧
        t.fab.detaching = true ∧ t.cmd.stopped = true ∧ (∀ e : Fin 64, (t.engs.eng[e]).run = none) ∧ t.dram = s.dram))

/-- Cold resets clear, and causes of a warm reset are taken as R388 says. -/
def Obligations.ColdAndWarmResetsAreTaken : Prop :=
  Part.ColdResetsClear ∧ Part.WarmResetsAreAsked

/-- The warm-reset sequence ends (R18, R386, R387, R407, R443): once through-traffic has drained or its limit has run out, step 5
follows; once every channel is parked and no host is owed, the machine resets, keeps RET, AON and DRAM, and counts the reset. -/
def Obligations.WarmResetKeepsWhatR386Keeps : Prop :=
  (∀ s : State, s.boot.phase = .warm 1 →
    (s.throughEmpty = true → exec .throughTrafficDrained s = .next s.warmDrained) ∧
    (s.throughEmpty = false → exec .throughTrafficDrained s = .next s) ∧
    exec .drainTimeLimit s = .next s.warmDrained) ∧
  (∀ s : State, s.warmDrained.boot.phase = .warm 2) ∧
  (∀ s : State, s.boot.phase = .warm 2 → s.flt.stopped = false →
    ((∃ n : Fin 64, (s.chs[n]).parked = false) → exec .warmDrainEnd s = .next s) ∧
    ((∀ n : Fin 64, (s.chs[n]).parked = true) → (∀ h : Fin 8, (s.hosts[h]).pend = []) → ∃ t : State,
      exec .warmDrainEnd s = .next t ∧ t.dram = s.dram ∧ t.sec.pat = s.sec.pat ∧ t.sec.keys = s.sec.keys ∧ t.sec.roots = s.sec.roots ∧
      t.sec.groups = s.sec.groups ∧ t.sec.sticky = s.sec.sticky ∧ t.sec.configured = s.sec.configured ∧ t.sec.cache = [] ∧
      t.glb.mapLock = s.glb.mapLock ∧ t.glb.mapOrder = s.glb.mapOrder ∧ t.glb.nodeEpoch = s.glb.nodeEpoch ∧ t.glb.grants = s.glb.grants ∧
      (∀ n : Fin 64, (t.chs[n]).ctl.epoch = (s.chs[n]).ctl.epoch ∧ (t.chs[n]).ecc.initDone = (s.chs[n]).ecc.initDone ∧
        (t.chs[n]).tsv.sinceTrain = n.val * 16777216 ∧ (t.chs[n]).adm = {}) ∧
      (∀ c : Fin 64, (t.mbx.ch[c]).bindA = (s.mbx.ch[c]).bindA ∧ (t.mbx.ch[c]).bindB = (s.mbx.ch[c]).bindB) ∧ t.mbx.lock = s.mbx.lock ∧
      t.flt.hist = s.flt.hist ∧ t.flt.first = s.flt.first ∧ t.flt.faultHold = s.flt.faultHold ∧ t.flt.wireFault = false ∧
      t.fab.nodeId = 0xFFF#12 ∧ t.fab.route = [] ∧ t.fab.parent = none ∧ t.fab.cur = s.fab.cur ∧ t.fab.nonce = s.fab.nonce ∧
      t.cmd.segs = s.cmd.segs ∧ t.boot.window = [] ∧ t.boot.warmCount = satAdd s.boot.warmCount 1 ∧
      t.boot.cause = s.boot.warmReq.getD 4 ∧ t.fuse = { blown := s.fuse.blown } ∧ t.tap = s.tap ∧ t.slew = {} ∧
      (∀ r : Fin 32, (t.cmd.rings[r]).en = false)))

/-- From reset to the boot state (R389, R391, R410, R117, R392): straps take the majority of three samples, fuses are sensed, the
slices are tested and the boot ROM starts every District's switches and enters the boot state or FUSE_ALARM; each step waits for
the one before it. -/
def Sys2Proof.Part.StartUpFollowsItsSteps : Prop :=
  ∀ s : State,
    (s.boot.phase = .released → ∀ (a b c : BitVec 6), ∃ t : State, exec (.strapSample a b c) s = .next t ∧ t.boot.phase = .strapped ∧
      (∀ i : Nat, t.boot.straps.getLsbD i = (a.getLsbD i && b.getLsbD i || a.getLsbD i && c.getLsbD i || b.getLsbD i && c.getLsbD i)) ∧
      t = { s with boot := { s.boot with straps := t.boot.straps, phase := .strapped } }) ∧
    (s.boot.phase ≠ .released → ∀ (a b c : BitVec 6), exec (.strapSample a b c) s = .next s) ∧
    (s.boot.phase = .strapped → ∀ rs : List FuseSense, ∃ t : State, exec (.fuseSensing rs) s = .next t ∧ t.boot.phase = .sensed ∧
      t.fuse.sensed = true ∧ t.fuse.blown = s.fuse.blown ∧ (∀ w, w ∈ t.fuse.marginal ↔ w < 2048 ∧ ∃ r ∈ rs, r.word = w ∧ r.low ≠ r.high) ∧
      (t.fuse.alarm = true ↔ ∃ r ∈ rs, r.word < 2048 ∧ r.low ≠ r.high) ∧ t = { s with boot := t.boot, fuse := t.fuse, flt := t.flt }) ∧
    (s.boot.phase ≠ .strapped → ∀ rs : List FuseSense, exec (.fuseSensing rs) s = .next s) ∧
    (s.boot.phase = .sensed → exec (.checkerSelftest []) s = .next
      { (s.mapChs (fun _ c => { c with ecc := { c.ecc with selftest := 0x40000000#32 } })) with boot := { s.boot with phase := .tested } }) ∧
    (s.boot.phase ≠ .sensed → ∀ rs : List ChanTest, exec (.checkerSelftest rs) s = .next s) ∧
    (s.boot.phase = .tested → s.flt.stopped = false → ∃ t : State, exec .bootRomReady s = .next t ∧
      (∀ i : Nat, i < 4 → t.boot.usable.getLsbD i = s.digestUsable i) ∧
      t.boot.phase = (if s.bootHalts t.boot.usable then .fuseAlarm else .boot) ∧ t.boot.cxlPath = s.cxlOpen ∧
      t.boot.scezoPath = s.scezoOpen ∧ t.boot.i3cPath = true ∧ t.boot.fullTest = s.regionDoubt 1 ∧
      (∀ k : Fin 8, (t.dist[k]).fn.st = .starting) ∧ t.flt = s.flt ∧ t.chs = s.chs ∧ t.dram = s.dram) ∧
    (s.boot.phase ≠ .tested → exec .bootRomReady s = .next s)

/-- Firmware start-up (R401, R403): Districts enter ON, the fill runs where it is due, LOCK, rings and scrubber follow, and the
stack is ready, with READY_TIME in µs from leaving reset, once every condition of R403 holds. -/
def Sys2Proof.Part.FirmwareStartsTheStack : Prop :=
  ∀ s : State, s.boot.phase = .starting → s.flt.stopped = false →
    (s.boot.fwStep = 0 → ∃ t : State, exec .firmwareStartup s = .next t ∧ t = s.fwFirst ∧ t.boot.fwStep = 1) ∧
    (s.boot.fwStep = 1 → s.allOn = false → exec .firmwareStartup s = .next s) ∧
    (s.boot.fwStep = 1 → s.allOn = true → s.boot.fillNeeded = true → s.glb.mapLock = false →
      exec .firmwareStartup s = .next s.fwFill ∧ s.fwFill.boot.fwStep = 2) ∧
    ((s.boot.fwStep = 1 ∧ s.allOn = true ∧ (s.boot.fillNeeded = false ∨ s.glb.mapLock = true) ∨ s.boot.fwStep = 2 ∧ s.filled = true) →
      ∃ t : State, exec .firmwareStartup s = .next t ∧ t.glb.mapLock = true ∧ t.cmd.ringsReady = true ∧ t.boot.fwStep = 3 ∧
      (∀ r : Fin 32, (t.cmd.rings[r]).en = decide (r.val < 8)) ∧ (s.scrub.fn.st = .off → t.scrub.fn.st = .starting)) ∧
    (s.boot.fwStep = 2 → s.filled = false → exec .firmwareStartup s = .next s) ∧
    (let ready : Prop := (∀ k : Fin 8, s.distOn k = true) ∧ s.glb.mapLock = true ∧
        (s.boot.fillNeeded = true → ∀ n : Fin 64, (s.chs[n]).tsv.offline = true ∨ (s.chs[n]).ecc.initDone = true) ∧
        segValid (smGetD s.cmd.segs 0 0) = true ∧ s.cmd.ringsReady = true ∧ s.scrub.fn.st = .on
     (ready → exec .stackReady s = .next { s with boot := { s.boot with
        phase := .ready, readyTime := BitVec.ofNat 32 ((s.now - s.boot.leftReset) / 1000) } }) ∧
     (¬ready → exec .stackReady s = .next s))

/-- Start-up follows its steps from straps to STACK_READY. -/
def Obligations.StartUpReachesReady : Prop :=
  Part.StartUpFollowsItsSteps ∧ Part.FirmwareStartsTheStack

/-- Districts and functions reach rest (R19, R89, R154, R228, R360-R362): a start ends ON with the next generation and its channels
trained; a stop drains its channels once its jobs and requests have ended, and then switches off, keeping epochs and INIT_DONE. -/
def Obligations.DistrictsReachRest : Prop :=
  (∀ (s : State) (k : Fin 8), (s.dist[k]).fn.st = .starting → s.fwRunning = true →
    (∀ n : Fin 64, distOf n = k → (s.chs[n]).ctl.srxFrom ≤ s.strobe) → ∀ rs : List ChanStart, ∃ t : State,
    exec (.districtStartingEnd k rs) s = .next t ∧ (t.dist[k]).fn.st = .on ∧ (t.dist[k]).gen = (s.dist[k]).gen + 1 ∧
    (∀ j : Fin 8, j ≠ k → t.dist[j] = s.dist[j]) ∧ (∀ n : Fin 64, distOf n ≠ k → t.chs[n] = s.chs[n])) ∧
  (∀ (s : State) (ch : Fin 64) (age : AgeCounts), (s.chs[ch]).tsv.offline = false →
    let t := s.trainFull ch true age
    (t.chs[ch]).ctl.state = .run ∧ (t.chs[ch]).ctl.rowFrom = s.strobe + 64 ∧ (t.chs[ch]).tsv.aligned = true ∧
    (t.chs[ch]).ctl.epoch = (s.chs[ch]).ctl.epoch + 1 ∧ t.glb.nodeEpoch = s.glb.nodeEpoch + 1 ∧
    (t.chs[ch]).tsv.sinceTrain = (s.chs[ch]).tsv.sinceTrain ∧ (∀ n : Fin 64, n ≠ ch → t.chs[n] = s.chs[n])) ∧
  (∀ (s : State) (k : Fin 8), (s.dist[k]).fn.st = .stopping → (s.dist[k]).drained = false →
    (s.distQuiet k = false → exec (.districtJobsEnded k) s = .next s) ∧
    (s.distQuiet k = true → ∃ t : State, exec (.districtJobsEnded k) s = .next t ∧ (t.dist[k]).drained = true ∧
      (t.dist[k]).fn = (s.dist[k]).fn)) ∧
  (∀ (s : State) (k : Fin 8), (s.dist[k]).fn.st = .stopping → (s.dist[k]).drained = true →
    ((s.distEmpty k = false ∨ ∃ n : Fin 64, distOf n = k ∧ (s.chs[n]).parked = false) → exec (.districtOff k) s = .next s) ∧
    (s.distEmpty k = true → (∀ n : Fin 64, distOf n = k → (s.chs[n]).parked = true) → ∃ t : State, exec (.districtOff k) s = .next t ∧ (t.dist[k]).fn.st = .off ∧
      (t.dist[k]).fn.deferred = (s.dist[k]).fn.deferred ∧ (t.dist[k]).gen = (s.dist[k]).gen ∧
      (∀ n : Fin 64, distOf n = k → (t.chs[n]).ctl.epoch = (s.chs[n]).ctl.epoch ∧ (t.chs[n]).ctl.state = .off ∧
        (t.chs[n]).ecc.initDone = (s.chs[n]).ecc.initDone ∧ (t.chs[n]).tsv.offline = false ∧ (t.engs.eng[n]).gen = (s.engs.eng[n]).gen) ∧
      (∀ n : Fin 64, distOf n ≠ k → (t.chs[n]).ctl.epoch = (s.chs[n]).ctl.epoch) ∧ t.dram = s.dram)) ∧
  (∀ (s : State) (e : Fin 64),
    ((s.engs.eng[e]).fn.st = .starting → exec (.engineStartingEnd e) s =
      .next (s.modEng e (fun x => { x with fn := { x.fn with st := .on }, gen := x.gen + 1 }))) ∧
    ((s.engs.eng[e]).fn.st = .stopping → s.engIdle e = true → exec (.engineStoppingEnd e) s =
      .next (s.modEng e (fun x => { x with fn := { x.fn with st := .off } })))) ∧
  (∀ s : State, (∀ k : Fin 8, fnDue (s.dist[k]).fn = none) → (∀ p : Fin 64, fnDue (s.ports[p]).fn = none) →
    (∀ e : Fin 64, fnDue (s.engs.eng[e]).fn = none) →
    (fnDue s.scrub.fn = none → exec .functionDeferredStart s = .next s) ∧
    (s.scrub.fn = ⟨.on, some false⟩ → exec .functionDeferredStart s = .next { s with scrub := { s.scrub with fn := { st := .stopping } } }))

/-- The boot window and I3C (R394, R396, R397, R475): a write that an open path may make during a load lands, any other is refused
as its path's kind is; reads through an open path return the window; the management window reads and writes registers. -/
def Obligations.TheBootWindowIsServed : Prop :=
  ∀ s : State,
    (∀ (p : Sys2Proof.Path) (m : MasterId) (off : BitVec 22) (d : List Byte),
      (s.windowTakes p m off.toNat = true → exec (.bootWindowWrite p m off d) s = .next (s.winStore off.toNat d)) ∧
      (p = .i3c → s.windowTakes p m off.toNat = false → s.i3cServes = true →
        exec (.bootWindowWrite p m off d) s = .next { s with boot := { s.boot with i3cRefused := true } })) ∧
    (s.i3cServes = true → ∀ scl : Nat,
      (∀ u : State, (u.i3cStop scl).slew = { u.slew with sda := slewStep scl } ∧ u.i3cStop scl = { u with slew := (u.i3cStop scl).slew }) ∧
      (∀ (off : BitVec 32) (d : List Byte), off.toNat < 4194304 → 1 ≤ d.length → d.length ≤ 256 →
        (s.windowTakes .i3c (s.self agentFuse) off.toNat = true → exec (.winWrite off d scl) s = .next ((s.winStore off.toNat d).i3cStop scl)) ∧
        (s.windowTakes .i3c (s.self agentFuse) off.toNat = false →
          exec (.winWrite off d scl) s = .next (s.i3cRefuse.i3cStop scl))) ∧
      s.i3cRefuse = { s with boot := { s.boot with i3cRefused := true } } ∧
      (∀ (off : BitVec 32) (n : Nat), off.toNat + n ≤ 4194304 → 1 ≤ n → s.i3cOpen = true → s.boot.phase ≠ .fuseAlarm → exec (.winRead off n scl) s =
        .next ((s.bump.emit (.i3c ((List.range n).map (fun i => smGetD s.boot.window (off.toNat + i) 0)))).i3cStop scl)) ∧
      (∀ off : BitVec 32, 4194304 ≤ off.toNat →
        (∀ n, exec (.winRead off n scl) s = .next (s.i3cRefuse.i3cStop scl)) ∧
        (∀ d, exec (.winWrite off d scl) s = .next (s.i3cRefuse.i3cStop scl))) ∧
      (∀ a : BitVec 7, exec (.i3cAddressAssign a scl) s = .next (({ s with boot := { s.boot with i3cDyn := some a } } : State).i3cStop scl)) ∧
      (∀ op : Byte, exec (.i3cRefused op scl) s = .next (s.i3cRefuse.i3cStop scl)) ∧
      (∀ (o : BitVec 24) (v : W32), exec (.mgmtWrite o v scl) s = .next ((s.writeReg .i3c (s.self agentFuse) o.toNat v).1.i3cStop scl) ∧
        exec (.mgmtRead o scl) s = .next (((s.readReg .i3c (s.self agentFuse) o.toNat).1.emit
          (.i3c (toBytes (s.readReg .i3c (s.self agentFuse) o.toNat).2.1 4))).i3cStop scl))) ∧
    (s.i3cServes = false → ∀ (off : BitVec 32) (d : List Byte) (n scl : Nat) (a : BitVec 7) (op : Byte) (o : BitVec 24) (v : W32),
      exec (.winWrite off d scl) s = .next s ∧ exec (.winRead off n scl) s = .next s ∧ exec (.i3cAddressAssign a scl) s = .next s ∧
      exec (.i3cRefused op scl) s = .next s ∧ exec (.mgmtWrite o v scl) s = .next s ∧ exec (.mgmtRead o scl) s = .next s)

/-- Reports (R429, R432-R434, R438-R441, R443-R445, R448): the collector counts the event and its class, fills the first-error
record and the history and carries out the reaction; a broken wire is reported once and then ignored. -/
def Sys2Proof.Part.ReportsAreHandled : Prop :=
  (∀ (s : State) (src : BitVec 12), (s.flt.src src.toNat).capture = none → exec (.faultReport src) s = .next s) ∧
  (∀ (s : State) (src : BitVec 12) (c : Capture), (s.flt.src src.toNat).capture = some c → ∃ t : State,
    exec (.faultReport src) s = .next t ∧
    (t.flt.src src.toNat).capture = none ∧ (t.flt.src src.toNat).count = satAdd (s.flt.src src.toNat).count 1 ∧
    (fltClass src.toNat = 1 → t.flt.countCorr = satAdd s.flt.countCorr 1 ∧ t.flt.first = s.flt.first) ∧
    (fltClass src.toNat = 2 → t.flt.countCont = satAdd s.flt.countCont 1) ∧
    (fltClass src.toNat = 3 → t.flt.countFatal = satAdd s.flt.countFatal 1) ∧
    (2 ≤ fltClass src.toNat → s.flt.first = none → t.flt.first = some (s.recordOf src.toNat c)) ∧
    (2 ≤ fltClass src.toNat → s.flt.first ≠ none → t.flt.first = s.flt.first ∧ t.flt.firstMultiple = true ∧
      (fltClass src.toNat = 3 → t.flt.fatalLater = true)) ∧
    (let rx := (s.flt.src src.toNat).reaction
     (rx.getLsbD 6 = true → t.flt.faultLow = true ∧ t.flt.faultHold = true ∧ t.flt.faultSince = s.now) ∧
     (rx.getLsbD 6 = false → t.flt.faultLow = s.flt.faultLow ∧ t.flt.faultHold = s.flt.faultHold) ∧
     (rx.getLsbD 5 = true → t.flt.alertLow = true ∧ t.flt.alertSince = s.now) ∧
     (rx.getLsbD 5 = false → t.flt.alertPend = s.flt.alertPend) ∧
     (rx.getLsbD 4 = true → t.flt.irqPend = s.flt.irqPend ||| BitVec.ofNat 8 (2 ^ fieldN rx 0 3)) ∧
     (rx.getLsbD 4 = false → t.flt.irqPend = s.flt.irqPend ∧ t.hosts = s.hosts ∧ t.outbox = s.outbox) ∧
     (rx.getLsbD 3 = false → t.flt.hist = s.flt.hist ∧ t.flt.held = s.flt.held) ∧
     (rx.getLsbD 3 = true → s.flt.hist = [] → t.flt.hist = [(0, s.recordOf src.toNat c)] ∧ t.flt.held = 1) ∧
     (rx.getLsbD 7 = true → s.boot.warmReq = none → s.boot.phase = .ready → t.boot.warmReq = some 7) ∧
     (rx.getLsbD 7 = false → t.boot = s.boot)) ∧
    t = { s with flt := t.flt, hosts := t.hosts, outbox := t.outbox, boot := t.boot }) ∧
  (∀ (s : State) (src : BitVec 12), (fltClass src.toNat = 0 ∨ (s.flt.src src.toNat).broken = true) → exec (.reportWire src) s = .next s) ∧
  (∀ (s : State) (src : BitVec 12), fltClass src.toNat ≠ 0 → (s.flt.src src.toNat).broken = false → ∃ t : State,
    exec (.reportWire src) s = .next t ∧ (t.flt.src src.toNat).broken = true ∧ t.flt.wireFault = true ∧
    (src.toNat ≠ 1 → (s.flt.src 1).capture = none → (s.flt.src 1).broken = false →
      (t.flt.src 1).capture = none ∧ (t.flt.src 1).count = satAdd (s.flt.src 1).count 1 ∧
      (s.flt.first = none → ∃ r : FaultRec, t.flt.first = some r ∧ r.source = 1#12 ∧ r.broken = false ∧
        r.addr = BitVec.ofNat 52 (s.fab.nodeId.toNat * 1099511627776 + src.toNat))) ∧
    ((s.flt.src src.toNat).reaction.getLsbD 6 = true → t.flt.faultLow = true ∧ t.flt.faultHold = true))

/-- The collector's pins (R430, R443, R444): FAULT_N rises 10 µs after its last event once FAULT_HOLD reads 0 and no device stop
holds it; ALERT_N rises once every ALERT_PEND bit is clear and 1 µs has passed; FAULT_HOLD_CLEAR clears the hold. -/
def Sys2Proof.Part.PinsAreReleased : Prop :=
  ∀ s : State,
    (s.flt.faultLow = true → s.flt.faultHold = false → s.flt.stopped = false → s.flt.faultSince + 10000 ≤ s.now →
      exec .faultNRelease s = .next { s with flt := { s.flt with faultLow := false } }) ∧
    ((s.flt.faultHold = true ∨ s.flt.stopped = true ∨ s.now < s.flt.faultSince + 10000) → exec .faultNRelease s = .next s) ∧
    (s.flt.alertLow = true → s.flt.alertPend = 0 → s.flt.alertSince + 1000 ≤ s.now →
      exec .alertNRelease s = .next { s with flt := { s.flt with alertLow := false } }) ∧
    ((s.flt.alertPend ≠ 0 ∨ s.now < s.flt.alertSince + 1000) → exec .alertNRelease s = .next s) ∧
    (∀ (p : Sys2Proof.Path) (m : MasterId),
      (Writable s p m 0x020004 → exec (.faultHoldClear p m) s = .next { s with flt := { s.flt with faultHold := false } }) ∧
      (s.writeAccess p m 0x020004 = .denied → exec (.faultHoldClear p m) s = .next (s.deny p m true)))

/-- Forced events and parity of the shadows (R412, R435, R447): a forced source reports with ACCESS 0x3F, FORCED and the writer's
identity and its unit does nothing; a shadow that fails parity is logged once; the collector reloads its time outside reset. -/
def Sys2Proof.Part.ForcedEventsAndShadowParity : Prop :=
  (∀ (s : State) (p : Sys2Proof.Path) (m : MasterId) (src : BitVec 12), Writable s p m (0x024000 + 4 * src.toNat) →
    (isCore p m = false → exec (.srcForce p m src) s = .next s) ∧
    (isCore p m = true → fltClass src.toNat = 0 → exec (.srcForce p m src) s = .next s) ∧
    (isCore p m = true → fltClass src.toNat ≠ 0 → (s.flt.src src.toNat).broken = false → (s.flt.src src.toNat).capture = none →
      exec (.srcForce p m src) s = .next { s with flt := s.flt.modSrc src.toNat (fun x => { x with capture := some {
        addr := BitVec.ofNat 52 (s.fab.nodeId.toNat * 1099511627776), access := 0x3F#6, master := m, status := 0, forced := true,
        time := s.flt.time } }) }) ∧
    (isCore p m = true → fltClass src.toNat ≠ 0 → (s.flt.src src.toNat).broken = false → (s.flt.src src.toNat).capture ≠ none →
      exec (.srcForce p m src) s = .next { s with flt := s.flt.modSrc src.toNat (fun x => { x with count := satAdd x.count 1 }) })) ∧
  (∀ (s : State) (w : Nat), s.fuse.sensed = true → w < 2048 →
    (w ∈ s.fuse.parityBad → exec (.shadowParityCheck [w]) s = .next s) ∧
    (w ∉ s.fuse.parityBad → exec (.shadowParityCheck [w]) s = .next (({ s with fuse := { s.fuse with
        parityBad := w :: s.fuse.parityBad, parityRegions := setBit s.fuse.parityRegions (regionOf w) true } }).log evFuseParity
        (detail 0 w) acFuse (s.self agentFuse)))) ∧
  (∀ s : State,
    (s.dieInReset = false → exec .collectorTimeReload s = .next { s with flt := { s.flt with time := s.fab.time } }) ∧
    (s.dieInReset = true → exec .collectorTimeReload s = .next s))

/-- Reports fill records and drive pins, and pins rise as their rules say; forced events act on records alone. -/
def Obligations.FaultsAreReportedOnPinsAndRecords : Prop :=
  Part.ReportsAreHandled ∧ Part.PinsAreReleased ∧ Part.ForcedEventsAndShadowParity

/-- A device stop (R430, R455): CORE_FAIL stops the device; every channel that is not offline enters self-refresh without DRAIN, its
queued lines are lost, engines and the dispatcher stop, host links go down and FAULT_N is held low; DRAM keeps its content. -/
def Sys2Proof.Part.DeviceStops : Prop :=
  ∀ s : State, s.dieUp = true → ∀ core : Fin 4, ∃ t : State, exec (.coreFail core) s = .next t ∧ t.flt.stopped = true ∧
    t.flt.faultLow = true ∧ t.flt.pin.getLsbD 30 = true ∧ t.cmd.stopped = true ∧ t.cmd.waits = [] ∧ t.engs.jobs = [] ∧ t.reqPlane = [] ∧
    (∀ n : Fin 64, (s.chs[n]).tsv.offline = false → (s.chs[n]).ctl.state ≠ .off →
      (t.chs[n]).ctl.wq = [] ∧ (t.chs[n]).ctl.rq = [] ∧ (t.chs[n]).ctl.state = .selfRefresh) ∧
    (∀ n : Fin 64, (s.chs[n]).tsv.offline = true → (t.chs[n]).tsv.offline = true) ∧ (∀ e : Fin 64, (t.engs.eng[e]).run = none) ∧
    (∀ k : Fin 8, (t.hosts[k]).linkUp = false) ∧ t.dram = s.dram ∧ t.sec.pat = s.sec.pat ∧ t.sec.keys = s.sec.keys ∧ t.fuse = s.fuse ∧
    ((s.flt.src evCoreFail).capture = none → (s.flt.src evCoreFail).broken = false → (t.flt.src evCoreFail).capture ≠ none)

/-- Heat and power (R451-R461): a sample sets the readings and thresholds and trips the device above 115 °C; the trip's hold ends once
every sensor has cooled to 95 °C; an interval moves the Governor's level by one, or to 32 at once, and records P. -/
def Sys2Proof.Part.HeatAndPowerAreGoverned : Prop :=
  (∀ (s : State) (rs : List SensorRead), ∃ t : State, exec (.sensorSample rs) s = .next t ∧
    (∀ i : Fin 162, sensorExists s.glb.variant i.val = true → ∀ r, rs.find? (fun r => r.sensor = i) = some r →
      (t.thm.sensors[i]).valid = true ∧ (t.thm.sensors[i]).temp = r.temp) ∧
    (s.boot.tripHold = false → (t.boot.tripHold = true ↔ ∃ i : Fin 162, (t.thm.sensors[i]).valid = true ∧ 1840 < (t.thm.sensors[i]).temp)) ∧
    (s.boot.tripHold = false → t.boot.tripHold = true → t.thm.tripped = true ∧ t.flt.stopped = true) ∧
    (∀ i : Fin 162, (s.thm.sensors[i]).failed = true → (t.thm.sensors[i]).failed = true) ∧ t.dram = s.dram) ∧
  (∀ s : State,
    (s.boot.tripHold = true → (∀ i : Fin 162, sensorExists s.glb.variant i.val = true → (s.thm.sensors[i]).failed = true ∨
        (s.thm.sensors[i]).valid = true ∧ (s.thm.sensors[i]).temp ≤ 1520) →
      exec .tripCooled s = .next ({ s with boot := { s.boot with tripHold := false } }).leaveReset) ∧
    ((s.boot.tripHold = false ∨ ∃ i : Fin 162, sensorExists s.glb.variant i.val = true ∧ (s.thm.sensors[i]).failed = false ∧
        1520 < (s.thm.sensors[i]).temp) → exec .tripCooled s = .next s)) ∧
  (∀ (s : State) (p : BitVec 16), ∃ t : State, exec (.governorInterval p) s = .next t ∧ t.thm.power = p ∧ t.thm.capNow = s.thm.cap ∧
    t.thm.cap = s.thm.cap ∧
    (let l := s.thm.nextLevel
     let cap := s.thm.effCap
     (s.thm.scale = true → l < 32 → t.thm.nextLevel = 32) ∧
     (s.thm.scale = false → s.thm.throttle = false → 10 * cap < p.toNat → t.thm.nextLevel = min 46 (l + 1)) ∧
     (s.thm.scale = false → s.thm.throttle = false → p.toNat + 50 ≤ 10 * cap → (∀ d : Fin 33, (s.thm.dies[d]).a103 = false) →
       t.thm.nextLevel = l - 1) ∧
     (s.thm.scale = false → s.thm.throttle = false → p.toNat ≤ 10 * cap → 10 * cap < p.toNat + 50 → t.thm.nextLevel = l)) ∧
    (∀ i : Fin 162, t.thm.sensors[i] = s.thm.sensors[i]) ∧ t.chs = s.chs ∧ t.dram = s.dram)

/-- A device stop loses queued lines and keeps DRAM; heat and power move the governor. -/
def Obligations.HeatStopsAndGoverns : Prop :=
  Part.DeviceStops ∧ Part.HeatAndPowerAreGoverned

/-- The scrambled symbols of one lane, in the order in which its bytes go out. -/
def Sys2Proof.Part.scrambled : BitVec 31 → List Byte → List Byte
  | _, [] => []
  | g, x :: xs => (scramble g x).2 :: Part.scrambled (scramble g x).1 xs

/-- The lanes of a Scezo sub-link (R258, R259): a second pass through the scrambler from the same seed gives the symbol back; byte i of a
flit goes scrambled to logical lane i mod W, one symbol a lane and symbol time; a marker of sixteen symbols on every lane reseeds each lane
with 0x2AAA_AAAA XOR its number; and a marker that is sent is a good one that names node, QUIET and RETRAIN. Which bit leaves a generator is
the model's choice (log entry 96). -/
def Obligations.LanesCarryScrambledStripes : Prop :=
  (∀ (g : BitVec 31) (x : Byte), scramble g (scramble g x).2 = ((scramble g x).1, x)) ∧
  (∀ (l : SubLink) (lane : Fin 8) (node : BitVec 12) (seq : BitVec 16) (quiet retrain : Bool),
    let m : BitVec 128 := ofBytes 128 (markerBytes l lane.val node seq quiet retrain)
    (markerBytes l lane.val node seq quiet retrain).length = 16 ∧ markerOk m = true ∧ m.extractLsb' 48 12 = node ∧
    m.extractLsb' 64 16 = seq ∧ m.getLsbD 80 = quiet ∧ m.getLsbD 81 = retrain) ∧
  (∀ (s : State) (l : SubLink) (quiet retrain : Bool), ∃ cols : List (List Byte),
    (s.sendMarker l quiet retrain).wires = .symbols l cols :: s.wires ∧ cols.length = 16 ∧
    (∀ c ∈ cols, c.length = laneCount (s.subAt l).lanes) ∧
    ((s.sendMarker l quiet retrain).subAt l).gens = (List.range (laneCount (s.subAt l).lanes)).map (fun k => 0x2AAAAAAA#31 ^^^ BitVec.ofNat 31 k) ∧
    ((s.sendMarker l quiet retrain).subAt l).markerSeq = (s.subAt l).markerSeq + 1 ∧ (s.sendMarker l quiet retrain).outbox = s.outbox) ∧
  (∀ (s : State) (l : SubLink) (f : BitVec 2048) (w : Nat), w ∈ [1, 2, 4, 8] → laneCount (s.subAt l).lanes = w →
    (s.subAt l).gens.length = w → 0 < (s.subAt l).sym → (s.subAt l).sym + 256 / w ≤ 16384 →
    ∃ cols : List (List Byte), (s.sendFlit l f).wires = .symbols l cols :: s.wires ∧ cols.length = 256 / w ∧
      (s.sendFlit l f).outbox = .flit l f :: s.outbox ∧ ((s.sendFlit l f).subAt l).sym = ((s.subAt l).sym + 256 / w) % 16384 ∧
      ∀ k, k < w → cols.map (fun c => nth c k 0) =
        Part.scrambled (nth (s.subAt l).gens k 0) ((List.range (256 / w)).map (fun j => f.extractLsb' (8 * (w * j + k)) 8)))
end

