-- ==== Sys2Proof/Laws/State.lean ====
section
/-! SUPPORT. What each update of one unit leaves alone and what it changes: one lemma per field per update. -/

namespace Sys2Proof.Machine

/-! `State.modCh`. -/

@[simp] theorem State.modCh_pending (s : State) (n : Fin 64) (f : Channel → Channel) : (s.modCh n f).pending = s.pending := rfl
@[simp] theorem State.modCh_strobe (s : State) (n : Fin 64) (f : Channel → Channel) : (s.modCh n f).strobe = s.strobe := rfl
@[simp] theorem State.modCh_glb (s : State) (n : Fin 64) (f : Channel → Channel) : (s.modCh n f).glb = s.glb := rfl
@[simp] theorem State.modCh_dist (s : State) (n : Fin 64) (f : Channel → Channel) : (s.modCh n f).dist = s.dist := rfl
@[simp] theorem State.modCh_chs (s : State) (n : Fin 64) (f : Channel → Channel) : (s.modCh n f).chs = vmod s.chs n f := rfl
@[simp] theorem State.modCh_sec (s : State) (n : Fin 64) (f : Channel → Channel) : (s.modCh n f).sec = s.sec := rfl
@[simp] theorem State.modCh_retire (s : State) (n : Fin 64) (f : Channel → Channel) : (s.modCh n f).retire = s.retire := rfl
@[simp] theorem State.modCh_scrub (s : State) (n : Fin 64) (f : Channel → Channel) : (s.modCh n f).scrub = s.scrub := rfl
@[simp] theorem State.modCh_kerbs (s : State) (n : Fin 64) (f : Channel → Channel) : (s.modCh n f).kerbs = s.kerbs := rfl
@[simp] theorem State.modCh_mports (s : State) (n : Fin 64) (f : Channel → Channel) : (s.modCh n f).mports = s.mports := rfl
@[simp] theorem State.modCh_reqPlane (s : State) (n : Fin 64) (f : Channel → Channel) : (s.modCh n f).reqPlane = s.reqPlane := rfl
@[simp] theorem State.modCh_credits (s : State) (n : Fin 64) (f : Channel → Channel) : (s.modCh n f).credits = s.credits := rfl
@[simp] theorem State.modCh_flt (s : State) (n : Fin 64) (f : Channel → Channel) : (s.modCh n f).flt = s.flt := rfl
@[simp] theorem State.modCh_thm (s : State) (n : Fin 64) (f : Channel → Channel) : (s.modCh n f).thm = s.thm := rfl
@[simp] theorem State.modCh_hosts (s : State) (n : Fin 64) (f : Channel → Channel) : (s.modCh n f).hosts = s.hosts := rfl
@[simp] theorem State.modCh_ports (s : State) (n : Fin 64) (f : Channel → Channel) : (s.modCh n f).ports = s.ports := rfl
@[simp] theorem State.modCh_fab (s : State) (n : Fin 64) (f : Channel → Channel) : (s.modCh n f).fab = s.fab := rfl
@[simp] theorem State.modCh_cmd (s : State) (n : Fin 64) (f : Channel → Channel) : (s.modCh n f).cmd = s.cmd := rfl
@[simp] theorem State.modCh_mbx (s : State) (n : Fin 64) (f : Channel → Channel) : (s.modCh n f).mbx = s.mbx := rfl
@[simp] theorem State.modCh_boot (s : State) (n : Fin 64) (f : Channel → Channel) : (s.modCh n f).boot = s.boot := rfl
@[simp] theorem State.modCh_fuse (s : State) (n : Fin 64) (f : Channel → Channel) : (s.modCh n f).fuse = s.fuse := rfl
@[simp] theorem State.modCh_tap (s : State) (n : Fin 64) (f : Channel → Channel) : (s.modCh n f).tap = s.tap := rfl
@[simp] theorem State.modCh_slew (s : State) (n : Fin 64) (f : Channel → Channel) : (s.modCh n f).slew = s.slew := rfl
@[simp] theorem State.modCh_engs (s : State) (n : Fin 64) (f : Channel → Channel) : (s.modCh n f).engs = s.engs := rfl
@[simp] theorem State.modCh_latches (s : State) (n : Fin 64) (f : Channel → Channel) : (s.modCh n f).latches = s.latches := rfl
@[simp] theorem State.modCh_acts (s : State) (n : Fin 64) (f : Channel → Channel) : (s.modCh n f).acts = s.acts := rfl
@[simp] theorem State.modCh_arb (s : State) (n : Fin 64) (f : Channel → Channel) : (s.modCh n f).arb = s.arb := rfl
@[simp] theorem State.modCh_arbRef (s : State) (n : Fin 64) (f : Channel → Channel) : (s.modCh n f).arbRef = s.arbRef := rfl
@[simp] theorem State.modCh_slot (s : State) (n : Fin 64) (f : Channel → Channel) : (s.modCh n f).slot = s.slot := rfl
@[simp] theorem State.modCh_dram (s : State) (n : Fin 64) (f : Channel → Channel) : (s.modCh n f).dram = s.dram := rfl
@[simp] theorem State.modCh_outbox (s : State) (n : Fin 64) (f : Channel → Channel) : (s.modCh n f).outbox = s.outbox := rfl
@[simp] theorem State.modCh_wires (s : State) (n : Fin 64) (f : Channel → Channel) : (s.modCh n f).wires = s.wires := rfl
@[simp] theorem State.modCh_free (s : State) (n : Fin 64) (f : Channel → Channel) : (s.modCh n f).free = s.free := rfl

/-! `State.modCtl`. -/

@[simp] theorem State.modCtl_pending (s : State) (n : Fin 64) (f : Ctl → Ctl) : (s.modCtl n f).pending = s.pending := rfl
@[simp] theorem State.modCtl_strobe (s : State) (n : Fin 64) (f : Ctl → Ctl) : (s.modCtl n f).strobe = s.strobe := rfl
@[simp] theorem State.modCtl_glb (s : State) (n : Fin 64) (f : Ctl → Ctl) : (s.modCtl n f).glb = s.glb := rfl
@[simp] theorem State.modCtl_dist (s : State) (n : Fin 64) (f : Ctl → Ctl) : (s.modCtl n f).dist = s.dist := rfl
@[simp] theorem State.modCtl_chs (s : State) (n : Fin 64) (f : Ctl → Ctl) : (s.modCtl n f).chs = vmod s.chs n (fun c => { c with ctl := f c.ctl }) := rfl
@[simp] theorem State.modCtl_sec (s : State) (n : Fin 64) (f : Ctl → Ctl) : (s.modCtl n f).sec = s.sec := rfl
@[simp] theorem State.modCtl_retire (s : State) (n : Fin 64) (f : Ctl → Ctl) : (s.modCtl n f).retire = s.retire := rfl
@[simp] theorem State.modCtl_scrub (s : State) (n : Fin 64) (f : Ctl → Ctl) : (s.modCtl n f).scrub = s.scrub := rfl
@[simp] theorem State.modCtl_kerbs (s : State) (n : Fin 64) (f : Ctl → Ctl) : (s.modCtl n f).kerbs = s.kerbs := rfl
@[simp] theorem State.modCtl_mports (s : State) (n : Fin 64) (f : Ctl → Ctl) : (s.modCtl n f).mports = s.mports := rfl
@[simp] theorem State.modCtl_reqPlane (s : State) (n : Fin 64) (f : Ctl → Ctl) : (s.modCtl n f).reqPlane = s.reqPlane := rfl
@[simp] theorem State.modCtl_credits (s : State) (n : Fin 64) (f : Ctl → Ctl) : (s.modCtl n f).credits = s.credits := rfl
@[simp] theorem State.modCtl_flt (s : State) (n : Fin 64) (f : Ctl → Ctl) : (s.modCtl n f).flt = s.flt := rfl
@[simp] theorem State.modCtl_thm (s : State) (n : Fin 64) (f : Ctl → Ctl) : (s.modCtl n f).thm = s.thm := rfl
@[simp] theorem State.modCtl_hosts (s : State) (n : Fin 64) (f : Ctl → Ctl) : (s.modCtl n f).hosts = s.hosts := rfl
@[simp] theorem State.modCtl_ports (s : State) (n : Fin 64) (f : Ctl → Ctl) : (s.modCtl n f).ports = s.ports := rfl
@[simp] theorem State.modCtl_fab (s : State) (n : Fin 64) (f : Ctl → Ctl) : (s.modCtl n f).fab = s.fab := rfl
@[simp] theorem State.modCtl_cmd (s : State) (n : Fin 64) (f : Ctl → Ctl) : (s.modCtl n f).cmd = s.cmd := rfl
@[simp] theorem State.modCtl_mbx (s : State) (n : Fin 64) (f : Ctl → Ctl) : (s.modCtl n f).mbx = s.mbx := rfl
@[simp] theorem State.modCtl_boot (s : State) (n : Fin 64) (f : Ctl → Ctl) : (s.modCtl n f).boot = s.boot := rfl
@[simp] theorem State.modCtl_fuse (s : State) (n : Fin 64) (f : Ctl → Ctl) : (s.modCtl n f).fuse = s.fuse := rfl
@[simp] theorem State.modCtl_tap (s : State) (n : Fin 64) (f : Ctl → Ctl) : (s.modCtl n f).tap = s.tap := rfl
@[simp] theorem State.modCtl_slew (s : State) (n : Fin 64) (f : Ctl → Ctl) : (s.modCtl n f).slew = s.slew := rfl
@[simp] theorem State.modCtl_engs (s : State) (n : Fin 64) (f : Ctl → Ctl) : (s.modCtl n f).engs = s.engs := rfl
@[simp] theorem State.modCtl_latches (s : State) (n : Fin 64) (f : Ctl → Ctl) : (s.modCtl n f).latches = s.latches := rfl
@[simp] theorem State.modCtl_acts (s : State) (n : Fin 64) (f : Ctl → Ctl) : (s.modCtl n f).acts = s.acts := rfl
@[simp] theorem State.modCtl_arb (s : State) (n : Fin 64) (f : Ctl → Ctl) : (s.modCtl n f).arb = s.arb := rfl
@[simp] theorem State.modCtl_arbRef (s : State) (n : Fin 64) (f : Ctl → Ctl) : (s.modCtl n f).arbRef = s.arbRef := rfl
@[simp] theorem State.modCtl_slot (s : State) (n : Fin 64) (f : Ctl → Ctl) : (s.modCtl n f).slot = s.slot := rfl
@[simp] theorem State.modCtl_dram (s : State) (n : Fin 64) (f : Ctl → Ctl) : (s.modCtl n f).dram = s.dram := rfl
@[simp] theorem State.modCtl_outbox (s : State) (n : Fin 64) (f : Ctl → Ctl) : (s.modCtl n f).outbox = s.outbox := rfl
@[simp] theorem State.modCtl_wires (s : State) (n : Fin 64) (f : Ctl → Ctl) : (s.modCtl n f).wires = s.wires := rfl
@[simp] theorem State.modCtl_free (s : State) (n : Fin 64) (f : Ctl → Ctl) : (s.modCtl n f).free = s.free := rfl

/-! `State.modTsv`. -/

@[simp] theorem State.modTsv_pending (s : State) (n : Fin 64) (f : Tsv → Tsv) : (s.modTsv n f).pending = s.pending := rfl
@[simp] theorem State.modTsv_strobe (s : State) (n : Fin 64) (f : Tsv → Tsv) : (s.modTsv n f).strobe = s.strobe := rfl
@[simp] theorem State.modTsv_glb (s : State) (n : Fin 64) (f : Tsv → Tsv) : (s.modTsv n f).glb = s.glb := rfl
@[simp] theorem State.modTsv_dist (s : State) (n : Fin 64) (f : Tsv → Tsv) : (s.modTsv n f).dist = s.dist := rfl
@[simp] theorem State.modTsv_chs (s : State) (n : Fin 64) (f : Tsv → Tsv) : (s.modTsv n f).chs = vmod s.chs n (fun c => { c with tsv := f c.tsv }) := rfl
@[simp] theorem State.modTsv_sec (s : State) (n : Fin 64) (f : Tsv → Tsv) : (s.modTsv n f).sec = s.sec := rfl
@[simp] theorem State.modTsv_retire (s : State) (n : Fin 64) (f : Tsv → Tsv) : (s.modTsv n f).retire = s.retire := rfl
@[simp] theorem State.modTsv_scrub (s : State) (n : Fin 64) (f : Tsv → Tsv) : (s.modTsv n f).scrub = s.scrub := rfl
@[simp] theorem State.modTsv_kerbs (s : State) (n : Fin 64) (f : Tsv → Tsv) : (s.modTsv n f).kerbs = s.kerbs := rfl
@[simp] theorem State.modTsv_mports (s : State) (n : Fin 64) (f : Tsv → Tsv) : (s.modTsv n f).mports = s.mports := rfl
@[simp] theorem State.modTsv_reqPlane (s : State) (n : Fin 64) (f : Tsv → Tsv) : (s.modTsv n f).reqPlane = s.reqPlane := rfl
@[simp] theorem State.modTsv_credits (s : State) (n : Fin 64) (f : Tsv → Tsv) : (s.modTsv n f).credits = s.credits := rfl
@[simp] theorem State.modTsv_flt (s : State) (n : Fin 64) (f : Tsv → Tsv) : (s.modTsv n f).flt = s.flt := rfl
@[simp] theorem State.modTsv_thm (s : State) (n : Fin 64) (f : Tsv → Tsv) : (s.modTsv n f).thm = s.thm := rfl
@[simp] theorem State.modTsv_hosts (s : State) (n : Fin 64) (f : Tsv → Tsv) : (s.modTsv n f).hosts = s.hosts := rfl
@[simp] theorem State.modTsv_ports (s : State) (n : Fin 64) (f : Tsv → Tsv) : (s.modTsv n f).ports = s.ports := rfl
@[simp] theorem State.modTsv_fab (s : State) (n : Fin 64) (f : Tsv → Tsv) : (s.modTsv n f).fab = s.fab := rfl
@[simp] theorem State.modTsv_cmd (s : State) (n : Fin 64) (f : Tsv → Tsv) : (s.modTsv n f).cmd = s.cmd := rfl
@[simp] theorem State.modTsv_mbx (s : State) (n : Fin 64) (f : Tsv → Tsv) : (s.modTsv n f).mbx = s.mbx := rfl
@[simp] theorem State.modTsv_boot (s : State) (n : Fin 64) (f : Tsv → Tsv) : (s.modTsv n f).boot = s.boot := rfl
@[simp] theorem State.modTsv_fuse (s : State) (n : Fin 64) (f : Tsv → Tsv) : (s.modTsv n f).fuse = s.fuse := rfl
@[simp] theorem State.modTsv_tap (s : State) (n : Fin 64) (f : Tsv → Tsv) : (s.modTsv n f).tap = s.tap := rfl
@[simp] theorem State.modTsv_slew (s : State) (n : Fin 64) (f : Tsv → Tsv) : (s.modTsv n f).slew = s.slew := rfl
@[simp] theorem State.modTsv_engs (s : State) (n : Fin 64) (f : Tsv → Tsv) : (s.modTsv n f).engs = s.engs := rfl
@[simp] theorem State.modTsv_latches (s : State) (n : Fin 64) (f : Tsv → Tsv) : (s.modTsv n f).latches = s.latches := rfl
@[simp] theorem State.modTsv_acts (s : State) (n : Fin 64) (f : Tsv → Tsv) : (s.modTsv n f).acts = s.acts := rfl
@[simp] theorem State.modTsv_arb (s : State) (n : Fin 64) (f : Tsv → Tsv) : (s.modTsv n f).arb = s.arb := rfl
@[simp] theorem State.modTsv_arbRef (s : State) (n : Fin 64) (f : Tsv → Tsv) : (s.modTsv n f).arbRef = s.arbRef := rfl
@[simp] theorem State.modTsv_slot (s : State) (n : Fin 64) (f : Tsv → Tsv) : (s.modTsv n f).slot = s.slot := rfl
@[simp] theorem State.modTsv_dram (s : State) (n : Fin 64) (f : Tsv → Tsv) : (s.modTsv n f).dram = s.dram := rfl
@[simp] theorem State.modTsv_outbox (s : State) (n : Fin 64) (f : Tsv → Tsv) : (s.modTsv n f).outbox = s.outbox := rfl
@[simp] theorem State.modTsv_wires (s : State) (n : Fin 64) (f : Tsv → Tsv) : (s.modTsv n f).wires = s.wires := rfl
@[simp] theorem State.modTsv_free (s : State) (n : Fin 64) (f : Tsv → Tsv) : (s.modTsv n f).free = s.free := rfl

/-! `State.modEcc`. -/

@[simp] theorem State.modEcc_pending (s : State) (n : Fin 64) (f : Ecc → Ecc) : (s.modEcc n f).pending = s.pending := rfl
@[simp] theorem State.modEcc_strobe (s : State) (n : Fin 64) (f : Ecc → Ecc) : (s.modEcc n f).strobe = s.strobe := rfl
@[simp] theorem State.modEcc_glb (s : State) (n : Fin 64) (f : Ecc → Ecc) : (s.modEcc n f).glb = s.glb := rfl
@[simp] theorem State.modEcc_dist (s : State) (n : Fin 64) (f : Ecc → Ecc) : (s.modEcc n f).dist = s.dist := rfl
@[simp] theorem State.modEcc_chs (s : State) (n : Fin 64) (f : Ecc → Ecc) : (s.modEcc n f).chs = vmod s.chs n (fun c => { c with ecc := f c.ecc }) := rfl
@[simp] theorem State.modEcc_sec (s : State) (n : Fin 64) (f : Ecc → Ecc) : (s.modEcc n f).sec = s.sec := rfl
@[simp] theorem State.modEcc_retire (s : State) (n : Fin 64) (f : Ecc → Ecc) : (s.modEcc n f).retire = s.retire := rfl
@[simp] theorem State.modEcc_scrub (s : State) (n : Fin 64) (f : Ecc → Ecc) : (s.modEcc n f).scrub = s.scrub := rfl
@[simp] theorem State.modEcc_kerbs (s : State) (n : Fin 64) (f : Ecc → Ecc) : (s.modEcc n f).kerbs = s.kerbs := rfl
@[simp] theorem State.modEcc_mports (s : State) (n : Fin 64) (f : Ecc → Ecc) : (s.modEcc n f).mports = s.mports := rfl
@[simp] theorem State.modEcc_reqPlane (s : State) (n : Fin 64) (f : Ecc → Ecc) : (s.modEcc n f).reqPlane = s.reqPlane := rfl
@[simp] theorem State.modEcc_credits (s : State) (n : Fin 64) (f : Ecc → Ecc) : (s.modEcc n f).credits = s.credits := rfl
@[simp] theorem State.modEcc_flt (s : State) (n : Fin 64) (f : Ecc → Ecc) : (s.modEcc n f).flt = s.flt := rfl
@[simp] theorem State.modEcc_thm (s : State) (n : Fin 64) (f : Ecc → Ecc) : (s.modEcc n f).thm = s.thm := rfl
@[simp] theorem State.modEcc_hosts (s : State) (n : Fin 64) (f : Ecc → Ecc) : (s.modEcc n f).hosts = s.hosts := rfl
@[simp] theorem State.modEcc_ports (s : State) (n : Fin 64) (f : Ecc → Ecc) : (s.modEcc n f).ports = s.ports := rfl
@[simp] theorem State.modEcc_fab (s : State) (n : Fin 64) (f : Ecc → Ecc) : (s.modEcc n f).fab = s.fab := rfl
@[simp] theorem State.modEcc_cmd (s : State) (n : Fin 64) (f : Ecc → Ecc) : (s.modEcc n f).cmd = s.cmd := rfl
@[simp] theorem State.modEcc_mbx (s : State) (n : Fin 64) (f : Ecc → Ecc) : (s.modEcc n f).mbx = s.mbx := rfl
@[simp] theorem State.modEcc_boot (s : State) (n : Fin 64) (f : Ecc → Ecc) : (s.modEcc n f).boot = s.boot := rfl
@[simp] theorem State.modEcc_fuse (s : State) (n : Fin 64) (f : Ecc → Ecc) : (s.modEcc n f).fuse = s.fuse := rfl
@[simp] theorem State.modEcc_tap (s : State) (n : Fin 64) (f : Ecc → Ecc) : (s.modEcc n f).tap = s.tap := rfl
@[simp] theorem State.modEcc_slew (s : State) (n : Fin 64) (f : Ecc → Ecc) : (s.modEcc n f).slew = s.slew := rfl
@[simp] theorem State.modEcc_engs (s : State) (n : Fin 64) (f : Ecc → Ecc) : (s.modEcc n f).engs = s.engs := rfl
@[simp] theorem State.modEcc_latches (s : State) (n : Fin 64) (f : Ecc → Ecc) : (s.modEcc n f).latches = s.latches := rfl
@[simp] theorem State.modEcc_acts (s : State) (n : Fin 64) (f : Ecc → Ecc) : (s.modEcc n f).acts = s.acts := rfl
@[simp] theorem State.modEcc_arb (s : State) (n : Fin 64) (f : Ecc → Ecc) : (s.modEcc n f).arb = s.arb := rfl
@[simp] theorem State.modEcc_arbRef (s : State) (n : Fin 64) (f : Ecc → Ecc) : (s.modEcc n f).arbRef = s.arbRef := rfl
@[simp] theorem State.modEcc_slot (s : State) (n : Fin 64) (f : Ecc → Ecc) : (s.modEcc n f).slot = s.slot := rfl
@[simp] theorem State.modEcc_dram (s : State) (n : Fin 64) (f : Ecc → Ecc) : (s.modEcc n f).dram = s.dram := rfl
@[simp] theorem State.modEcc_outbox (s : State) (n : Fin 64) (f : Ecc → Ecc) : (s.modEcc n f).outbox = s.outbox := rfl
@[simp] theorem State.modEcc_wires (s : State) (n : Fin 64) (f : Ecc → Ecc) : (s.modEcc n f).wires = s.wires := rfl
@[simp] theorem State.modEcc_free (s : State) (n : Fin 64) (f : Ecc → Ecc) : (s.modEcc n f).free = s.free := rfl

/-! `State.modCry`. -/

@[simp] theorem State.modCry_pending (s : State) (n : Fin 64) (f : Cry → Cry) : (s.modCry n f).pending = s.pending := rfl
@[simp] theorem State.modCry_strobe (s : State) (n : Fin 64) (f : Cry → Cry) : (s.modCry n f).strobe = s.strobe := rfl
@[simp] theorem State.modCry_glb (s : State) (n : Fin 64) (f : Cry → Cry) : (s.modCry n f).glb = s.glb := rfl
@[simp] theorem State.modCry_dist (s : State) (n : Fin 64) (f : Cry → Cry) : (s.modCry n f).dist = s.dist := rfl
@[simp] theorem State.modCry_chs (s : State) (n : Fin 64) (f : Cry → Cry) : (s.modCry n f).chs = vmod s.chs n (fun c => { c with cry := f c.cry }) := rfl
@[simp] theorem State.modCry_sec (s : State) (n : Fin 64) (f : Cry → Cry) : (s.modCry n f).sec = s.sec := rfl
@[simp] theorem State.modCry_retire (s : State) (n : Fin 64) (f : Cry → Cry) : (s.modCry n f).retire = s.retire := rfl
@[simp] theorem State.modCry_scrub (s : State) (n : Fin 64) (f : Cry → Cry) : (s.modCry n f).scrub = s.scrub := rfl
@[simp] theorem State.modCry_kerbs (s : State) (n : Fin 64) (f : Cry → Cry) : (s.modCry n f).kerbs = s.kerbs := rfl
@[simp] theorem State.modCry_mports (s : State) (n : Fin 64) (f : Cry → Cry) : (s.modCry n f).mports = s.mports := rfl
@[simp] theorem State.modCry_reqPlane (s : State) (n : Fin 64) (f : Cry → Cry) : (s.modCry n f).reqPlane = s.reqPlane := rfl
@[simp] theorem State.modCry_credits (s : State) (n : Fin 64) (f : Cry → Cry) : (s.modCry n f).credits = s.credits := rfl
@[simp] theorem State.modCry_flt (s : State) (n : Fin 64) (f : Cry → Cry) : (s.modCry n f).flt = s.flt := rfl
@[simp] theorem State.modCry_thm (s : State) (n : Fin 64) (f : Cry → Cry) : (s.modCry n f).thm = s.thm := rfl
@[simp] theorem State.modCry_hosts (s : State) (n : Fin 64) (f : Cry → Cry) : (s.modCry n f).hosts = s.hosts := rfl
@[simp] theorem State.modCry_ports (s : State) (n : Fin 64) (f : Cry → Cry) : (s.modCry n f).ports = s.ports := rfl
@[simp] theorem State.modCry_fab (s : State) (n : Fin 64) (f : Cry → Cry) : (s.modCry n f).fab = s.fab := rfl
@[simp] theorem State.modCry_cmd (s : State) (n : Fin 64) (f : Cry → Cry) : (s.modCry n f).cmd = s.cmd := rfl
@[simp] theorem State.modCry_mbx (s : State) (n : Fin 64) (f : Cry → Cry) : (s.modCry n f).mbx = s.mbx := rfl
@[simp] theorem State.modCry_boot (s : State) (n : Fin 64) (f : Cry → Cry) : (s.modCry n f).boot = s.boot := rfl
@[simp] theorem State.modCry_fuse (s : State) (n : Fin 64) (f : Cry → Cry) : (s.modCry n f).fuse = s.fuse := rfl
@[simp] theorem State.modCry_tap (s : State) (n : Fin 64) (f : Cry → Cry) : (s.modCry n f).tap = s.tap := rfl
@[simp] theorem State.modCry_slew (s : State) (n : Fin 64) (f : Cry → Cry) : (s.modCry n f).slew = s.slew := rfl
@[simp] theorem State.modCry_engs (s : State) (n : Fin 64) (f : Cry → Cry) : (s.modCry n f).engs = s.engs := rfl
@[simp] theorem State.modCry_latches (s : State) (n : Fin 64) (f : Cry → Cry) : (s.modCry n f).latches = s.latches := rfl
@[simp] theorem State.modCry_acts (s : State) (n : Fin 64) (f : Cry → Cry) : (s.modCry n f).acts = s.acts := rfl
@[simp] theorem State.modCry_arb (s : State) (n : Fin 64) (f : Cry → Cry) : (s.modCry n f).arb = s.arb := rfl
@[simp] theorem State.modCry_arbRef (s : State) (n : Fin 64) (f : Cry → Cry) : (s.modCry n f).arbRef = s.arbRef := rfl
@[simp] theorem State.modCry_slot (s : State) (n : Fin 64) (f : Cry → Cry) : (s.modCry n f).slot = s.slot := rfl
@[simp] theorem State.modCry_dram (s : State) (n : Fin 64) (f : Cry → Cry) : (s.modCry n f).dram = s.dram := rfl
@[simp] theorem State.modCry_outbox (s : State) (n : Fin 64) (f : Cry → Cry) : (s.modCry n f).outbox = s.outbox := rfl
@[simp] theorem State.modCry_wires (s : State) (n : Fin 64) (f : Cry → Cry) : (s.modCry n f).wires = s.wires := rfl
@[simp] theorem State.modCry_free (s : State) (n : Fin 64) (f : Cry → Cry) : (s.modCry n f).free = s.free := rfl

/-! `State.modRbt`. -/

@[simp] theorem State.modRbt_pending (s : State) (n : Fin 64) (f : Rbt → Rbt) : (s.modRbt n f).pending = s.pending := rfl
@[simp] theorem State.modRbt_strobe (s : State) (n : Fin 64) (f : Rbt → Rbt) : (s.modRbt n f).strobe = s.strobe := rfl
@[simp] theorem State.modRbt_glb (s : State) (n : Fin 64) (f : Rbt → Rbt) : (s.modRbt n f).glb = s.glb := rfl
@[simp] theorem State.modRbt_dist (s : State) (n : Fin 64) (f : Rbt → Rbt) : (s.modRbt n f).dist = s.dist := rfl
@[simp] theorem State.modRbt_chs (s : State) (n : Fin 64) (f : Rbt → Rbt) : (s.modRbt n f).chs = vmod s.chs n (fun c => { c with rbt := f c.rbt }) := rfl
@[simp] theorem State.modRbt_sec (s : State) (n : Fin 64) (f : Rbt → Rbt) : (s.modRbt n f).sec = s.sec := rfl
@[simp] theorem State.modRbt_retire (s : State) (n : Fin 64) (f : Rbt → Rbt) : (s.modRbt n f).retire = s.retire := rfl
@[simp] theorem State.modRbt_scrub (s : State) (n : Fin 64) (f : Rbt → Rbt) : (s.modRbt n f).scrub = s.scrub := rfl
@[simp] theorem State.modRbt_kerbs (s : State) (n : Fin 64) (f : Rbt → Rbt) : (s.modRbt n f).kerbs = s.kerbs := rfl
@[simp] theorem State.modRbt_mports (s : State) (n : Fin 64) (f : Rbt → Rbt) : (s.modRbt n f).mports = s.mports := rfl
@[simp] theorem State.modRbt_reqPlane (s : State) (n : Fin 64) (f : Rbt → Rbt) : (s.modRbt n f).reqPlane = s.reqPlane := rfl
@[simp] theorem State.modRbt_credits (s : State) (n : Fin 64) (f : Rbt → Rbt) : (s.modRbt n f).credits = s.credits := rfl
@[simp] theorem State.modRbt_flt (s : State) (n : Fin 64) (f : Rbt → Rbt) : (s.modRbt n f).flt = s.flt := rfl
@[simp] theorem State.modRbt_thm (s : State) (n : Fin 64) (f : Rbt → Rbt) : (s.modRbt n f).thm = s.thm := rfl
@[simp] theorem State.modRbt_hosts (s : State) (n : Fin 64) (f : Rbt → Rbt) : (s.modRbt n f).hosts = s.hosts := rfl
@[simp] theorem State.modRbt_ports (s : State) (n : Fin 64) (f : Rbt → Rbt) : (s.modRbt n f).ports = s.ports := rfl
@[simp] theorem State.modRbt_fab (s : State) (n : Fin 64) (f : Rbt → Rbt) : (s.modRbt n f).fab = s.fab := rfl
@[simp] theorem State.modRbt_cmd (s : State) (n : Fin 64) (f : Rbt → Rbt) : (s.modRbt n f).cmd = s.cmd := rfl
@[simp] theorem State.modRbt_mbx (s : State) (n : Fin 64) (f : Rbt → Rbt) : (s.modRbt n f).mbx = s.mbx := rfl
@[simp] theorem State.modRbt_boot (s : State) (n : Fin 64) (f : Rbt → Rbt) : (s.modRbt n f).boot = s.boot := rfl
@[simp] theorem State.modRbt_fuse (s : State) (n : Fin 64) (f : Rbt → Rbt) : (s.modRbt n f).fuse = s.fuse := rfl
@[simp] theorem State.modRbt_tap (s : State) (n : Fin 64) (f : Rbt → Rbt) : (s.modRbt n f).tap = s.tap := rfl
@[simp] theorem State.modRbt_slew (s : State) (n : Fin 64) (f : Rbt → Rbt) : (s.modRbt n f).slew = s.slew := rfl
@[simp] theorem State.modRbt_engs (s : State) (n : Fin 64) (f : Rbt → Rbt) : (s.modRbt n f).engs = s.engs := rfl
@[simp] theorem State.modRbt_latches (s : State) (n : Fin 64) (f : Rbt → Rbt) : (s.modRbt n f).latches = s.latches := rfl
@[simp] theorem State.modRbt_acts (s : State) (n : Fin 64) (f : Rbt → Rbt) : (s.modRbt n f).acts = s.acts := rfl
@[simp] theorem State.modRbt_arb (s : State) (n : Fin 64) (f : Rbt → Rbt) : (s.modRbt n f).arb = s.arb := rfl
@[simp] theorem State.modRbt_arbRef (s : State) (n : Fin 64) (f : Rbt → Rbt) : (s.modRbt n f).arbRef = s.arbRef := rfl
@[simp] theorem State.modRbt_slot (s : State) (n : Fin 64) (f : Rbt → Rbt) : (s.modRbt n f).slot = s.slot := rfl
@[simp] theorem State.modRbt_dram (s : State) (n : Fin 64) (f : Rbt → Rbt) : (s.modRbt n f).dram = s.dram := rfl
@[simp] theorem State.modRbt_outbox (s : State) (n : Fin 64) (f : Rbt → Rbt) : (s.modRbt n f).outbox = s.outbox := rfl
@[simp] theorem State.modRbt_wires (s : State) (n : Fin 64) (f : Rbt → Rbt) : (s.modRbt n f).wires = s.wires := rfl
@[simp] theorem State.modRbt_free (s : State) (n : Fin 64) (f : Rbt → Rbt) : (s.modRbt n f).free = s.free := rfl

/-! `State.mapChs`. -/

@[simp] theorem State.mapChs_pending (s : State) (f : Fin 64 → Channel → Channel) : (s.mapChs f).pending = s.pending := by simp only [State.mapChs]
@[simp] theorem State.mapChs_strobe (s : State) (f : Fin 64 → Channel → Channel) : (s.mapChs f).strobe = s.strobe := by simp only [State.mapChs]
@[simp] theorem State.mapChs_glb (s : State) (f : Fin 64 → Channel → Channel) : (s.mapChs f).glb = s.glb := by simp only [State.mapChs]
@[simp] theorem State.mapChs_dist (s : State) (f : Fin 64 → Channel → Channel) : (s.mapChs f).dist = s.dist := by simp only [State.mapChs]
@[simp] theorem State.mapChs_chs (s : State) (f : Fin 64 → Channel → Channel) : (s.mapChs f).chs = Vector.ofFn (fun i => f i s.chs[i]) := by simp only [State.mapChs]
@[simp] theorem State.mapChs_sec (s : State) (f : Fin 64 → Channel → Channel) : (s.mapChs f).sec = s.sec := by simp only [State.mapChs]
@[simp] theorem State.mapChs_retire (s : State) (f : Fin 64 → Channel → Channel) : (s.mapChs f).retire = s.retire := by simp only [State.mapChs]
@[simp] theorem State.mapChs_scrub (s : State) (f : Fin 64 → Channel → Channel) : (s.mapChs f).scrub = s.scrub := by simp only [State.mapChs]
@[simp] theorem State.mapChs_kerbs (s : State) (f : Fin 64 → Channel → Channel) : (s.mapChs f).kerbs = s.kerbs := by simp only [State.mapChs]
@[simp] theorem State.mapChs_mports (s : State) (f : Fin 64 → Channel → Channel) : (s.mapChs f).mports = s.mports := by simp only [State.mapChs]
@[simp] theorem State.mapChs_reqPlane (s : State) (f : Fin 64 → Channel → Channel) : (s.mapChs f).reqPlane = s.reqPlane := by simp only [State.mapChs]
@[simp] theorem State.mapChs_credits (s : State) (f : Fin 64 → Channel → Channel) : (s.mapChs f).credits = s.credits := by simp only [State.mapChs]
@[simp] theorem State.mapChs_flt (s : State) (f : Fin 64 → Channel → Channel) : (s.mapChs f).flt = s.flt := by simp only [State.mapChs]
@[simp] theorem State.mapChs_thm (s : State) (f : Fin 64 → Channel → Channel) : (s.mapChs f).thm = s.thm := by simp only [State.mapChs]
@[simp] theorem State.mapChs_hosts (s : State) (f : Fin 64 → Channel → Channel) : (s.mapChs f).hosts = s.hosts := by simp only [State.mapChs]
@[simp] theorem State.mapChs_ports (s : State) (f : Fin 64 → Channel → Channel) : (s.mapChs f).ports = s.ports := by simp only [State.mapChs]
@[simp] theorem State.mapChs_fab (s : State) (f : Fin 64 → Channel → Channel) : (s.mapChs f).fab = s.fab := by simp only [State.mapChs]
@[simp] theorem State.mapChs_cmd (s : State) (f : Fin 64 → Channel → Channel) : (s.mapChs f).cmd = s.cmd := by simp only [State.mapChs]
@[simp] theorem State.mapChs_mbx (s : State) (f : Fin 64 → Channel → Channel) : (s.mapChs f).mbx = s.mbx := by simp only [State.mapChs]
@[simp] theorem State.mapChs_boot (s : State) (f : Fin 64 → Channel → Channel) : (s.mapChs f).boot = s.boot := by simp only [State.mapChs]
@[simp] theorem State.mapChs_fuse (s : State) (f : Fin 64 → Channel → Channel) : (s.mapChs f).fuse = s.fuse := by simp only [State.mapChs]
@[simp] theorem State.mapChs_tap (s : State) (f : Fin 64 → Channel → Channel) : (s.mapChs f).tap = s.tap := by simp only [State.mapChs]
@[simp] theorem State.mapChs_slew (s : State) (f : Fin 64 → Channel → Channel) : (s.mapChs f).slew = s.slew := by simp only [State.mapChs]
@[simp] theorem State.mapChs_engs (s : State) (f : Fin 64 → Channel → Channel) : (s.mapChs f).engs = s.engs := by simp only [State.mapChs]
@[simp] theorem State.mapChs_latches (s : State) (f : Fin 64 → Channel → Channel) : (s.mapChs f).latches = s.latches := by simp only [State.mapChs]
@[simp] theorem State.mapChs_acts (s : State) (f : Fin 64 → Channel → Channel) : (s.mapChs f).acts = s.acts := by simp only [State.mapChs]
@[simp] theorem State.mapChs_arb (s : State) (f : Fin 64 → Channel → Channel) : (s.mapChs f).arb = s.arb := by simp only [State.mapChs]
@[simp] theorem State.mapChs_arbRef (s : State) (f : Fin 64 → Channel → Channel) : (s.mapChs f).arbRef = s.arbRef := by simp only [State.mapChs]
@[simp] theorem State.mapChs_slot (s : State) (f : Fin 64 → Channel → Channel) : (s.mapChs f).slot = s.slot := by simp only [State.mapChs]
@[simp] theorem State.mapChs_dram (s : State) (f : Fin 64 → Channel → Channel) : (s.mapChs f).dram = s.dram := by simp only [State.mapChs]
@[simp] theorem State.mapChs_outbox (s : State) (f : Fin 64 → Channel → Channel) : (s.mapChs f).outbox = s.outbox := by simp only [State.mapChs]
@[simp] theorem State.mapChs_wires (s : State) (f : Fin 64 → Channel → Channel) : (s.mapChs f).wires = s.wires := by simp only [State.mapChs]
@[simp] theorem State.mapChs_free (s : State) (f : Fin 64 → Channel → Channel) : (s.mapChs f).free = s.free := by simp only [State.mapChs]

/-! `State.modDist`. -/

@[simp] theorem State.modDist_pending (s : State) (k : Fin 8) (f : District → District) : (s.modDist k f).pending = s.pending := rfl
@[simp] theorem State.modDist_strobe (s : State) (k : Fin 8) (f : District → District) : (s.modDist k f).strobe = s.strobe := rfl
@[simp] theorem State.modDist_glb (s : State) (k : Fin 8) (f : District → District) : (s.modDist k f).glb = s.glb := rfl
@[simp] theorem State.modDist_dist (s : State) (k : Fin 8) (f : District → District) : (s.modDist k f).dist = vmod s.dist k f := rfl
@[simp] theorem State.modDist_chs (s : State) (k : Fin 8) (f : District → District) : (s.modDist k f).chs = s.chs := rfl
@[simp] theorem State.modDist_sec (s : State) (k : Fin 8) (f : District → District) : (s.modDist k f).sec = s.sec := rfl
@[simp] theorem State.modDist_retire (s : State) (k : Fin 8) (f : District → District) : (s.modDist k f).retire = s.retire := rfl
@[simp] theorem State.modDist_scrub (s : State) (k : Fin 8) (f : District → District) : (s.modDist k f).scrub = s.scrub := rfl
@[simp] theorem State.modDist_kerbs (s : State) (k : Fin 8) (f : District → District) : (s.modDist k f).kerbs = s.kerbs := rfl
@[simp] theorem State.modDist_mports (s : State) (k : Fin 8) (f : District → District) : (s.modDist k f).mports = s.mports := rfl
@[simp] theorem State.modDist_reqPlane (s : State) (k : Fin 8) (f : District → District) : (s.modDist k f).reqPlane = s.reqPlane := rfl
@[simp] theorem State.modDist_credits (s : State) (k : Fin 8) (f : District → District) : (s.modDist k f).credits = s.credits := rfl
@[simp] theorem State.modDist_flt (s : State) (k : Fin 8) (f : District → District) : (s.modDist k f).flt = s.flt := rfl
@[simp] theorem State.modDist_thm (s : State) (k : Fin 8) (f : District → District) : (s.modDist k f).thm = s.thm := rfl
@[simp] theorem State.modDist_hosts (s : State) (k : Fin 8) (f : District → District) : (s.modDist k f).hosts = s.hosts := rfl
@[simp] theorem State.modDist_ports (s : State) (k : Fin 8) (f : District → District) : (s.modDist k f).ports = s.ports := rfl
@[simp] theorem State.modDist_fab (s : State) (k : Fin 8) (f : District → District) : (s.modDist k f).fab = s.fab := rfl
@[simp] theorem State.modDist_cmd (s : State) (k : Fin 8) (f : District → District) : (s.modDist k f).cmd = s.cmd := rfl
@[simp] theorem State.modDist_mbx (s : State) (k : Fin 8) (f : District → District) : (s.modDist k f).mbx = s.mbx := rfl
@[simp] theorem State.modDist_boot (s : State) (k : Fin 8) (f : District → District) : (s.modDist k f).boot = s.boot := rfl
@[simp] theorem State.modDist_fuse (s : State) (k : Fin 8) (f : District → District) : (s.modDist k f).fuse = s.fuse := rfl
@[simp] theorem State.modDist_tap (s : State) (k : Fin 8) (f : District → District) : (s.modDist k f).tap = s.tap := rfl
@[simp] theorem State.modDist_slew (s : State) (k : Fin 8) (f : District → District) : (s.modDist k f).slew = s.slew := rfl
@[simp] theorem State.modDist_engs (s : State) (k : Fin 8) (f : District → District) : (s.modDist k f).engs = s.engs := rfl
@[simp] theorem State.modDist_latches (s : State) (k : Fin 8) (f : District → District) : (s.modDist k f).latches = s.latches := rfl
@[simp] theorem State.modDist_acts (s : State) (k : Fin 8) (f : District → District) : (s.modDist k f).acts = s.acts := rfl
@[simp] theorem State.modDist_arb (s : State) (k : Fin 8) (f : District → District) : (s.modDist k f).arb = s.arb := rfl
@[simp] theorem State.modDist_arbRef (s : State) (k : Fin 8) (f : District → District) : (s.modDist k f).arbRef = s.arbRef := rfl
@[simp] theorem State.modDist_slot (s : State) (k : Fin 8) (f : District → District) : (s.modDist k f).slot = s.slot := rfl
@[simp] theorem State.modDist_dram (s : State) (k : Fin 8) (f : District → District) : (s.modDist k f).dram = s.dram := rfl
@[simp] theorem State.modDist_outbox (s : State) (k : Fin 8) (f : District → District) : (s.modDist k f).outbox = s.outbox := rfl
@[simp] theorem State.modDist_wires (s : State) (k : Fin 8) (f : District → District) : (s.modDist k f).wires = s.wires := rfl
@[simp] theorem State.modDist_free (s : State) (k : Fin 8) (f : District → District) : (s.modDist k f).free = s.free := rfl

/-! `State.modKerb`. -/

@[simp] theorem State.modKerb_pending (s : State) (j : Fin 140) (f : Kerb → Kerb) : (s.modKerb j f).pending = s.pending := rfl
@[simp] theorem State.modKerb_strobe (s : State) (j : Fin 140) (f : Kerb → Kerb) : (s.modKerb j f).strobe = s.strobe := rfl
@[simp] theorem State.modKerb_glb (s : State) (j : Fin 140) (f : Kerb → Kerb) : (s.modKerb j f).glb = s.glb := rfl
@[simp] theorem State.modKerb_dist (s : State) (j : Fin 140) (f : Kerb → Kerb) : (s.modKerb j f).dist = s.dist := rfl
@[simp] theorem State.modKerb_chs (s : State) (j : Fin 140) (f : Kerb → Kerb) : (s.modKerb j f).chs = s.chs := rfl
@[simp] theorem State.modKerb_sec (s : State) (j : Fin 140) (f : Kerb → Kerb) : (s.modKerb j f).sec = s.sec := rfl
@[simp] theorem State.modKerb_retire (s : State) (j : Fin 140) (f : Kerb → Kerb) : (s.modKerb j f).retire = s.retire := rfl
@[simp] theorem State.modKerb_scrub (s : State) (j : Fin 140) (f : Kerb → Kerb) : (s.modKerb j f).scrub = s.scrub := rfl
@[simp] theorem State.modKerb_kerbs (s : State) (j : Fin 140) (f : Kerb → Kerb) : (s.modKerb j f).kerbs = vmod s.kerbs j f := rfl
@[simp] theorem State.modKerb_mports (s : State) (j : Fin 140) (f : Kerb → Kerb) : (s.modKerb j f).mports = s.mports := rfl
@[simp] theorem State.modKerb_reqPlane (s : State) (j : Fin 140) (f : Kerb → Kerb) : (s.modKerb j f).reqPlane = s.reqPlane := rfl
@[simp] theorem State.modKerb_credits (s : State) (j : Fin 140) (f : Kerb → Kerb) : (s.modKerb j f).credits = s.credits := rfl
@[simp] theorem State.modKerb_flt (s : State) (j : Fin 140) (f : Kerb → Kerb) : (s.modKerb j f).flt = s.flt := rfl
@[simp] theorem State.modKerb_thm (s : State) (j : Fin 140) (f : Kerb → Kerb) : (s.modKerb j f).thm = s.thm := rfl
@[simp] theorem State.modKerb_hosts (s : State) (j : Fin 140) (f : Kerb → Kerb) : (s.modKerb j f).hosts = s.hosts := rfl
@[simp] theorem State.modKerb_ports (s : State) (j : Fin 140) (f : Kerb → Kerb) : (s.modKerb j f).ports = s.ports := rfl
@[simp] theorem State.modKerb_fab (s : State) (j : Fin 140) (f : Kerb → Kerb) : (s.modKerb j f).fab = s.fab := rfl
@[simp] theorem State.modKerb_cmd (s : State) (j : Fin 140) (f : Kerb → Kerb) : (s.modKerb j f).cmd = s.cmd := rfl
@[simp] theorem State.modKerb_mbx (s : State) (j : Fin 140) (f : Kerb → Kerb) : (s.modKerb j f).mbx = s.mbx := rfl
@[simp] theorem State.modKerb_boot (s : State) (j : Fin 140) (f : Kerb → Kerb) : (s.modKerb j f).boot = s.boot := rfl
@[simp] theorem State.modKerb_fuse (s : State) (j : Fin 140) (f : Kerb → Kerb) : (s.modKerb j f).fuse = s.fuse := rfl
@[simp] theorem State.modKerb_tap (s : State) (j : Fin 140) (f : Kerb → Kerb) : (s.modKerb j f).tap = s.tap := rfl
@[simp] theorem State.modKerb_slew (s : State) (j : Fin 140) (f : Kerb → Kerb) : (s.modKerb j f).slew = s.slew := rfl
@[simp] theorem State.modKerb_engs (s : State) (j : Fin 140) (f : Kerb → Kerb) : (s.modKerb j f).engs = s.engs := rfl
@[simp] theorem State.modKerb_latches (s : State) (j : Fin 140) (f : Kerb → Kerb) : (s.modKerb j f).latches = s.latches := rfl
@[simp] theorem State.modKerb_acts (s : State) (j : Fin 140) (f : Kerb → Kerb) : (s.modKerb j f).acts = s.acts := rfl
@[simp] theorem State.modKerb_arb (s : State) (j : Fin 140) (f : Kerb → Kerb) : (s.modKerb j f).arb = s.arb := rfl
@[simp] theorem State.modKerb_arbRef (s : State) (j : Fin 140) (f : Kerb → Kerb) : (s.modKerb j f).arbRef = s.arbRef := rfl
@[simp] theorem State.modKerb_slot (s : State) (j : Fin 140) (f : Kerb → Kerb) : (s.modKerb j f).slot = s.slot := rfl
@[simp] theorem State.modKerb_dram (s : State) (j : Fin 140) (f : Kerb → Kerb) : (s.modKerb j f).dram = s.dram := rfl
@[simp] theorem State.modKerb_outbox (s : State) (j : Fin 140) (f : Kerb → Kerb) : (s.modKerb j f).outbox = s.outbox := rfl
@[simp] theorem State.modKerb_wires (s : State) (j : Fin 140) (f : Kerb → Kerb) : (s.modKerb j f).wires = s.wires := rfl
@[simp] theorem State.modKerb_free (s : State) (j : Fin 140) (f : Kerb → Kerb) : (s.modKerb j f).free = s.free := rfl

/-! `State.modMport`. -/

@[simp] theorem State.modMport_pending (s : State) (j : Fin 140) (f : MPort → MPort) : (s.modMport j f).pending = s.pending := rfl
@[simp] theorem State.modMport_strobe (s : State) (j : Fin 140) (f : MPort → MPort) : (s.modMport j f).strobe = s.strobe := rfl
@[simp] theorem State.modMport_glb (s : State) (j : Fin 140) (f : MPort → MPort) : (s.modMport j f).glb = s.glb := rfl
@[simp] theorem State.modMport_dist (s : State) (j : Fin 140) (f : MPort → MPort) : (s.modMport j f).dist = s.dist := rfl
@[simp] theorem State.modMport_chs (s : State) (j : Fin 140) (f : MPort → MPort) : (s.modMport j f).chs = s.chs := rfl
@[simp] theorem State.modMport_sec (s : State) (j : Fin 140) (f : MPort → MPort) : (s.modMport j f).sec = s.sec := rfl
@[simp] theorem State.modMport_retire (s : State) (j : Fin 140) (f : MPort → MPort) : (s.modMport j f).retire = s.retire := rfl
@[simp] theorem State.modMport_scrub (s : State) (j : Fin 140) (f : MPort → MPort) : (s.modMport j f).scrub = s.scrub := rfl
@[simp] theorem State.modMport_kerbs (s : State) (j : Fin 140) (f : MPort → MPort) : (s.modMport j f).kerbs = s.kerbs := rfl
@[simp] theorem State.modMport_mports (s : State) (j : Fin 140) (f : MPort → MPort) : (s.modMport j f).mports = vmod s.mports j f := rfl
@[simp] theorem State.modMport_reqPlane (s : State) (j : Fin 140) (f : MPort → MPort) : (s.modMport j f).reqPlane = s.reqPlane := rfl
@[simp] theorem State.modMport_credits (s : State) (j : Fin 140) (f : MPort → MPort) : (s.modMport j f).credits = s.credits := rfl
@[simp] theorem State.modMport_flt (s : State) (j : Fin 140) (f : MPort → MPort) : (s.modMport j f).flt = s.flt := rfl
@[simp] theorem State.modMport_thm (s : State) (j : Fin 140) (f : MPort → MPort) : (s.modMport j f).thm = s.thm := rfl
@[simp] theorem State.modMport_hosts (s : State) (j : Fin 140) (f : MPort → MPort) : (s.modMport j f).hosts = s.hosts := rfl
@[simp] theorem State.modMport_ports (s : State) (j : Fin 140) (f : MPort → MPort) : (s.modMport j f).ports = s.ports := rfl
@[simp] theorem State.modMport_fab (s : State) (j : Fin 140) (f : MPort → MPort) : (s.modMport j f).fab = s.fab := rfl
@[simp] theorem State.modMport_cmd (s : State) (j : Fin 140) (f : MPort → MPort) : (s.modMport j f).cmd = s.cmd := rfl
@[simp] theorem State.modMport_mbx (s : State) (j : Fin 140) (f : MPort → MPort) : (s.modMport j f).mbx = s.mbx := rfl
@[simp] theorem State.modMport_boot (s : State) (j : Fin 140) (f : MPort → MPort) : (s.modMport j f).boot = s.boot := rfl
@[simp] theorem State.modMport_fuse (s : State) (j : Fin 140) (f : MPort → MPort) : (s.modMport j f).fuse = s.fuse := rfl
@[simp] theorem State.modMport_tap (s : State) (j : Fin 140) (f : MPort → MPort) : (s.modMport j f).tap = s.tap := rfl
@[simp] theorem State.modMport_slew (s : State) (j : Fin 140) (f : MPort → MPort) : (s.modMport j f).slew = s.slew := rfl
@[simp] theorem State.modMport_engs (s : State) (j : Fin 140) (f : MPort → MPort) : (s.modMport j f).engs = s.engs := rfl
@[simp] theorem State.modMport_latches (s : State) (j : Fin 140) (f : MPort → MPort) : (s.modMport j f).latches = s.latches := rfl
@[simp] theorem State.modMport_acts (s : State) (j : Fin 140) (f : MPort → MPort) : (s.modMport j f).acts = s.acts := rfl
@[simp] theorem State.modMport_arb (s : State) (j : Fin 140) (f : MPort → MPort) : (s.modMport j f).arb = s.arb := rfl
@[simp] theorem State.modMport_arbRef (s : State) (j : Fin 140) (f : MPort → MPort) : (s.modMport j f).arbRef = s.arbRef := rfl
@[simp] theorem State.modMport_slot (s : State) (j : Fin 140) (f : MPort → MPort) : (s.modMport j f).slot = s.slot := rfl
@[simp] theorem State.modMport_dram (s : State) (j : Fin 140) (f : MPort → MPort) : (s.modMport j f).dram = s.dram := rfl
@[simp] theorem State.modMport_outbox (s : State) (j : Fin 140) (f : MPort → MPort) : (s.modMport j f).outbox = s.outbox := rfl
@[simp] theorem State.modMport_wires (s : State) (j : Fin 140) (f : MPort → MPort) : (s.modMport j f).wires = s.wires := rfl
@[simp] theorem State.modMport_free (s : State) (j : Fin 140) (f : MPort → MPort) : (s.modMport j f).free = s.free := rfl

/-! `State.modHost`. -/

@[simp] theorem State.modHost_pending (s : State) (h : Fin 8) (f : CxlPort → CxlPort) : (s.modHost h f).pending = s.pending := rfl
@[simp] theorem State.modHost_strobe (s : State) (h : Fin 8) (f : CxlPort → CxlPort) : (s.modHost h f).strobe = s.strobe := rfl
@[simp] theorem State.modHost_glb (s : State) (h : Fin 8) (f : CxlPort → CxlPort) : (s.modHost h f).glb = s.glb := rfl
@[simp] theorem State.modHost_dist (s : State) (h : Fin 8) (f : CxlPort → CxlPort) : (s.modHost h f).dist = s.dist := rfl
@[simp] theorem State.modHost_chs (s : State) (h : Fin 8) (f : CxlPort → CxlPort) : (s.modHost h f).chs = s.chs := rfl
@[simp] theorem State.modHost_sec (s : State) (h : Fin 8) (f : CxlPort → CxlPort) : (s.modHost h f).sec = s.sec := rfl
@[simp] theorem State.modHost_retire (s : State) (h : Fin 8) (f : CxlPort → CxlPort) : (s.modHost h f).retire = s.retire := rfl
@[simp] theorem State.modHost_scrub (s : State) (h : Fin 8) (f : CxlPort → CxlPort) : (s.modHost h f).scrub = s.scrub := rfl
@[simp] theorem State.modHost_kerbs (s : State) (h : Fin 8) (f : CxlPort → CxlPort) : (s.modHost h f).kerbs = s.kerbs := rfl
@[simp] theorem State.modHost_mports (s : State) (h : Fin 8) (f : CxlPort → CxlPort) : (s.modHost h f).mports = s.mports := rfl
@[simp] theorem State.modHost_reqPlane (s : State) (h : Fin 8) (f : CxlPort → CxlPort) : (s.modHost h f).reqPlane = s.reqPlane := rfl
@[simp] theorem State.modHost_credits (s : State) (h : Fin 8) (f : CxlPort → CxlPort) : (s.modHost h f).credits = s.credits := rfl
@[simp] theorem State.modHost_flt (s : State) (h : Fin 8) (f : CxlPort → CxlPort) : (s.modHost h f).flt = s.flt := rfl
@[simp] theorem State.modHost_thm (s : State) (h : Fin 8) (f : CxlPort → CxlPort) : (s.modHost h f).thm = s.thm := rfl
@[simp] theorem State.modHost_hosts (s : State) (h : Fin 8) (f : CxlPort → CxlPort) : (s.modHost h f).hosts = vmod s.hosts h f := rfl
@[simp] theorem State.modHost_ports (s : State) (h : Fin 8) (f : CxlPort → CxlPort) : (s.modHost h f).ports = s.ports := rfl
@[simp] theorem State.modHost_fab (s : State) (h : Fin 8) (f : CxlPort → CxlPort) : (s.modHost h f).fab = s.fab := rfl
@[simp] theorem State.modHost_cmd (s : State) (h : Fin 8) (f : CxlPort → CxlPort) : (s.modHost h f).cmd = s.cmd := rfl
@[simp] theorem State.modHost_mbx (s : State) (h : Fin 8) (f : CxlPort → CxlPort) : (s.modHost h f).mbx = s.mbx := rfl
@[simp] theorem State.modHost_boot (s : State) (h : Fin 8) (f : CxlPort → CxlPort) : (s.modHost h f).boot = s.boot := rfl
@[simp] theorem State.modHost_fuse (s : State) (h : Fin 8) (f : CxlPort → CxlPort) : (s.modHost h f).fuse = s.fuse := rfl
@[simp] theorem State.modHost_tap (s : State) (h : Fin 8) (f : CxlPort → CxlPort) : (s.modHost h f).tap = s.tap := rfl
@[simp] theorem State.modHost_slew (s : State) (h : Fin 8) (f : CxlPort → CxlPort) : (s.modHost h f).slew = s.slew := rfl
@[simp] theorem State.modHost_engs (s : State) (h : Fin 8) (f : CxlPort → CxlPort) : (s.modHost h f).engs = s.engs := rfl
@[simp] theorem State.modHost_latches (s : State) (h : Fin 8) (f : CxlPort → CxlPort) : (s.modHost h f).latches = s.latches := rfl
@[simp] theorem State.modHost_acts (s : State) (h : Fin 8) (f : CxlPort → CxlPort) : (s.modHost h f).acts = s.acts := rfl
@[simp] theorem State.modHost_arb (s : State) (h : Fin 8) (f : CxlPort → CxlPort) : (s.modHost h f).arb = s.arb := rfl
@[simp] theorem State.modHost_arbRef (s : State) (h : Fin 8) (f : CxlPort → CxlPort) : (s.modHost h f).arbRef = s.arbRef := rfl
@[simp] theorem State.modHost_slot (s : State) (h : Fin 8) (f : CxlPort → CxlPort) : (s.modHost h f).slot = s.slot := rfl
@[simp] theorem State.modHost_dram (s : State) (h : Fin 8) (f : CxlPort → CxlPort) : (s.modHost h f).dram = s.dram := rfl
@[simp] theorem State.modHost_outbox (s : State) (h : Fin 8) (f : CxlPort → CxlPort) : (s.modHost h f).outbox = s.outbox := rfl
@[simp] theorem State.modHost_wires (s : State) (h : Fin 8) (f : CxlPort → CxlPort) : (s.modHost h f).wires = s.wires := rfl
@[simp] theorem State.modHost_free (s : State) (h : Fin 8) (f : CxlPort → CxlPort) : (s.modHost h f).free = s.free := rfl

/-! `State.modPort`. -/

@[simp] theorem State.modPort_pending (s : State) (p : Fin 64) (f : Port → Port) : (s.modPort p f).pending = s.pending := rfl
@[simp] theorem State.modPort_strobe (s : State) (p : Fin 64) (f : Port → Port) : (s.modPort p f).strobe = s.strobe := rfl
@[simp] theorem State.modPort_glb (s : State) (p : Fin 64) (f : Port → Port) : (s.modPort p f).glb = s.glb := rfl
@[simp] theorem State.modPort_dist (s : State) (p : Fin 64) (f : Port → Port) : (s.modPort p f).dist = s.dist := rfl
@[simp] theorem State.modPort_chs (s : State) (p : Fin 64) (f : Port → Port) : (s.modPort p f).chs = s.chs := rfl
@[simp] theorem State.modPort_sec (s : State) (p : Fin 64) (f : Port → Port) : (s.modPort p f).sec = s.sec := rfl
@[simp] theorem State.modPort_retire (s : State) (p : Fin 64) (f : Port → Port) : (s.modPort p f).retire = s.retire := rfl
@[simp] theorem State.modPort_scrub (s : State) (p : Fin 64) (f : Port → Port) : (s.modPort p f).scrub = s.scrub := rfl
@[simp] theorem State.modPort_kerbs (s : State) (p : Fin 64) (f : Port → Port) : (s.modPort p f).kerbs = s.kerbs := rfl
@[simp] theorem State.modPort_mports (s : State) (p : Fin 64) (f : Port → Port) : (s.modPort p f).mports = s.mports := rfl
@[simp] theorem State.modPort_reqPlane (s : State) (p : Fin 64) (f : Port → Port) : (s.modPort p f).reqPlane = s.reqPlane := rfl
@[simp] theorem State.modPort_credits (s : State) (p : Fin 64) (f : Port → Port) : (s.modPort p f).credits = s.credits := rfl
@[simp] theorem State.modPort_flt (s : State) (p : Fin 64) (f : Port → Port) : (s.modPort p f).flt = s.flt := rfl
@[simp] theorem State.modPort_thm (s : State) (p : Fin 64) (f : Port → Port) : (s.modPort p f).thm = s.thm := rfl
@[simp] theorem State.modPort_hosts (s : State) (p : Fin 64) (f : Port → Port) : (s.modPort p f).hosts = s.hosts := rfl
@[simp] theorem State.modPort_ports (s : State) (p : Fin 64) (f : Port → Port) : (s.modPort p f).ports = vmod s.ports p f := rfl
@[simp] theorem State.modPort_fab (s : State) (p : Fin 64) (f : Port → Port) : (s.modPort p f).fab = s.fab := rfl
@[simp] theorem State.modPort_cmd (s : State) (p : Fin 64) (f : Port → Port) : (s.modPort p f).cmd = s.cmd := rfl
@[simp] theorem State.modPort_mbx (s : State) (p : Fin 64) (f : Port → Port) : (s.modPort p f).mbx = s.mbx := rfl
@[simp] theorem State.modPort_boot (s : State) (p : Fin 64) (f : Port → Port) : (s.modPort p f).boot = s.boot := rfl
@[simp] theorem State.modPort_fuse (s : State) (p : Fin 64) (f : Port → Port) : (s.modPort p f).fuse = s.fuse := rfl
@[simp] theorem State.modPort_tap (s : State) (p : Fin 64) (f : Port → Port) : (s.modPort p f).tap = s.tap := rfl
@[simp] theorem State.modPort_slew (s : State) (p : Fin 64) (f : Port → Port) : (s.modPort p f).slew = s.slew := rfl
@[simp] theorem State.modPort_engs (s : State) (p : Fin 64) (f : Port → Port) : (s.modPort p f).engs = s.engs := rfl
@[simp] theorem State.modPort_latches (s : State) (p : Fin 64) (f : Port → Port) : (s.modPort p f).latches = s.latches := rfl
@[simp] theorem State.modPort_acts (s : State) (p : Fin 64) (f : Port → Port) : (s.modPort p f).acts = s.acts := rfl
@[simp] theorem State.modPort_arb (s : State) (p : Fin 64) (f : Port → Port) : (s.modPort p f).arb = s.arb := rfl
@[simp] theorem State.modPort_arbRef (s : State) (p : Fin 64) (f : Port → Port) : (s.modPort p f).arbRef = s.arbRef := rfl
@[simp] theorem State.modPort_slot (s : State) (p : Fin 64) (f : Port → Port) : (s.modPort p f).slot = s.slot := rfl
@[simp] theorem State.modPort_dram (s : State) (p : Fin 64) (f : Port → Port) : (s.modPort p f).dram = s.dram := rfl
@[simp] theorem State.modPort_outbox (s : State) (p : Fin 64) (f : Port → Port) : (s.modPort p f).outbox = s.outbox := rfl
@[simp] theorem State.modPort_wires (s : State) (p : Fin 64) (f : Port → Port) : (s.modPort p f).wires = s.wires := rfl
@[simp] theorem State.modPort_free (s : State) (p : Fin 64) (f : Port → Port) : (s.modPort p f).free = s.free := rfl

/-! `State.modSub`. -/

@[simp] theorem State.modSub_pending (s : State) (l : SubLink) (f : Sub → Sub) : (s.modSub l f).pending = s.pending := rfl
@[simp] theorem State.modSub_strobe (s : State) (l : SubLink) (f : Sub → Sub) : (s.modSub l f).strobe = s.strobe := rfl
@[simp] theorem State.modSub_glb (s : State) (l : SubLink) (f : Sub → Sub) : (s.modSub l f).glb = s.glb := rfl
@[simp] theorem State.modSub_dist (s : State) (l : SubLink) (f : Sub → Sub) : (s.modSub l f).dist = s.dist := rfl
@[simp] theorem State.modSub_chs (s : State) (l : SubLink) (f : Sub → Sub) : (s.modSub l f).chs = s.chs := rfl
@[simp] theorem State.modSub_sec (s : State) (l : SubLink) (f : Sub → Sub) : (s.modSub l f).sec = s.sec := rfl
@[simp] theorem State.modSub_retire (s : State) (l : SubLink) (f : Sub → Sub) : (s.modSub l f).retire = s.retire := rfl
@[simp] theorem State.modSub_scrub (s : State) (l : SubLink) (f : Sub → Sub) : (s.modSub l f).scrub = s.scrub := rfl
@[simp] theorem State.modSub_kerbs (s : State) (l : SubLink) (f : Sub → Sub) : (s.modSub l f).kerbs = s.kerbs := rfl
@[simp] theorem State.modSub_mports (s : State) (l : SubLink) (f : Sub → Sub) : (s.modSub l f).mports = s.mports := rfl
@[simp] theorem State.modSub_reqPlane (s : State) (l : SubLink) (f : Sub → Sub) : (s.modSub l f).reqPlane = s.reqPlane := rfl
@[simp] theorem State.modSub_credits (s : State) (l : SubLink) (f : Sub → Sub) : (s.modSub l f).credits = s.credits := rfl
@[simp] theorem State.modSub_flt (s : State) (l : SubLink) (f : Sub → Sub) : (s.modSub l f).flt = s.flt := rfl
@[simp] theorem State.modSub_thm (s : State) (l : SubLink) (f : Sub → Sub) : (s.modSub l f).thm = s.thm := rfl
@[simp] theorem State.modSub_hosts (s : State) (l : SubLink) (f : Sub → Sub) : (s.modSub l f).hosts = s.hosts := rfl
@[simp] theorem State.modSub_ports (s : State) (l : SubLink) (f : Sub → Sub) : (s.modSub l f).ports = vmod s.ports l.port (fun p => { p with subs := vmod p.subs l.sub f }) := rfl
@[simp] theorem State.modSub_fab (s : State) (l : SubLink) (f : Sub → Sub) : (s.modSub l f).fab = s.fab := rfl
@[simp] theorem State.modSub_cmd (s : State) (l : SubLink) (f : Sub → Sub) : (s.modSub l f).cmd = s.cmd := rfl
@[simp] theorem State.modSub_mbx (s : State) (l : SubLink) (f : Sub → Sub) : (s.modSub l f).mbx = s.mbx := rfl
@[simp] theorem State.modSub_boot (s : State) (l : SubLink) (f : Sub → Sub) : (s.modSub l f).boot = s.boot := rfl
@[simp] theorem State.modSub_fuse (s : State) (l : SubLink) (f : Sub → Sub) : (s.modSub l f).fuse = s.fuse := rfl
@[simp] theorem State.modSub_tap (s : State) (l : SubLink) (f : Sub → Sub) : (s.modSub l f).tap = s.tap := rfl
@[simp] theorem State.modSub_slew (s : State) (l : SubLink) (f : Sub → Sub) : (s.modSub l f).slew = s.slew := rfl
@[simp] theorem State.modSub_engs (s : State) (l : SubLink) (f : Sub → Sub) : (s.modSub l f).engs = s.engs := rfl
@[simp] theorem State.modSub_latches (s : State) (l : SubLink) (f : Sub → Sub) : (s.modSub l f).latches = s.latches := rfl
@[simp] theorem State.modSub_acts (s : State) (l : SubLink) (f : Sub → Sub) : (s.modSub l f).acts = s.acts := rfl
@[simp] theorem State.modSub_arb (s : State) (l : SubLink) (f : Sub → Sub) : (s.modSub l f).arb = s.arb := rfl
@[simp] theorem State.modSub_arbRef (s : State) (l : SubLink) (f : Sub → Sub) : (s.modSub l f).arbRef = s.arbRef := rfl
@[simp] theorem State.modSub_slot (s : State) (l : SubLink) (f : Sub → Sub) : (s.modSub l f).slot = s.slot := rfl
@[simp] theorem State.modSub_dram (s : State) (l : SubLink) (f : Sub → Sub) : (s.modSub l f).dram = s.dram := rfl
@[simp] theorem State.modSub_outbox (s : State) (l : SubLink) (f : Sub → Sub) : (s.modSub l f).outbox = s.outbox := rfl
@[simp] theorem State.modSub_wires (s : State) (l : SubLink) (f : Sub → Sub) : (s.modSub l f).wires = s.wires := rfl
@[simp] theorem State.modSub_free (s : State) (l : SubLink) (f : Sub → Sub) : (s.modSub l f).free = s.free := rfl

/-! `State.modEng`. -/

@[simp] theorem State.modEng_pending (s : State) (e : Fin 64) (f : Engine → Engine) : (s.modEng e f).pending = s.pending := rfl
@[simp] theorem State.modEng_strobe (s : State) (e : Fin 64) (f : Engine → Engine) : (s.modEng e f).strobe = s.strobe := rfl
@[simp] theorem State.modEng_glb (s : State) (e : Fin 64) (f : Engine → Engine) : (s.modEng e f).glb = s.glb := rfl
@[simp] theorem State.modEng_dist (s : State) (e : Fin 64) (f : Engine → Engine) : (s.modEng e f).dist = s.dist := rfl
@[simp] theorem State.modEng_chs (s : State) (e : Fin 64) (f : Engine → Engine) : (s.modEng e f).chs = s.chs := rfl
@[simp] theorem State.modEng_sec (s : State) (e : Fin 64) (f : Engine → Engine) : (s.modEng e f).sec = s.sec := rfl
@[simp] theorem State.modEng_retire (s : State) (e : Fin 64) (f : Engine → Engine) : (s.modEng e f).retire = s.retire := rfl
@[simp] theorem State.modEng_scrub (s : State) (e : Fin 64) (f : Engine → Engine) : (s.modEng e f).scrub = s.scrub := rfl
@[simp] theorem State.modEng_kerbs (s : State) (e : Fin 64) (f : Engine → Engine) : (s.modEng e f).kerbs = s.kerbs := rfl
@[simp] theorem State.modEng_mports (s : State) (e : Fin 64) (f : Engine → Engine) : (s.modEng e f).mports = s.mports := rfl
@[simp] theorem State.modEng_reqPlane (s : State) (e : Fin 64) (f : Engine → Engine) : (s.modEng e f).reqPlane = s.reqPlane := rfl
@[simp] theorem State.modEng_credits (s : State) (e : Fin 64) (f : Engine → Engine) : (s.modEng e f).credits = s.credits := rfl
@[simp] theorem State.modEng_flt (s : State) (e : Fin 64) (f : Engine → Engine) : (s.modEng e f).flt = s.flt := rfl
@[simp] theorem State.modEng_thm (s : State) (e : Fin 64) (f : Engine → Engine) : (s.modEng e f).thm = s.thm := rfl
@[simp] theorem State.modEng_hosts (s : State) (e : Fin 64) (f : Engine → Engine) : (s.modEng e f).hosts = s.hosts := rfl
@[simp] theorem State.modEng_ports (s : State) (e : Fin 64) (f : Engine → Engine) : (s.modEng e f).ports = s.ports := rfl
@[simp] theorem State.modEng_fab (s : State) (e : Fin 64) (f : Engine → Engine) : (s.modEng e f).fab = s.fab := rfl
@[simp] theorem State.modEng_cmd (s : State) (e : Fin 64) (f : Engine → Engine) : (s.modEng e f).cmd = s.cmd := rfl
@[simp] theorem State.modEng_mbx (s : State) (e : Fin 64) (f : Engine → Engine) : (s.modEng e f).mbx = s.mbx := rfl
@[simp] theorem State.modEng_boot (s : State) (e : Fin 64) (f : Engine → Engine) : (s.modEng e f).boot = s.boot := rfl
@[simp] theorem State.modEng_fuse (s : State) (e : Fin 64) (f : Engine → Engine) : (s.modEng e f).fuse = s.fuse := rfl
@[simp] theorem State.modEng_tap (s : State) (e : Fin 64) (f : Engine → Engine) : (s.modEng e f).tap = s.tap := rfl
@[simp] theorem State.modEng_slew (s : State) (e : Fin 64) (f : Engine → Engine) : (s.modEng e f).slew = s.slew := rfl
@[simp] theorem State.modEng_engs (s : State) (e : Fin 64) (f : Engine → Engine) : (s.modEng e f).engs = { s.engs with eng := vmod s.engs.eng e f } := rfl
@[simp] theorem State.modEng_latches (s : State) (e : Fin 64) (f : Engine → Engine) : (s.modEng e f).latches = s.latches := rfl
@[simp] theorem State.modEng_acts (s : State) (e : Fin 64) (f : Engine → Engine) : (s.modEng e f).acts = s.acts := rfl
@[simp] theorem State.modEng_arb (s : State) (e : Fin 64) (f : Engine → Engine) : (s.modEng e f).arb = s.arb := rfl
@[simp] theorem State.modEng_arbRef (s : State) (e : Fin 64) (f : Engine → Engine) : (s.modEng e f).arbRef = s.arbRef := rfl
@[simp] theorem State.modEng_slot (s : State) (e : Fin 64) (f : Engine → Engine) : (s.modEng e f).slot = s.slot := rfl
@[simp] theorem State.modEng_dram (s : State) (e : Fin 64) (f : Engine → Engine) : (s.modEng e f).dram = s.dram := rfl
@[simp] theorem State.modEng_outbox (s : State) (e : Fin 64) (f : Engine → Engine) : (s.modEng e f).outbox = s.outbox := rfl
@[simp] theorem State.modEng_wires (s : State) (e : Fin 64) (f : Engine → Engine) : (s.modEng e f).wires = s.wires := rfl
@[simp] theorem State.modEng_free (s : State) (e : Fin 64) (f : Engine → Engine) : (s.modEng e f).free = s.free := rfl

/-! `State.modMbx`. -/

@[simp] theorem State.modMbx_pending (s : State) (c : Fin 64) (f : Mbx → Mbx) : (s.modMbx c f).pending = s.pending := rfl
@[simp] theorem State.modMbx_strobe (s : State) (c : Fin 64) (f : Mbx → Mbx) : (s.modMbx c f).strobe = s.strobe := rfl
@[simp] theorem State.modMbx_glb (s : State) (c : Fin 64) (f : Mbx → Mbx) : (s.modMbx c f).glb = s.glb := rfl
@[simp] theorem State.modMbx_dist (s : State) (c : Fin 64) (f : Mbx → Mbx) : (s.modMbx c f).dist = s.dist := rfl
@[simp] theorem State.modMbx_chs (s : State) (c : Fin 64) (f : Mbx → Mbx) : (s.modMbx c f).chs = s.chs := rfl
@[simp] theorem State.modMbx_sec (s : State) (c : Fin 64) (f : Mbx → Mbx) : (s.modMbx c f).sec = s.sec := rfl
@[simp] theorem State.modMbx_retire (s : State) (c : Fin 64) (f : Mbx → Mbx) : (s.modMbx c f).retire = s.retire := rfl
@[simp] theorem State.modMbx_scrub (s : State) (c : Fin 64) (f : Mbx → Mbx) : (s.modMbx c f).scrub = s.scrub := rfl
@[simp] theorem State.modMbx_kerbs (s : State) (c : Fin 64) (f : Mbx → Mbx) : (s.modMbx c f).kerbs = s.kerbs := rfl
@[simp] theorem State.modMbx_mports (s : State) (c : Fin 64) (f : Mbx → Mbx) : (s.modMbx c f).mports = s.mports := rfl
@[simp] theorem State.modMbx_reqPlane (s : State) (c : Fin 64) (f : Mbx → Mbx) : (s.modMbx c f).reqPlane = s.reqPlane := rfl
@[simp] theorem State.modMbx_credits (s : State) (c : Fin 64) (f : Mbx → Mbx) : (s.modMbx c f).credits = s.credits := rfl
@[simp] theorem State.modMbx_flt (s : State) (c : Fin 64) (f : Mbx → Mbx) : (s.modMbx c f).flt = s.flt := rfl
@[simp] theorem State.modMbx_thm (s : State) (c : Fin 64) (f : Mbx → Mbx) : (s.modMbx c f).thm = s.thm := rfl
@[simp] theorem State.modMbx_hosts (s : State) (c : Fin 64) (f : Mbx → Mbx) : (s.modMbx c f).hosts = s.hosts := rfl
@[simp] theorem State.modMbx_ports (s : State) (c : Fin 64) (f : Mbx → Mbx) : (s.modMbx c f).ports = s.ports := rfl
@[simp] theorem State.modMbx_fab (s : State) (c : Fin 64) (f : Mbx → Mbx) : (s.modMbx c f).fab = s.fab := rfl
@[simp] theorem State.modMbx_cmd (s : State) (c : Fin 64) (f : Mbx → Mbx) : (s.modMbx c f).cmd = s.cmd := rfl
@[simp] theorem State.modMbx_mbx (s : State) (c : Fin 64) (f : Mbx → Mbx) : (s.modMbx c f).mbx = { s.mbx with ch := vmod s.mbx.ch c f } := rfl
@[simp] theorem State.modMbx_boot (s : State) (c : Fin 64) (f : Mbx → Mbx) : (s.modMbx c f).boot = s.boot := rfl
@[simp] theorem State.modMbx_fuse (s : State) (c : Fin 64) (f : Mbx → Mbx) : (s.modMbx c f).fuse = s.fuse := rfl
@[simp] theorem State.modMbx_tap (s : State) (c : Fin 64) (f : Mbx → Mbx) : (s.modMbx c f).tap = s.tap := rfl
@[simp] theorem State.modMbx_slew (s : State) (c : Fin 64) (f : Mbx → Mbx) : (s.modMbx c f).slew = s.slew := rfl
@[simp] theorem State.modMbx_engs (s : State) (c : Fin 64) (f : Mbx → Mbx) : (s.modMbx c f).engs = s.engs := rfl
@[simp] theorem State.modMbx_latches (s : State) (c : Fin 64) (f : Mbx → Mbx) : (s.modMbx c f).latches = s.latches := rfl
@[simp] theorem State.modMbx_acts (s : State) (c : Fin 64) (f : Mbx → Mbx) : (s.modMbx c f).acts = s.acts := rfl
@[simp] theorem State.modMbx_arb (s : State) (c : Fin 64) (f : Mbx → Mbx) : (s.modMbx c f).arb = s.arb := rfl
@[simp] theorem State.modMbx_arbRef (s : State) (c : Fin 64) (f : Mbx → Mbx) : (s.modMbx c f).arbRef = s.arbRef := rfl
@[simp] theorem State.modMbx_slot (s : State) (c : Fin 64) (f : Mbx → Mbx) : (s.modMbx c f).slot = s.slot := rfl
@[simp] theorem State.modMbx_dram (s : State) (c : Fin 64) (f : Mbx → Mbx) : (s.modMbx c f).dram = s.dram := rfl
@[simp] theorem State.modMbx_outbox (s : State) (c : Fin 64) (f : Mbx → Mbx) : (s.modMbx c f).outbox = s.outbox := rfl
@[simp] theorem State.modMbx_wires (s : State) (c : Fin 64) (f : Mbx → Mbx) : (s.modMbx c f).wires = s.wires := rfl
@[simp] theorem State.modMbx_free (s : State) (c : Fin 64) (f : Mbx → Mbx) : (s.modMbx c f).free = s.free := rfl

/-! `State.modRing`. -/

@[simp] theorem State.modRing_pending (s : State) (r : Fin 32) (f : Ring → Ring) : (s.modRing r f).pending = s.pending := rfl
@[simp] theorem State.modRing_strobe (s : State) (r : Fin 32) (f : Ring → Ring) : (s.modRing r f).strobe = s.strobe := rfl
@[simp] theorem State.modRing_glb (s : State) (r : Fin 32) (f : Ring → Ring) : (s.modRing r f).glb = s.glb := rfl
@[simp] theorem State.modRing_dist (s : State) (r : Fin 32) (f : Ring → Ring) : (s.modRing r f).dist = s.dist := rfl
@[simp] theorem State.modRing_chs (s : State) (r : Fin 32) (f : Ring → Ring) : (s.modRing r f).chs = s.chs := rfl
@[simp] theorem State.modRing_sec (s : State) (r : Fin 32) (f : Ring → Ring) : (s.modRing r f).sec = s.sec := rfl
@[simp] theorem State.modRing_retire (s : State) (r : Fin 32) (f : Ring → Ring) : (s.modRing r f).retire = s.retire := rfl
@[simp] theorem State.modRing_scrub (s : State) (r : Fin 32) (f : Ring → Ring) : (s.modRing r f).scrub = s.scrub := rfl
@[simp] theorem State.modRing_kerbs (s : State) (r : Fin 32) (f : Ring → Ring) : (s.modRing r f).kerbs = s.kerbs := rfl
@[simp] theorem State.modRing_mports (s : State) (r : Fin 32) (f : Ring → Ring) : (s.modRing r f).mports = s.mports := rfl
@[simp] theorem State.modRing_reqPlane (s : State) (r : Fin 32) (f : Ring → Ring) : (s.modRing r f).reqPlane = s.reqPlane := rfl
@[simp] theorem State.modRing_credits (s : State) (r : Fin 32) (f : Ring → Ring) : (s.modRing r f).credits = s.credits := rfl
@[simp] theorem State.modRing_flt (s : State) (r : Fin 32) (f : Ring → Ring) : (s.modRing r f).flt = s.flt := rfl
@[simp] theorem State.modRing_thm (s : State) (r : Fin 32) (f : Ring → Ring) : (s.modRing r f).thm = s.thm := rfl
@[simp] theorem State.modRing_hosts (s : State) (r : Fin 32) (f : Ring → Ring) : (s.modRing r f).hosts = s.hosts := rfl
@[simp] theorem State.modRing_ports (s : State) (r : Fin 32) (f : Ring → Ring) : (s.modRing r f).ports = s.ports := rfl
@[simp] theorem State.modRing_fab (s : State) (r : Fin 32) (f : Ring → Ring) : (s.modRing r f).fab = s.fab := rfl
@[simp] theorem State.modRing_cmd (s : State) (r : Fin 32) (f : Ring → Ring) : (s.modRing r f).cmd = { s.cmd with rings := vmod s.cmd.rings r f } := rfl
@[simp] theorem State.modRing_mbx (s : State) (r : Fin 32) (f : Ring → Ring) : (s.modRing r f).mbx = s.mbx := rfl
@[simp] theorem State.modRing_boot (s : State) (r : Fin 32) (f : Ring → Ring) : (s.modRing r f).boot = s.boot := rfl
@[simp] theorem State.modRing_fuse (s : State) (r : Fin 32) (f : Ring → Ring) : (s.modRing r f).fuse = s.fuse := rfl
@[simp] theorem State.modRing_tap (s : State) (r : Fin 32) (f : Ring → Ring) : (s.modRing r f).tap = s.tap := rfl
@[simp] theorem State.modRing_slew (s : State) (r : Fin 32) (f : Ring → Ring) : (s.modRing r f).slew = s.slew := rfl
@[simp] theorem State.modRing_engs (s : State) (r : Fin 32) (f : Ring → Ring) : (s.modRing r f).engs = s.engs := rfl
@[simp] theorem State.modRing_latches (s : State) (r : Fin 32) (f : Ring → Ring) : (s.modRing r f).latches = s.latches := rfl
@[simp] theorem State.modRing_acts (s : State) (r : Fin 32) (f : Ring → Ring) : (s.modRing r f).acts = s.acts := rfl
@[simp] theorem State.modRing_arb (s : State) (r : Fin 32) (f : Ring → Ring) : (s.modRing r f).arb = s.arb := rfl
@[simp] theorem State.modRing_arbRef (s : State) (r : Fin 32) (f : Ring → Ring) : (s.modRing r f).arbRef = s.arbRef := rfl
@[simp] theorem State.modRing_slot (s : State) (r : Fin 32) (f : Ring → Ring) : (s.modRing r f).slot = s.slot := rfl
@[simp] theorem State.modRing_dram (s : State) (r : Fin 32) (f : Ring → Ring) : (s.modRing r f).dram = s.dram := rfl
@[simp] theorem State.modRing_outbox (s : State) (r : Fin 32) (f : Ring → Ring) : (s.modRing r f).outbox = s.outbox := rfl
@[simp] theorem State.modRing_wires (s : State) (r : Fin 32) (f : Ring → Ring) : (s.modRing r f).wires = s.wires := rfl
@[simp] theorem State.modRing_free (s : State) (r : Fin 32) (f : Ring → Ring) : (s.modRing r f).free = s.free := rfl

/-! `State.emit`. -/

@[simp] theorem State.emit_pending (s : State) (o : Out) : (s.emit o).pending = s.pending := rfl
@[simp] theorem State.emit_strobe (s : State) (o : Out) : (s.emit o).strobe = s.strobe := rfl
@[simp] theorem State.emit_glb (s : State) (o : Out) : (s.emit o).glb = s.glb := rfl
@[simp] theorem State.emit_dist (s : State) (o : Out) : (s.emit o).dist = s.dist := rfl
@[simp] theorem State.emit_chs (s : State) (o : Out) : (s.emit o).chs = s.chs := rfl
@[simp] theorem State.emit_sec (s : State) (o : Out) : (s.emit o).sec = s.sec := rfl
@[simp] theorem State.emit_retire (s : State) (o : Out) : (s.emit o).retire = s.retire := rfl
@[simp] theorem State.emit_scrub (s : State) (o : Out) : (s.emit o).scrub = s.scrub := rfl
@[simp] theorem State.emit_kerbs (s : State) (o : Out) : (s.emit o).kerbs = s.kerbs := rfl
@[simp] theorem State.emit_mports (s : State) (o : Out) : (s.emit o).mports = s.mports := rfl
@[simp] theorem State.emit_reqPlane (s : State) (o : Out) : (s.emit o).reqPlane = s.reqPlane := rfl
@[simp] theorem State.emit_credits (s : State) (o : Out) : (s.emit o).credits = s.credits := rfl
@[simp] theorem State.emit_flt (s : State) (o : Out) : (s.emit o).flt = s.flt := rfl
@[simp] theorem State.emit_thm (s : State) (o : Out) : (s.emit o).thm = s.thm := rfl
@[simp] theorem State.emit_hosts (s : State) (o : Out) : (s.emit o).hosts = s.hosts := rfl
@[simp] theorem State.emit_ports (s : State) (o : Out) : (s.emit o).ports = s.ports := rfl
@[simp] theorem State.emit_fab (s : State) (o : Out) : (s.emit o).fab = s.fab := rfl
@[simp] theorem State.emit_cmd (s : State) (o : Out) : (s.emit o).cmd = s.cmd := rfl
@[simp] theorem State.emit_mbx (s : State) (o : Out) : (s.emit o).mbx = s.mbx := rfl
@[simp] theorem State.emit_boot (s : State) (o : Out) : (s.emit o).boot = s.boot := rfl
@[simp] theorem State.emit_fuse (s : State) (o : Out) : (s.emit o).fuse = s.fuse := rfl
@[simp] theorem State.emit_tap (s : State) (o : Out) : (s.emit o).tap = s.tap := rfl
@[simp] theorem State.emit_slew (s : State) (o : Out) : (s.emit o).slew = s.slew := rfl
@[simp] theorem State.emit_engs (s : State) (o : Out) : (s.emit o).engs = s.engs := rfl
@[simp] theorem State.emit_latches (s : State) (o : Out) : (s.emit o).latches = s.latches := rfl
@[simp] theorem State.emit_acts (s : State) (o : Out) : (s.emit o).acts = s.acts := rfl
@[simp] theorem State.emit_arb (s : State) (o : Out) : (s.emit o).arb = s.arb := rfl
@[simp] theorem State.emit_arbRef (s : State) (o : Out) : (s.emit o).arbRef = s.arbRef := rfl
@[simp] theorem State.emit_slot (s : State) (o : Out) : (s.emit o).slot = s.slot := rfl
@[simp] theorem State.emit_dram (s : State) (o : Out) : (s.emit o).dram = s.dram := rfl
@[simp] theorem State.emit_outbox (s : State) (o : Out) : (s.emit o).outbox = o :: s.outbox := rfl
@[simp] theorem State.emit_wires (s : State) (o : Out) : (s.emit o).wires = s.wires := rfl
@[simp] theorem State.emit_free (s : State) (o : Out) : (s.emit o).free = s.free := rfl

/-! `State.bump`. -/

@[simp] theorem State.bump_pending (s : State) : (s.bump).pending = s.pending := rfl
@[simp] theorem State.bump_strobe (s : State) : (s.bump).strobe = s.strobe := rfl
@[simp] theorem State.bump_glb (s : State) : (s.bump).glb = s.glb := rfl
@[simp] theorem State.bump_dist (s : State) : (s.bump).dist = s.dist := rfl
@[simp] theorem State.bump_chs (s : State) : (s.bump).chs = s.chs := rfl
@[simp] theorem State.bump_sec (s : State) : (s.bump).sec = s.sec := rfl
@[simp] theorem State.bump_retire (s : State) : (s.bump).retire = s.retire := rfl
@[simp] theorem State.bump_scrub (s : State) : (s.bump).scrub = s.scrub := rfl
@[simp] theorem State.bump_kerbs (s : State) : (s.bump).kerbs = s.kerbs := rfl
@[simp] theorem State.bump_mports (s : State) : (s.bump).mports = s.mports := rfl
@[simp] theorem State.bump_reqPlane (s : State) : (s.bump).reqPlane = s.reqPlane := rfl
@[simp] theorem State.bump_credits (s : State) : (s.bump).credits = s.credits := rfl
@[simp] theorem State.bump_flt (s : State) : (s.bump).flt = s.flt := rfl
@[simp] theorem State.bump_thm (s : State) : (s.bump).thm = s.thm := rfl
@[simp] theorem State.bump_hosts (s : State) : (s.bump).hosts = s.hosts := rfl
@[simp] theorem State.bump_ports (s : State) : (s.bump).ports = s.ports := rfl
@[simp] theorem State.bump_fab (s : State) : (s.bump).fab = s.fab := rfl
@[simp] theorem State.bump_cmd (s : State) : (s.bump).cmd = s.cmd := rfl
@[simp] theorem State.bump_mbx (s : State) : (s.bump).mbx = s.mbx := rfl
@[simp] theorem State.bump_boot (s : State) : (s.bump).boot = s.boot := rfl
@[simp] theorem State.bump_fuse (s : State) : (s.bump).fuse = s.fuse := rfl
@[simp] theorem State.bump_tap (s : State) : (s.bump).tap = s.tap := rfl
@[simp] theorem State.bump_slew (s : State) : (s.bump).slew = s.slew := rfl
@[simp] theorem State.bump_engs (s : State) : (s.bump).engs = s.engs := rfl
@[simp] theorem State.bump_latches (s : State) : (s.bump).latches = s.latches := rfl
@[simp] theorem State.bump_acts (s : State) : (s.bump).acts = s.acts := rfl
@[simp] theorem State.bump_arb (s : State) : (s.bump).arb = s.arb := rfl
@[simp] theorem State.bump_arbRef (s : State) : (s.bump).arbRef = s.arbRef := rfl
@[simp] theorem State.bump_slot (s : State) : (s.bump).slot = s.slot := rfl
@[simp] theorem State.bump_dram (s : State) : (s.bump).dram = s.dram := rfl
@[simp] theorem State.bump_outbox (s : State) : (s.bump).outbox = s.outbox := rfl
@[simp] theorem State.bump_wires (s : State) : (s.bump).wires = s.wires := rfl
@[simp] theorem State.bump_free (s : State) : (s.bump).free = s.free + 1 := rfl

/-! `State.i3cStop`. -/

@[simp] theorem State.i3cStop_pending (s : State) (scl : Nat) : (s.i3cStop scl).pending = s.pending := rfl
@[simp] theorem State.i3cStop_strobe (s : State) (scl : Nat) : (s.i3cStop scl).strobe = s.strobe := rfl
@[simp] theorem State.i3cStop_glb (s : State) (scl : Nat) : (s.i3cStop scl).glb = s.glb := rfl
@[simp] theorem State.i3cStop_dist (s : State) (scl : Nat) : (s.i3cStop scl).dist = s.dist := rfl
@[simp] theorem State.i3cStop_chs (s : State) (scl : Nat) : (s.i3cStop scl).chs = s.chs := rfl
@[simp] theorem State.i3cStop_sec (s : State) (scl : Nat) : (s.i3cStop scl).sec = s.sec := rfl
@[simp] theorem State.i3cStop_retire (s : State) (scl : Nat) : (s.i3cStop scl).retire = s.retire := rfl
@[simp] theorem State.i3cStop_scrub (s : State) (scl : Nat) : (s.i3cStop scl).scrub = s.scrub := rfl
@[simp] theorem State.i3cStop_kerbs (s : State) (scl : Nat) : (s.i3cStop scl).kerbs = s.kerbs := rfl
@[simp] theorem State.i3cStop_mports (s : State) (scl : Nat) : (s.i3cStop scl).mports = s.mports := rfl
@[simp] theorem State.i3cStop_reqPlane (s : State) (scl : Nat) : (s.i3cStop scl).reqPlane = s.reqPlane := rfl
@[simp] theorem State.i3cStop_credits (s : State) (scl : Nat) : (s.i3cStop scl).credits = s.credits := rfl
@[simp] theorem State.i3cStop_flt (s : State) (scl : Nat) : (s.i3cStop scl).flt = s.flt := rfl
@[simp] theorem State.i3cStop_thm (s : State) (scl : Nat) : (s.i3cStop scl).thm = s.thm := rfl
@[simp] theorem State.i3cStop_hosts (s : State) (scl : Nat) : (s.i3cStop scl).hosts = s.hosts := rfl
@[simp] theorem State.i3cStop_ports (s : State) (scl : Nat) : (s.i3cStop scl).ports = s.ports := rfl
@[simp] theorem State.i3cStop_fab (s : State) (scl : Nat) : (s.i3cStop scl).fab = s.fab := rfl
@[simp] theorem State.i3cStop_cmd (s : State) (scl : Nat) : (s.i3cStop scl).cmd = s.cmd := rfl
@[simp] theorem State.i3cStop_mbx (s : State) (scl : Nat) : (s.i3cStop scl).mbx = s.mbx := rfl
@[simp] theorem State.i3cStop_boot (s : State) (scl : Nat) : (s.i3cStop scl).boot = s.boot := rfl
@[simp] theorem State.i3cStop_fuse (s : State) (scl : Nat) : (s.i3cStop scl).fuse = s.fuse := rfl
@[simp] theorem State.i3cStop_tap (s : State) (scl : Nat) : (s.i3cStop scl).tap = s.tap := rfl
@[simp] theorem State.i3cStop_slew (s : State) (scl : Nat) : (s.i3cStop scl).slew = { s.slew with sda := slewStep scl } := rfl
@[simp] theorem State.i3cStop_engs (s : State) (scl : Nat) : (s.i3cStop scl).engs = s.engs := rfl
@[simp] theorem State.i3cStop_latches (s : State) (scl : Nat) : (s.i3cStop scl).latches = s.latches := rfl
@[simp] theorem State.i3cStop_acts (s : State) (scl : Nat) : (s.i3cStop scl).acts = s.acts := rfl
@[simp] theorem State.i3cStop_arb (s : State) (scl : Nat) : (s.i3cStop scl).arb = s.arb := rfl
@[simp] theorem State.i3cStop_arbRef (s : State) (scl : Nat) : (s.i3cStop scl).arbRef = s.arbRef := rfl
@[simp] theorem State.i3cStop_slot (s : State) (scl : Nat) : (s.i3cStop scl).slot = s.slot := rfl
@[simp] theorem State.i3cStop_dram (s : State) (scl : Nat) : (s.i3cStop scl).dram = s.dram := rfl
@[simp] theorem State.i3cStop_outbox (s : State) (scl : Nat) : (s.i3cStop scl).outbox = s.outbox := rfl
@[simp] theorem State.i3cStop_wires (s : State) (scl : Nat) : (s.i3cStop scl).wires = s.wires := rfl
@[simp] theorem State.i3cStop_free (s : State) (scl : Nat) : (s.i3cStop scl).free = s.free := rfl

/-! `State.setDramLine`. -/

@[simp] theorem State.setDramLine_pending (s : State) (ch key : Nat) (l : SLine) : (s.setDramLine ch key l).pending = s.pending := rfl
@[simp] theorem State.setDramLine_strobe (s : State) (ch key : Nat) (l : SLine) : (s.setDramLine ch key l).strobe = s.strobe := rfl
@[simp] theorem State.setDramLine_glb (s : State) (ch key : Nat) (l : SLine) : (s.setDramLine ch key l).glb = s.glb := rfl
@[simp] theorem State.setDramLine_dist (s : State) (ch key : Nat) (l : SLine) : (s.setDramLine ch key l).dist = s.dist := rfl
@[simp] theorem State.setDramLine_chs (s : State) (ch key : Nat) (l : SLine) : (s.setDramLine ch key l).chs = s.chs := rfl
@[simp] theorem State.setDramLine_sec (s : State) (ch key : Nat) (l : SLine) : (s.setDramLine ch key l).sec = s.sec := rfl
@[simp] theorem State.setDramLine_retire (s : State) (ch key : Nat) (l : SLine) : (s.setDramLine ch key l).retire = s.retire := rfl
@[simp] theorem State.setDramLine_scrub (s : State) (ch key : Nat) (l : SLine) : (s.setDramLine ch key l).scrub = s.scrub := rfl
@[simp] theorem State.setDramLine_kerbs (s : State) (ch key : Nat) (l : SLine) : (s.setDramLine ch key l).kerbs = s.kerbs := rfl
@[simp] theorem State.setDramLine_mports (s : State) (ch key : Nat) (l : SLine) : (s.setDramLine ch key l).mports = s.mports := rfl
@[simp] theorem State.setDramLine_reqPlane (s : State) (ch key : Nat) (l : SLine) : (s.setDramLine ch key l).reqPlane = s.reqPlane := rfl
@[simp] theorem State.setDramLine_credits (s : State) (ch key : Nat) (l : SLine) : (s.setDramLine ch key l).credits = s.credits := rfl
@[simp] theorem State.setDramLine_flt (s : State) (ch key : Nat) (l : SLine) : (s.setDramLine ch key l).flt = s.flt := rfl
@[simp] theorem State.setDramLine_thm (s : State) (ch key : Nat) (l : SLine) : (s.setDramLine ch key l).thm = s.thm := rfl
@[simp] theorem State.setDramLine_hosts (s : State) (ch key : Nat) (l : SLine) : (s.setDramLine ch key l).hosts = s.hosts := rfl
@[simp] theorem State.setDramLine_ports (s : State) (ch key : Nat) (l : SLine) : (s.setDramLine ch key l).ports = s.ports := rfl
@[simp] theorem State.setDramLine_fab (s : State) (ch key : Nat) (l : SLine) : (s.setDramLine ch key l).fab = s.fab := rfl
@[simp] theorem State.setDramLine_cmd (s : State) (ch key : Nat) (l : SLine) : (s.setDramLine ch key l).cmd = s.cmd := rfl
@[simp] theorem State.setDramLine_mbx (s : State) (ch key : Nat) (l : SLine) : (s.setDramLine ch key l).mbx = s.mbx := rfl
@[simp] theorem State.setDramLine_boot (s : State) (ch key : Nat) (l : SLine) : (s.setDramLine ch key l).boot = s.boot := rfl
@[simp] theorem State.setDramLine_fuse (s : State) (ch key : Nat) (l : SLine) : (s.setDramLine ch key l).fuse = s.fuse := rfl
@[simp] theorem State.setDramLine_tap (s : State) (ch key : Nat) (l : SLine) : (s.setDramLine ch key l).tap = s.tap := rfl
@[simp] theorem State.setDramLine_slew (s : State) (ch key : Nat) (l : SLine) : (s.setDramLine ch key l).slew = s.slew := rfl
@[simp] theorem State.setDramLine_engs (s : State) (ch key : Nat) (l : SLine) : (s.setDramLine ch key l).engs = s.engs := rfl
@[simp] theorem State.setDramLine_latches (s : State) (ch key : Nat) (l : SLine) : (s.setDramLine ch key l).latches = s.latches := rfl
@[simp] theorem State.setDramLine_acts (s : State) (ch key : Nat) (l : SLine) : (s.setDramLine ch key l).acts = s.acts := rfl
@[simp] theorem State.setDramLine_arb (s : State) (ch key : Nat) (l : SLine) : (s.setDramLine ch key l).arb = s.arb := rfl
@[simp] theorem State.setDramLine_arbRef (s : State) (ch key : Nat) (l : SLine) : (s.setDramLine ch key l).arbRef = s.arbRef := rfl
@[simp] theorem State.setDramLine_slot (s : State) (ch key : Nat) (l : SLine) : (s.setDramLine ch key l).slot = s.slot := rfl
@[simp] theorem State.setDramLine_dram (s : State) (ch key : Nat) (l : SLine) : (s.setDramLine ch key l).dram = memWrites s.dram (lineCell ch key) (toBytes l 80) := rfl
@[simp] theorem State.setDramLine_outbox (s : State) (ch key : Nat) (l : SLine) : (s.setDramLine ch key l).outbox = s.outbox := rfl
@[simp] theorem State.setDramLine_wires (s : State) (ch key : Nat) (l : SLine) : (s.setDramLine ch key l).wires = s.wires := rfl
@[simp] theorem State.setDramLine_free (s : State) (ch key : Nat) (l : SLine) : (s.setDramLine ch key l).free = s.free := rfl

/-! `State.logAddr`. -/

@[simp] theorem State.logAddr_pending (s : State) (id addr access : Nat) (m : MasterId) (st : Nat) (forced : Bool) : (s.logAddr id addr access m st forced).pending = s.pending := rfl
@[simp] theorem State.logAddr_strobe (s : State) (id addr access : Nat) (m : MasterId) (st : Nat) (forced : Bool) : (s.logAddr id addr access m st forced).strobe = s.strobe := rfl
@[simp] theorem State.logAddr_glb (s : State) (id addr access : Nat) (m : MasterId) (st : Nat) (forced : Bool) : (s.logAddr id addr access m st forced).glb = s.glb := rfl
@[simp] theorem State.logAddr_dist (s : State) (id addr access : Nat) (m : MasterId) (st : Nat) (forced : Bool) : (s.logAddr id addr access m st forced).dist = s.dist := rfl
@[simp] theorem State.logAddr_chs (s : State) (id addr access : Nat) (m : MasterId) (st : Nat) (forced : Bool) : (s.logAddr id addr access m st forced).chs = s.chs := rfl
@[simp] theorem State.logAddr_sec (s : State) (id addr access : Nat) (m : MasterId) (st : Nat) (forced : Bool) : (s.logAddr id addr access m st forced).sec = s.sec := rfl
@[simp] theorem State.logAddr_retire (s : State) (id addr access : Nat) (m : MasterId) (st : Nat) (forced : Bool) : (s.logAddr id addr access m st forced).retire = s.retire := rfl
@[simp] theorem State.logAddr_scrub (s : State) (id addr access : Nat) (m : MasterId) (st : Nat) (forced : Bool) : (s.logAddr id addr access m st forced).scrub = s.scrub := rfl
@[simp] theorem State.logAddr_kerbs (s : State) (id addr access : Nat) (m : MasterId) (st : Nat) (forced : Bool) : (s.logAddr id addr access m st forced).kerbs = s.kerbs := rfl
@[simp] theorem State.logAddr_mports (s : State) (id addr access : Nat) (m : MasterId) (st : Nat) (forced : Bool) : (s.logAddr id addr access m st forced).mports = s.mports := rfl
@[simp] theorem State.logAddr_reqPlane (s : State) (id addr access : Nat) (m : MasterId) (st : Nat) (forced : Bool) : (s.logAddr id addr access m st forced).reqPlane = s.reqPlane := rfl
@[simp] theorem State.logAddr_credits (s : State) (id addr access : Nat) (m : MasterId) (st : Nat) (forced : Bool) : (s.logAddr id addr access m st forced).credits = s.credits := rfl
@[simp] theorem State.logAddr_thm (s : State) (id addr access : Nat) (m : MasterId) (st : Nat) (forced : Bool) : (s.logAddr id addr access m st forced).thm = s.thm := rfl
@[simp] theorem State.logAddr_hosts (s : State) (id addr access : Nat) (m : MasterId) (st : Nat) (forced : Bool) : (s.logAddr id addr access m st forced).hosts = s.hosts := rfl
@[simp] theorem State.logAddr_ports (s : State) (id addr access : Nat) (m : MasterId) (st : Nat) (forced : Bool) : (s.logAddr id addr access m st forced).ports = s.ports := rfl
@[simp] theorem State.logAddr_fab (s : State) (id addr access : Nat) (m : MasterId) (st : Nat) (forced : Bool) : (s.logAddr id addr access m st forced).fab = s.fab := rfl
@[simp] theorem State.logAddr_cmd (s : State) (id addr access : Nat) (m : MasterId) (st : Nat) (forced : Bool) : (s.logAddr id addr access m st forced).cmd = s.cmd := rfl
@[simp] theorem State.logAddr_mbx (s : State) (id addr access : Nat) (m : MasterId) (st : Nat) (forced : Bool) : (s.logAddr id addr access m st forced).mbx = s.mbx := rfl
@[simp] theorem State.logAddr_boot (s : State) (id addr access : Nat) (m : MasterId) (st : Nat) (forced : Bool) : (s.logAddr id addr access m st forced).boot = s.boot := rfl
@[simp] theorem State.logAddr_fuse (s : State) (id addr access : Nat) (m : MasterId) (st : Nat) (forced : Bool) : (s.logAddr id addr access m st forced).fuse = s.fuse := rfl
@[simp] theorem State.logAddr_tap (s : State) (id addr access : Nat) (m : MasterId) (st : Nat) (forced : Bool) : (s.logAddr id addr access m st forced).tap = s.tap := rfl
@[simp] theorem State.logAddr_slew (s : State) (id addr access : Nat) (m : MasterId) (st : Nat) (forced : Bool) : (s.logAddr id addr access m st forced).slew = s.slew := rfl
@[simp] theorem State.logAddr_engs (s : State) (id addr access : Nat) (m : MasterId) (st : Nat) (forced : Bool) : (s.logAddr id addr access m st forced).engs = s.engs := rfl
@[simp] theorem State.logAddr_latches (s : State) (id addr access : Nat) (m : MasterId) (st : Nat) (forced : Bool) : (s.logAddr id addr access m st forced).latches = s.latches := rfl
@[simp] theorem State.logAddr_acts (s : State) (id addr access : Nat) (m : MasterId) (st : Nat) (forced : Bool) : (s.logAddr id addr access m st forced).acts = s.acts := rfl
@[simp] theorem State.logAddr_arb (s : State) (id addr access : Nat) (m : MasterId) (st : Nat) (forced : Bool) : (s.logAddr id addr access m st forced).arb = s.arb := rfl
@[simp] theorem State.logAddr_arbRef (s : State) (id addr access : Nat) (m : MasterId) (st : Nat) (forced : Bool) : (s.logAddr id addr access m st forced).arbRef = s.arbRef := rfl
@[simp] theorem State.logAddr_slot (s : State) (id addr access : Nat) (m : MasterId) (st : Nat) (forced : Bool) : (s.logAddr id addr access m st forced).slot = s.slot := rfl
@[simp] theorem State.logAddr_dram (s : State) (id addr access : Nat) (m : MasterId) (st : Nat) (forced : Bool) : (s.logAddr id addr access m st forced).dram = s.dram := rfl
@[simp] theorem State.logAddr_outbox (s : State) (id addr access : Nat) (m : MasterId) (st : Nat) (forced : Bool) : (s.logAddr id addr access m st forced).outbox = s.outbox := rfl
@[simp] theorem State.logAddr_wires (s : State) (id addr access : Nat) (m : MasterId) (st : Nat) (forced : Bool) : (s.logAddr id addr access m st forced).wires = s.wires := rfl
@[simp] theorem State.logAddr_free (s : State) (id addr access : Nat) (m : MasterId) (st : Nat) (forced : Bool) : (s.logAddr id addr access m st forced).free = s.free := rfl

/-! `State.log`. -/

@[simp] theorem State.log_pending (s : State) (id lo access : Nat) (m : MasterId) (st : Nat) : (s.log id lo access m st).pending = s.pending := rfl
@[simp] theorem State.log_strobe (s : State) (id lo access : Nat) (m : MasterId) (st : Nat) : (s.log id lo access m st).strobe = s.strobe := rfl
@[simp] theorem State.log_glb (s : State) (id lo access : Nat) (m : MasterId) (st : Nat) : (s.log id lo access m st).glb = s.glb := rfl
@[simp] theorem State.log_dist (s : State) (id lo access : Nat) (m : MasterId) (st : Nat) : (s.log id lo access m st).dist = s.dist := rfl
@[simp] theorem State.log_chs (s : State) (id lo access : Nat) (m : MasterId) (st : Nat) : (s.log id lo access m st).chs = s.chs := rfl
@[simp] theorem State.log_sec (s : State) (id lo access : Nat) (m : MasterId) (st : Nat) : (s.log id lo access m st).sec = s.sec := rfl
@[simp] theorem State.log_retire (s : State) (id lo access : Nat) (m : MasterId) (st : Nat) : (s.log id lo access m st).retire = s.retire := rfl
@[simp] theorem State.log_scrub (s : State) (id lo access : Nat) (m : MasterId) (st : Nat) : (s.log id lo access m st).scrub = s.scrub := rfl
@[simp] theorem State.log_kerbs (s : State) (id lo access : Nat) (m : MasterId) (st : Nat) : (s.log id lo access m st).kerbs = s.kerbs := rfl
@[simp] theorem State.log_mports (s : State) (id lo access : Nat) (m : MasterId) (st : Nat) : (s.log id lo access m st).mports = s.mports := rfl
@[simp] theorem State.log_reqPlane (s : State) (id lo access : Nat) (m : MasterId) (st : Nat) : (s.log id lo access m st).reqPlane = s.reqPlane := rfl
@[simp] theorem State.log_credits (s : State) (id lo access : Nat) (m : MasterId) (st : Nat) : (s.log id lo access m st).credits = s.credits := rfl
@[simp] theorem State.log_thm (s : State) (id lo access : Nat) (m : MasterId) (st : Nat) : (s.log id lo access m st).thm = s.thm := rfl
@[simp] theorem State.log_hosts (s : State) (id lo access : Nat) (m : MasterId) (st : Nat) : (s.log id lo access m st).hosts = s.hosts := rfl
@[simp] theorem State.log_ports (s : State) (id lo access : Nat) (m : MasterId) (st : Nat) : (s.log id lo access m st).ports = s.ports := rfl
@[simp] theorem State.log_fab (s : State) (id lo access : Nat) (m : MasterId) (st : Nat) : (s.log id lo access m st).fab = s.fab := rfl
@[simp] theorem State.log_cmd (s : State) (id lo access : Nat) (m : MasterId) (st : Nat) : (s.log id lo access m st).cmd = s.cmd := rfl
@[simp] theorem State.log_mbx (s : State) (id lo access : Nat) (m : MasterId) (st : Nat) : (s.log id lo access m st).mbx = s.mbx := rfl
@[simp] theorem State.log_boot (s : State) (id lo access : Nat) (m : MasterId) (st : Nat) : (s.log id lo access m st).boot = s.boot := rfl
@[simp] theorem State.log_fuse (s : State) (id lo access : Nat) (m : MasterId) (st : Nat) : (s.log id lo access m st).fuse = s.fuse := rfl
@[simp] theorem State.log_tap (s : State) (id lo access : Nat) (m : MasterId) (st : Nat) : (s.log id lo access m st).tap = s.tap := rfl
@[simp] theorem State.log_slew (s : State) (id lo access : Nat) (m : MasterId) (st : Nat) : (s.log id lo access m st).slew = s.slew := rfl
@[simp] theorem State.log_engs (s : State) (id lo access : Nat) (m : MasterId) (st : Nat) : (s.log id lo access m st).engs = s.engs := rfl
@[simp] theorem State.log_latches (s : State) (id lo access : Nat) (m : MasterId) (st : Nat) : (s.log id lo access m st).latches = s.latches := rfl
@[simp] theorem State.log_acts (s : State) (id lo access : Nat) (m : MasterId) (st : Nat) : (s.log id lo access m st).acts = s.acts := rfl
@[simp] theorem State.log_arb (s : State) (id lo access : Nat) (m : MasterId) (st : Nat) : (s.log id lo access m st).arb = s.arb := rfl
@[simp] theorem State.log_arbRef (s : State) (id lo access : Nat) (m : MasterId) (st : Nat) : (s.log id lo access m st).arbRef = s.arbRef := rfl
@[simp] theorem State.log_slot (s : State) (id lo access : Nat) (m : MasterId) (st : Nat) : (s.log id lo access m st).slot = s.slot := rfl
@[simp] theorem State.log_dram (s : State) (id lo access : Nat) (m : MasterId) (st : Nat) : (s.log id lo access m st).dram = s.dram := rfl
@[simp] theorem State.log_outbox (s : State) (id lo access : Nat) (m : MasterId) (st : Nat) : (s.log id lo access m st).outbox = s.outbox := rfl
@[simp] theorem State.log_wires (s : State) (id lo access : Nat) (m : MasterId) (st : Nat) : (s.log id lo access m st).wires = s.wires := rfl
@[simp] theorem State.log_free (s : State) (id lo access : Nat) (m : MasterId) (st : Nat) : (s.log id lo access m st).free = s.free := rfl

end Sys2Proof.Machine
end

