-- ==== Sys2Proof/Laws/Memory.lean ====
section
/-! SUPPORT. Sparse tables and the DRAM content: reads after writes, and the canonical form. -/

namespace Sys2Proof.Machine

variable {α : Type}

theorem smAbove_mono {b c : Nat} (h : b ≤ c) : ∀ {m : SMap α}, smAbove c m = true → smAbove b m = true
  | [], _ => rfl
  | (j, _) :: m, hm => by
    simp only [smAbove, Bool.and_eq_true, decide_eq_true_eq] at *
    exact ⟨by omega, hm.2⟩

/-- A key at or below the bound is not listed. -/
theorem smGet?_above {b k : Nat} (h : k ≤ b) : ∀ {m : SMap α}, smAbove b m = true → smGet? m k = none
  | [], _ => rfl
  | (j, _) :: m, hm => by
    simp only [smAbove, Bool.and_eq_true, decide_eq_true_eq] at hm
    simp only [smGet?]
    rw [if_neg (by omega), if_pos (by omega)]

/-- A table with keys above a bound is canonical. -/
theorem smWf_of_above {b : Nat} : ∀ {m : SMap α}, smAbove b m = true → smWf m = true
  | [], _ => rfl
  | (j, _) :: m, hm => by
    simp only [smAbove, Bool.and_eq_true] at hm
    exact hm.2

theorem smAbove_put {b k : Nat} {v : α} (hb : b < k) : ∀ {m : SMap α}, smAbove b m = true → smAbove b (smPut m k v) = true
  | [], _ => by simp [smPut, smAbove, hb]
  | (j, w) :: m, hm => by
    simp only [smAbove, Bool.and_eq_true, decide_eq_true_eq] at hm
    simp only [smPut]
    split
    · rename_i h; simp [smAbove, hb, h, hm.2]
    · split
      · rename_i h1 h2; subst h2; simp [smAbove, hb, hm.2]
      · have := smAbove_put (b := j) (k := k) (v := v) (by omega) hm.2
        simp [smAbove, hm.1, this]

/-- A write keeps the canonical form. -/
theorem smWf_put {k : Nat} {v : α} : ∀ {m : SMap α}, smWf m = true → smWf (smPut m k v) = true
  | [], _ => by simp [smPut, smWf, smAbove]
  | (j, w) :: m, hm => by
    simp only [smWf] at hm
    simp only [smPut]
    split
    · rename_i h; simp [smWf, smAbove, h, hm]
    · split
      · rename_i h1 h2; subst h2; simp [smWf, hm]
      · simp only [smWf]; exact smAbove_put (by omega) hm

theorem smAbove_del {b k : Nat} : ∀ {m : SMap α}, smAbove b m = true → smAbove b (smDel m k) = true
  | [], _ => rfl
  | (j, w) :: m, hm => by
    simp only [smAbove, Bool.and_eq_true, decide_eq_true_eq] at hm
    simp only [smDel]
    split
    · exact smAbove_mono (by omega) hm.2
    · split
      · simp [smAbove, hm.1, hm.2]
      · simp [smAbove, hm.1, smAbove_del hm.2]

/-- A removal keeps the canonical form. -/
theorem smWf_del {k : Nat} : ∀ {m : SMap α}, smWf m = true → smWf (smDel m k) = true
  | [], _ => rfl
  | (j, w) :: m, hm => by
    simp only [smWf] at hm
    simp only [smDel]
    split
    · exact smWf_of_above hm
    · split
      · simpa [smWf] using hm
      · simp only [smWf]; exact smAbove_del hm

/-- A read after a write of the same key. -/
@[simp] theorem smGet?_put_self (k : Nat) (v : α) : ∀ m : SMap α, smGet? (smPut m k v) k = some v
  | [] => by simp [smPut, smGet?]
  | (j, w) :: m => by
    simp only [smPut]
    split
    · simp [smGet?]
    · split
      · simp [smGet?]
      · simp only [smGet?]
        rw [if_neg (by assumption), if_neg (by assumption), smGet?_put_self k v m]

/-- A write leaves every other key alone. -/
theorem smGet?_put_of_ne {k i : Nat} (v : α) (h : i ≠ k) : ∀ m : SMap α, smGet? (smPut m k v) i = smGet? m i
  | [] => by simp only [smPut, smGet?]; split <;> simp_all
  | (j, w) :: m => by
    simp only [smPut]
    split
    · simp only [smGet?]
      by_cases h1 : k = i
      · exact absurd h1.symm h
      · rw [if_neg h1]
        by_cases h2 : i < k
        · rw [if_pos h2]
          rw [if_neg (by omega), if_pos (by omega)]
        · rw [if_neg h2]
    · split
      · rename_i h1 h2
        subst h2
        simp [smGet?, Ne.symm h]
      · simp only [smGet?]
        split
        · rfl
        · split
          · rfl
          · exact smGet?_put_of_ne v h m

/-- A removal leaves every other key alone. -/
theorem smGet?_del_of_ne {k i : Nat} (h : i ≠ k) : ∀ {m : SMap α}, smWf m = true → smGet? (smDel m k) i = smGet? m i
  | [], _ => rfl
  | (j, w) :: m, hm => by
    simp only [smWf] at hm
    simp only [smDel]
    split
    · rename_i h1
      subst h1
      simp only [smGet?]
      rw [if_neg (fun e => h e.symm)]
      split
      · rename_i h2; exact smGet?_above (by omega) hm
      · rfl
    · split
      · rfl
      · simp only [smGet?]
        split
        · rfl
        · split
          · rfl
          · exact smGet?_del_of_ne h (smWf_of_above hm)

/-- A removed key is not listed. -/
theorem smGet?_del_self {k : Nat} : ∀ {m : SMap α}, smWf m = true → smGet? (smDel m k) k = none
  | [], _ => rfl
  | (j, w) :: m, hm => by
    simp only [smWf] at hm
    simp only [smDel]
    split
    · rename_i h1; subst h1; exact smGet?_above (Nat.le_refl _) hm
    · split
      · rename_i h1 h2; simp only [smGet?]; rw [if_neg h1, if_pos h2]
      · rename_i h1 h2
        simp only [smGet?]
        rw [if_neg h1, if_neg h2, smGet?_del_self (smWf_of_above hm)]

@[simp] theorem smGetD_put_self (m : SMap α) (k : Nat) (v d : α) : smGetD (smPut m k v) k d = v := by simp [smGetD]

theorem smGetD_put_of_ne {k i : Nat} (m : SMap α) (v d : α) (h : i ≠ k) : smGetD (smPut m k v) i d = smGetD m i d := by
  simp [smGetD, smGet?_put_of_ne v h m]

theorem all_put {p : Nat × α → Bool} {k : Nat} {v : α} (hv : p (k, v) = true) :
    ∀ {m : SMap α}, m.all p = true → (smPut m k v).all p = true
  | [], _ => by simp [smPut, hv]
  | (j, w) :: m, hm => by
    simp only [List.all_cons, Bool.and_eq_true] at hm
    simp only [smPut]
    split
    · simp [hv, hm.1, hm.2]
    · split
      · simp [hv, hm.2]
      · simp only [List.all_cons, hm.1, all_put hv hm.2, Bool.and_self]

theorem all_del {p : Nat × α → Bool} {k : Nat} : ∀ {m : SMap α}, m.all p = true → (smDel m k).all p = true
  | [], _ => rfl
  | (j, w) :: m, hm => by
    simp only [List.all_cons, Bool.and_eq_true] at hm
    simp only [smDel]
    split
    · exact hm.2
    · split
      · simp [hm.1, hm.2]
      · simp only [List.all_cons, hm.1, all_del hm.2, Bool.and_self]

/-- A byte write keeps the canonical form. -/
theorem memWrite_wf {m : Memory} (k : Nat) (b : Byte) (h : Memory.wf m = true) : Memory.wf (memWrite m k b) = true := by
  simp only [Memory.wf, Bool.and_eq_true] at *
  simp only [memWrite]
  split
  · exact ⟨smWf_del h.1, all_del h.2⟩
  · exact ⟨smWf_put h.1, all_put (by simpa using (by assumption)) h.2⟩

/-- A read after a byte write of the same cell. -/
theorem memRead_write_self {m : Memory} (k : Nat) (b : Byte) (h : Memory.wf m = true) : memRead (memWrite m k b) k = b := by
  simp only [Memory.wf, Bool.and_eq_true] at h
  simp only [memRead, memWrite]
  split
  · rename_i hb; subst hb; simp [smGetD, smGet?_del_self h.1]
  · simp

/-- A byte write leaves every other cell alone. -/
theorem memRead_write_of_ne {m : Memory} {k i : Nat} (b : Byte) (h : Memory.wf m = true) (hi : i ≠ k) :
    memRead (memWrite m k b) i = memRead m i := by
  simp only [Memory.wf, Bool.and_eq_true] at h
  simp only [memRead, memWrite]
  split
  · simp [smGetD, smGet?_del_of_ne hi h.1]
  · exact smGetD_put_of_ne m b 0 hi

/-- A write of bytes keeps the canonical form. -/
theorem memWrites_wf : ∀ (bs : List Byte) {m : Memory} (k : Nat), Memory.wf m = true → Memory.wf (memWrites m k bs) = true
  | [], _, _, h => h
  | b :: bs, _, k, h => memWrites_wf bs (k + 1) (memWrite_wf k b h)

/-- A write of bytes leaves every cell outside them alone. -/
theorem memRead_writes_outside : ∀ (bs : List Byte) {m : Memory} {k i : Nat}, Memory.wf m = true → (i < k ∨ k + bs.length ≤ i) →
    memRead (memWrites m k bs) i = memRead m i
  | [], _, _, _, _, _ => rfl
  | b :: bs, m, k, i, h, hi => by
    simp only [List.length_cons] at hi
    rw [memWrites, memRead_writes_outside bs (memWrite_wf k b h) (by omega), memRead_write_of_ne b h (by omega)]

/-- A read after a write of bytes. -/
theorem memRead_writes_inside : ∀ (bs : List Byte) {m : Memory} {k : Nat} (j : Nat) (hj : j < bs.length), Memory.wf m = true →
    memRead (memWrites m k bs) (k + j) = bs[j]
  | b :: bs, m, k, 0, _, h => by
    rw [memWrites, memRead_writes_outside bs (memWrite_wf k b h) (by omega)]
    simpa using memRead_write_self k b h
  | b :: bs, m, k, j + 1, hj, h => by
    have e : k + (j + 1) = (k + 1) + j := by omega
    rw [memWrites, e, memRead_writes_inside bs j (by simpa using hj) (memWrite_wf k b h)]
    rfl

/-- Storing a line keeps the canonical form of the layers' content. -/
theorem setDramLine_wf (s : State) (ch key : Nat) (l : SLine) (h : Memory.wf s.dram = true) :
    Memory.wf (s.setDramLine ch key l).dram = true := memWrites_wf _ _ h

theorem reset_memory_wf : Memory.wf State.reset.dram = true := by decide

end Sys2Proof.Machine
end

