-- ==== Sys2Proof/Laws/Ops.lean ====
section
/-! SUPPORT. What the shared operations can do: one lemma per operation. -/

namespace Sys2Proof.Machine

variable {α : Type} {n : Nat}

/-! Vectors. -/

@[simp] theorem vput_self (v : Vector α n) (i : Fin n) (x : α) : (vput v i x)[i] = x := by simp [vput]

theorem vput_of_ne (v : Vector α n) (i j : Fin n) (x : α) (h : j ≠ i) : (vput v i x)[j] = v[j] := by
  have : i.val ≠ j.val := fun e => h (Fin.ext e.symm)
  simp [vput, this]

@[simp] theorem vmod_self (v : Vector α n) (i : Fin n) (f : α → α) : (vmod v i f)[i] = f v[i] := vput_self v i _

theorem vmod_of_ne (v : Vector α n) (i j : Fin n) (f : α → α) (h : j ≠ i) : (vmod v i f)[j] = v[j] := vput_of_ne v i j _ h

/-! Events, interrupts, completions. -/

/-- An event changes the collector's source state only: nothing where the wire is broken, the count where a report is under way,
else the capture register (R432, R433). -/
theorem logAddr_cases (s : State) (id addr access : Nat) (m : MasterId) (st : Nat) (forced : Bool) :
    ∃ x : FltSource, s.logAddr id addr access m st forced = { s with flt := { s.flt with srcs := smPut s.flt.srcs id x } } ∧
      ((s.flt.src id).broken = true → x = s.flt.src id) ∧ x.broken = (s.flt.src id).broken ∧ x.reaction = (s.flt.src id).reaction := by
  refine ⟨_, rfl, fun h => if_pos h, ?_, ?_⟩ <;> dsimp only <;> (split; · rfl) <;> split <;> rfl

/-- An interrupt is sent, or its pending bit is set (R359). -/
theorem msix_cases (s : State) (h : Fin 8) (v : BitVec 8) :
    (∃ addr data, s.msix h v = s.emit (.msix h v addr data)) ∨
    s.msix h v = s.modHost h (fun p => { p with pba := setBit p.pba v.toNat true }) := by
  simp only [State.msix]
  split
  · exact .inl ⟨_, _, rfl⟩
  · exact .inr rfl

/-- A completion joins those in flight to the port that issued the request, with the hops between its slice and that port before it; the
stack's own requests have none. -/
theorem complete_cases (s : State) (c : Completion) :
    (∃ j sub, c.req.origin = .port j sub ∧ s.complete c = s.modMport j (fun p => { p with
      inflight := p.inflight ++ [{ load := c, todo := spotPath (s.cmpSource c.req) (portSpot j) }] })) ∨
    (c.req.origin = .stack ∧ s.complete c = s) := by
  simp only [State.complete]
  split
  · exact .inl ⟨_, _, by assumption, rfl⟩
  · exact .inr ⟨by assumption, rfl⟩

/-! Register writes (R469, R470). -/

/-- A guarded write acts, is counted as denied, or changes nothing. -/
theorem guardWrite_cases (s : State) (p : Path) (m : MasterId) (off : Nat) (f : State → State) :
    (s.writeAccess p m off = .ok ∧ s.guardWrite p m off f = f s) ∨
    (s.writeAccess p m off = .denied ∧ s.guardWrite p m off f = s.deny p m true) ∨
    ((s.writeAccess p m off = .down ∨ s.writeAccess p m off = .absent) ∧ s.guardWrite p m off f = s) := by
  simp only [State.guardWrite]
  split <;> simp_all

/-- A write that is allowed acts. -/
theorem guardWrite_ok {s : State} {p : Path} {m : MasterId} {off : Nat} {f : State → State} (h : s.writeAccess p m off = .ok) :
    s.guardWrite p m off f = f s := by simp [State.guardWrite, h]

/-- A write that is denied is counted. -/
theorem guardWrite_denied {s : State} {p : Path} {m : MasterId} {off : Nat} {f : State → State} (h : s.writeAccess p m off = .denied) :
    s.guardWrite p m off f = s.deny p m true := by simp [State.guardWrite, h]

/-- A write that CC0-CC3 are allowed acts. -/
theorem guardCore_ok {s : State} {p : Path} {m : MasterId} {off : Nat} {f : State → State} (h : s.writeAccess p m off = .ok)
    (hc : isCore p m = true) : s.guardCore p m off f = f s := by simp [State.guardCore, State.guardWrite, h, hc]

/-- A write by another master is ignored. -/
theorem guardCore_other {s : State} {p : Path} {m : MasterId} {off : Nat} {f : State → State} (h : s.writeAccess p m off = .ok)
    (hc : isCore p m = false) : s.guardCore p m off f = s := by simp [State.guardCore, State.guardWrite, h, hc]

/-- A denial changes the denial registers and, on I3C, I3C_REFUSED (R470). -/
theorem deny_cases (s : State) (p : Path) (m : MasterId) (write : Bool) :
    s.deny p m write =
      { s with
        glb := { s.glb with denied := satAdd s.glb.denied 1, lastDenied := at32 31 (b2n write) ||| m.setWidth 32 },
        boot := if p = .i3c then { s.boot with i3cRefused := true } else s.boot } := by
  cases p <;> rfl

/-! Commands (R339-R345). -/

/-- What a command does: nothing where its carrier cannot take it, a refusal of the common checks, or its body and its answer. -/
theorem command_cases (s : State) (c : CmdCtx) (op : Nat) (ok : Bool) (f : CmdFn) :
    (s.begin c op = none ∧ s.command c op ok f = s) ∨
    (∃ t st, s.begin c op = some t ∧ t.packetCheck c op ok = some st ∧ s.command c op ok f = t.reply c st 0) ∨
    (∃ t, s.begin c op = some t ∧ t.packetCheck c op ok = none ∧ s.command c op ok f = (f t).1.conclude c (f t).2) := by
  simp only [State.command, State.carry]
  cases h : s.begin c op with
  | none => simp
  | some t =>
    cases h2 : t.packetCheck c op ok with
    | some st => simp [h2]
    | none => simp [h2]

/-- A command that its carrier takes and that passes the common checks. -/
theorem command_ok {s t : State} {c : CmdCtx} {op : Nat} {ok : Bool} {f : CmdFn} (h : s.begin c op = some t)
    (h2 : t.packetCheck c op ok = none) : s.command c op ok f = (f t).1.conclude c (f t).2 := by
  simp [State.command, State.carry, h, h2]

/-- A check list: the first failing check decides, else the body runs. -/
theorem checked_fail {cs : List (Bool × CmdStatus)} {f : CmdFn} {s : State} {st : CmdStatus} (h : firstFail cs = some st) :
    checked cs f s = s.refuse st := by simp [checked, h]
theorem checked_pass {cs : List (Bool × CmdStatus)} {f : CmdFn} {s : State} (h : firstFail cs = none) :
    checked cs f s = f s := by simp [checked, h]

/-- No check fails when every one passes. -/
theorem firstFail_none {cs : List (Bool × CmdStatus)} (h : ∀ x ∈ cs, x.1 = false) : firstFail cs = none := by
  induction cs with
  | nil => rfl
  | cons x xs ih =>
    obtain ⟨b, st⟩ := x
    have hb : b = false := h (b, st) (by simp)
    simp [firstFail, hb, ih (fun y hy => h y (by simp [hy]))]

end Sys2Proof.Machine
end

