-- ==== Sys2Proof/Tests/Slice0.lean ====
section
/-! SUPPORT. Small checks of the model on one step and, for each statement with hypotheses, a concrete state and operands that meet
them. -/

namespace Sys2Proof.Tests

open Sys2Proof.Machine

/-! States and operands. -/

/-- A channel in RUN, filled, with its clock aligned. -/
def chan : Channel := { ctl := { state := .run }, ecc := { initDone := true }, tsv := { clk := true, aligned := true, repaired := true } }
/-- A ready stack: every District, engine and the scrubber ON, every channel in RUN, integrity code 3. -/
def up : State :=
  { State.reset with
    strobe := 1000
    boot := { phase := .ready }
    fuse := { sensed := true }
    glb := { mapLock := true }
    dist := Vector.replicate 8 { fn := { st := .on }, gen := 1 }
    chs := Vector.replicate 64 chan
    scrub := { fn := { st := .on } }
    engs := { eng := Vector.replicate 64 { fn := { st := .on } } }
    cmd := { ringsReady := true }
    fab := { nodeId := 0x01A#12 }
    sec := { configured := true, capCode := 3 } }
/-- The identity of CC0, and a core that reaches the window. -/
def cc0 : MasterId := 0x01A50#20
def core : Sys2Proof.Path := .core 0
/-- A packet that CC0 sent, one of ring 0, and one of the direct slot. -/
def rem : CmdCtx := { src := .remote cc0 0 0 3, tag := 7, irq := false }
def ring : CmdCtx := { src := .ring 0, tag := 7, irq := true }
def slot : CmdCtx := { src := .direct (.host 0) 0x01A00#20, tag := 7, irq := false }
/-- The stack in the boot state with a load begun. -/
def booting : State := { up with boot := { phase := .boot, begun := true, loading := true, size := 1024, cxlPath := true } }
/-- The stack with a channel offline, a District off and its engines and Kerbs as they are. -/
def partOff : State := (up.modTsv 0 (fun t => { t with offline := true })).modDist 7 (fun d => { d with fn := {} })

/-- A state with the transit entry of that REMOTE_CMD. -/
def withRem (s : State) : State := s.addTransit (reqHdr mtRemoteCmd 15 3 cc0 0) (some ⟨0, 0⟩) none

/-! Packets and their carriers. -/

theorem test_taken_checks : assignedOpcodes.all (fun op => (withRem up).packetCheck rem op true == none) = true := by decide
/-- Every command runs from a REMOTE_CMD on a ready stack. -/
theorem wit_taken (op : Nat) (h : op ∈ assignedOpcodes) : Taken up rem op (withRem up) :=
  ⟨rfl, by simpa using List.all_eq_true.mp test_taken_checks op h⟩
theorem test_taken_boot : [0x0001, 0x0101, 0x0102, 0x0103].all (fun op => (withRem booting).packetCheck rem op true == none) = true := by decide
/-- The firmware commands run in the boot state. -/
theorem wit_taken_boot : Taken booting rem 0x0101 (withRem booting) ∧ Taken booting rem 0x0102 (withRem booting) ∧
    Taken booting rem 0x0103 (withRem booting) :=
  ⟨⟨rfl, by decide⟩, ⟨rfl, by decide⟩, ⟨rfl, by decide⟩⟩
/-- A core's write of each register that a command writes reaches it. -/
theorem wit_writable : ∀ off ∈ [0x100, 0x11C, 0x050850, offChs 5 0x008, offChs 5 0x434, offChs 5 0x804, offChs 5 0x838, offChs 5 0xC1C, offChs 63 0x1024,
    offChs 5 0x1404, offPort 63 0x428, offPort 0 0x728, 0x050108, 0x0504E8], Writable up core cc0 off := by
  unfold Writable; decide
/-- A host that owns ring 0 reaches its doorbell and that of a work queue. -/
theorem wit_writable_host : ∀ off ∈ [0x050108, 0x0504E8, 0x070000, 0x08FFFC], up.writeAccess (.host 0) 0x01A00#20 off = .ok := by decide

theorem wit_StepRunsTheFrontCommand : up.pending = [] := by decide
theorem wit_LegalIsKept : Legal up ∧ ∃ t, step up = .next t := ⟨by unfold Legal; decide, _, rfl⟩
theorem wit_AddressMapIsABijection : up.glb.variant = .kv9216 ∧ up.glb.mapOrder = 0 ∧ 2097151 < Variant.kv9216.pages ∧
    1048575 < Variant.kv9208.pages ∧ 7 < Variant.kv9208.layers ∧ ({ up with glb := { variant := .kv9208, mapOrder := 3 } } : State).glb.mapOrder = 3 := by decide
theorem wit_PacketsMeanTheirCommands : (packetOf (.devIdentify rem)).isSome = true ∧ (packetOf (.retrain rem 63 1)).isSome = true := by decide

/-- Ring 0 enabled with one packet waiting. -/
def ringUp : State := up.modRing 0 (fun x => { x with en := true, log2 := 4, tail := 1, owner := 0xFFF00#20, groups := 0x7FF#11 })
/-- A REMOTE_CMD for this node from node 0x000's CC0, in the receive buffer of sub-link 0.0. -/
def remMsg : Msg := { hdr := reqHdr mtRemoteCmd 15 9 0x00050#20 (0x01A <<< 40), slots := [0, 0, 0, 0] }
theorem wit_CarriersBringPackets : (ringUp.ringFree 0 = true ∧ ringUp.heldAt (ringUp.ringSlot 0) = false ∧ (ringUp.cmd.rings[(0 : Fin 32)]).head ≠ (ringUp.cmd.rings[(0 : Fin 32)]).tail) ∧
    up.ringFree 0 = false ∧ hTy remMsg.hdr = mtRemoteCmd ∧ up.cmdUp = true ∧ up.mustWait ⟨0, 0⟩ remMsg = false ∧
    ((up.freeRx ⟨0, 0⟩ remMsg).egress remMsg).2 = .here ∧ fromMaster remMsg.hdr = true ∧ remMsg.slots.length = 4 ∧
    ({ up with boot := { up.boot with phase := .warm 1 } } : State).cmdUp = false ∧ (up.egress remMsg).2 = .here := by decide

/-! Commands. -/

/-- A ready KV9216 with node ID 0x01A, and one whose first-error record and history are empty. -/
theorem wit_ReadingCommandsReplyAndChangeNothing : up.glb.variant = .kv9216 ∧ up.fwRunning = true ∧ up.sec.configured = true ∧ up.sec.capCode = 3 ∧
    up.glb.mapLock = true ∧ up.glb.mapOrder = 0 ∧ up.fab.nodeId = 0x01A#12 ∧ booting.fwRunning = false ∧ up.flt.held ≤ 31 ∧
    assignedOpcodes.contains 0x0A05 = false ∧ 3 < (4 : BitVec 8).toNat := by decide
theorem wit_unassigned : up.begin rem 0x0A05 = some (withRem up) := rfl
theorem wit_SettingCommandsAct : (120 ≤ (120 : BitVec 16).toNat ∧ (220 : BitVec 16).toNat ≤ 220 ∧ 220 < (221 : BitVec 16).toNat) ∧
    rem.src ≠ .ring 31 ∧ (∀ p m, rem.src ≠ .direct p m) ∧ (up.cmd.rings[(31 : Fin 32)]).tail = (up.cmd.rings[(31 : Fin 32)]).done ∧
    ((ringUp.cmd.rings[(0 : Fin 32)]).tail ≠ (ringUp.cmd.rings[(0 : Fin 32)]).done ∧ (ringUp.cmd.rings[(0 : Fin 32)]).failed = false) ∧
    up.mbx.lock = false ∧ entryOk 0x80000001#32 = true ∧ entryOk 0x80000052#32 = true ∧ up.sameIdentity 0x80000001#32 0x80000052#32 = false ∧
    fltClass 0x002 = 3 ∧ fltClass 0x001 = 2 ∧ fltClass 0x009 = 1 ∧ fltClass 0xFFF = 0 :=
  ⟨by decide, by decide, (by intro _ _ h; cases h), by decide⟩
/-- The direct slot takes a packet of the Device group. -/
theorem wit_slot_taken : Taken up slot 0x0005 { up with cmd := { up.cmd with go := true, done := false, issuer := 0x01A00#20 } } :=
  ⟨rfl, by decide⟩
theorem wit_FirmwareIsLoadedAndVerified : booting.boot.phase = .boot ∧ booting.boot.begun = true ∧ booting.boot.loading = true ∧
    booting.pathOpen (.host 0) = true ∧ 1000 + 24 ≤ booting.boot.size ∧ booting.dieUp = true ∧ booting.cmd.go = false ∧
    (let v : State := { booting with boot := { booting.boot with phase := .verifying } }
     v.boot.phase = .verifying ∧ v.flt.stopped = false ∧ v.verify ≠ .ok ∧ (v.cmd.waits.find? (fun w => w.kind == .verify)).isNone = true) := by decide

/-- Key slots 1 (LOADED) and 2 (EMPTY), a VALID page 600, a RETIRED page 601, a reserve page 602, and the tree not yet configured. -/
def keyed : State := { up with
  sec := { up.sec with keys := [(1, { loaded := true })], pat := [(600, 0x80000010#32), (601, 0x04000000#32)] }
  retire := { up.retire with reserve := [602], records := [5] } }
def bare : State := { up with sec := { up.sec with configured := false } }
theorem wit_KeysAndIntegrityAreConfigured : (keyed.keySlot 1).loaded = true ∧ (keyed.keySlot 2).loaded = false ∧
    keyed.lookups (fun _ e => peEnc e && peSlot e == 4095) = [] ∧ keyed.cmd.waits.any (fun w => w.setsUnder 4095) = false ∧
    (0x1000 : W64).toNat % 64 = 0 ∧ bare.sec.configured = false ∧ bare.glb.mapLock = true ∧
    (∀ n : Fin 64, bare.chs[n].tsv.offline = true ∨ bare.chs[n].ecc.initDone = true) ∧
    ({ bare with glb := {} } : State).glb.mapLock = false ∧ bare.glb.variant = .kv9216 ∧
    (Taken up rem 0x0201 (withRem up) ↔ Taken up rem 0x0201 (withRem up)) := by
  refine ⟨by decide, by decide, by decide, by decide, by decide, by decide, by decide, by decide, by decide, by decide, Iff.rfl⟩
/-- A request for page 600 that waits in channel 0, so that a policy change of the page waits too. -/
def page600 : Req := { master := 0x01A10#20, tag := 1, cls := 0, node := 0x01A, addr := 78643200, kind := .lineRead, origin := .port 8 0 }
def asked : State := { keyed with chs := vmod keyed.chs (keyed.decodeAddr 78643200).ch (fun c => { c with
  ctl := { c.ctl with rq := [{ req := page600, row := 0, entry := 0x80000010#32, since := 0 }] } }) }
theorem wit_PageSetWritesTheEntry : (keyed.specialPage 511 = true ∧ keyed.isReserve 602 = true) ∧
    (512 < keyed.glb.variant.pages ∧ keyed.treePage 600 = false ∧ keyed.isReserve 600 = false) ∧
    ((keyed.patRaw 601).getLsbD 26 = true ∧ (keyed.patRaw 600).getLsbD 26 = false) ∧
    ((0x80000020#32 : W32) &&& 0x0700000F#32 = 0 ∧ peInt 0x80000020#32 = false ∧ peEnc 0x80000020#32 = false) ∧
    keyed.changing 600 = false ∧ clears (keyed.patRaw 600) 0x80000020#32 = false ∧ clears (keyed.patRaw 700) 0x80000020#32 = true ∧
    (keyed.distOn (distOf (keyed.decodeAddr 78643200).ch) = true ∧ keyed.chs[(keyed.decodeAddr 78643200).ch].tsv.offline = false) ∧
    (partOff.distOn 7 = false ∧ partOff.chs[(0 : Fin 64)].tsv.offline = true) ∧ keyed.lookups (fun q _ => q == 600) = [] ∧
    asked.lookups (fun q _ => q == 600) = [(0x01A10#20, 1#16)] := by decide
theorem wit_PageCommandsActAndComplete : 512 ≤ 600 ∧ keyed.treePage 700 = false ∧ peValid (keyed.patRaw 700) = false ∧
    peRetired (keyed.patRaw 700) = false ∧ keyed.isReserve 700 = false ∧ keyed.retire.reserve.length < 1024 ∧ keyed.retire.records = [5] ∧
    ((0xE0000000000FFFFF#64 : W64) &&& 0x1FFFFF0000000000#64 = 0) ∧ (0x0000010000000000#64 : W64) &&& 0x1FFFFF0000000000#64 ≠ 0 ∧
    (let held := (fins 64).flatMap (fun ch => (asked.heldRequests ch).map (fun x => (x.master, x.tag))) ++ asked.tileLookups (fun _ _ => true)
     held.contains (0x01A11#20, 2#16) = false ∧ held.contains (0x01A10#20, 1#16) = true) := by decide

theorem wit_BandwidthIsAdmittedAndLimited : (∀ n : Fin 64, ((up.chs[n].adm).withSlots 15 240).sum ≤ 240) ∧
    (240 < (({ g := vput (Vector.replicate 16 0) 1 1 } : Admitted).withSlots 15 240).sum) ∧
    (kerbsOf 0x00F0#16).isNone = true ∧ (kerbsOf 0x2000#16).isSome = true ∧ (0x2000 : BitVec 16).extractLsb' 8 4 = 0 ∧
    peRetired (keyed.patRaw 601) = true ∧ peRetired (keyed.patRaw 600) = false ∧ keyed.treePage 1835008 = true := by decide
/-- A bucket below its ceiling, and one with new values. -/
theorem wit_TimeRefillsBucketsAndEndsRevolutions : (({ rate := 16, burst := 100, frac := 15 } : KClass).frac < 16 ∧
    ({ rate := 16, burst := 100, level := 5 } : KClass).level + 16 < 100) ∧ (({ next := some (1, 2) } : KClass).next = some (1, 2)) ∧
    (({ counting := true } : Rbt).counting = true) ∧ 255 < 256 ∧ (0x8F#8 : Byte).toNat ≤ 0x8F := by decide

/-- An ACTIVE queue 3 of class 2 with two of its eight descriptors consumed, a FORWARD queue 4, and a full one 5. -/
def q3 : Queue := { st := .active, engines := 1, descBase := 0x10000000, cmplBase := 0x20000000, owner := 0xFFF00#20, cls := 2, log2 := 4, tail := 4, head := 2, done := 2, doorbell := 3 }
def q4 : Queue := { q3 with forward := true, targetNode := 0x01B, targetQueue := 9, doorbell := 4, toSend := [7], sent := [8], engines := 0 }
def q5 : Queue := { q3 with tail := 18, doorbell := 5 }
def queued : State := { up with cmd := { up.cmd with queues := [(3, q3), (4, q4), (5, q5)] } }
theorem wit_WorkQueuesAreCreatedAndDestroyed : queued.wq 6 = none ∧ queued.doorbellQueue 6 = none ∧ (queued.wq 3).isSome = true ∧
    0x20000000 + 32 * 2 ^ 4 ≤ queued.userEnd ∧ q3.st ≠ .draining ∧ q3.done = q3.head ∧
    (({ queued with cmd := { queued.cmd with waits := [{ ctx := rem, kind := .destroy 3 }] } } : State).cmd.waits.find?
      (fun w => w.kind == .destroy 3)).isSome = true := by decide
theorem wit_DescriptorsAreProposedAndTaken : dbIndex 0x0000000300000005#64 = 3 ∧ isCore (.host 0) 0x01A00#20 = false ∧
    (ringUp.cmd.rings[(0 : Fin 32)]).en = true ∧ ringUp.ownerId (ringUp.cmd.rings[(0 : Fin 32)]).owner = 0x01A00#20 ∧ (16#32 - 1#32).toNat ≤ 2 ^ 4 ∧
    2 ^ 4 < (18#32 - 1#32).toNat ∧ queued.doorbellQueue 3 = some (3, q3) ∧ queued.wq 3 = some q3 ∧ queued.doorbellQueue 9 = none ∧
    queued.ownerId q3.owner = 0x01A00#20 ∧ queued.dieUp = true ∧ queued.cmd.stopped = false ∧
    (queued.engs.checking.findSome? queued.checkGo).isNone = true ∧ queued.nextQueue = some (3, q3) := by decide +kernel
/-- An OP_DISPATCH for queue 3 from its owner, come to the end of its path, and the forwarded descriptor's completion. -/
def opReq : Req := { master := 0x01A00#20, tag := 1, cls := 2, node := 0x01A, addr := 0, kind := .opDispatch 3 7, origin := .port 0 0 }
def fwdReq : Req := { master := 0x01A00#20, tag := 0, cls := 2, node := 0x01B, addr := 0, kind := .opDispatch 9 8, origin := .port 136 0 }
theorem wit_ForwardQueues : queued.wq 4 = some q4 ∧ queued.transitFull = false ∧ queued.issueBlocked queued.mports[portCore 0] fwdReq = false ∧
    queued.slotWaits 3 opReq.master = false ∧ 2 ^ q5.log2 ≤ (q5.tail - q5.head).toNat ∧
    (let s : State := { queued with reqPlane := [{ load := { req := opReq, ingress := 0 }, spot := some .plaza }] }
     (s.advance.takeReq opReq).isSome = true) ∧ queued.cmplHeld 4 = false ∧
    (let s := queued.modMport (portCore 0) (fun p => { p with delivered := [{ req := fwdReq, status := .ok }] })
     ((s.mports[portCore 0].delivered).find? (fun c => decide (c.req.kind = .opDispatch 9 8) && decide (c.req.node = 0x01B) &&
       decide (c.req.master = s.ownerId q4.owner))).isSome = true) := by decide +kernel
/-- A job of queue 3 whose only engine has ended its part. -/
def doneJob : Job := { id := 0, queue := some 3, desc := 1, set := 1, cls := 2, parts := [{ engine := 0, result0 := 0, result1 := 0, first := none, failed := false, truncated := false, stopped := false }] }
theorem wit_CompletionsAndInterruptsAreDelivered : (let s : State := { queued with engs := { queued.engs with jobs := [doneJob] } }
     s.jobOf 0 = some doneJob ∧ doneJob.ended = true ∧ s.cmplHeld 3 = false) ∧
    (let p : CxlPort := { linkUp := true, msixEn := true, pba := 1, msix := [(0, { masked := false })] }
     p.linkUp = true ∧ p.msixEn = true ∧ p.msixMask = false ∧ (smGetD p.msix 0 {}).masked = false ∧ p.pba.getLsbD 0 = true) := by decide +kernel

theorem wit_FunctionCommandsMoveTheirFunctions : (partOff.dist[(7 : Fin 8)]).fn.st = .off ∧ (partOff.dist[(0 : Fin 8)]).fn.st = .on ∧
    rateAllowed 4 5 = false ∧ rateAllowed 4 4 = true ∧ modeAllowed 56 4 = true ∧ modeAllowed 57 4 = false ∧ up.ports[(56 : Fin 64)].fn.st = .off ∧
    (up.modPort 56 (fun p => { p with fn := { st := .on }, mode := 1 })).ports[(56 : Fin 64)].mode ≠ 4 ∧ up.distOn (distOf 56) = true ∧
    partOff.distOn (distOf 63) = false ∧ (0x8000000000000000#64 : W64).getLsbD 63 = true := by decide
theorem wit_ChannelCommandsAct : up.scrub.fn.st = .on ∧ ({ up with scrub := {} } : State).scrub.fn.st = .off ∧ (7#8 : BitVec 8).getLsbD 2 = true ∧
    (partOff.chs[(0 : Fin 64)].tsv.offline = true ∧ partOff.chs[(63 : Fin 64)].tsv.offline = false ∧ partOff.distOn (distOf 63) = false) := by decide
theorem wit_FusesAreProgrammedAndLocked : up.baseDieHot = false ∧ regionOf 2047 = 7 ∧ regionOf 16 = 1 ∧ regionOf 832 ≠ 7 ∧ up.regionLocked 1 = true ∧ up.regionLocked 2 = true ∧
    (regionOf 900 = 6 ∧ regionOf 863 = 4) ∧ up.fuse.sensed = true ∧ up.fuse.parityBad.contains 16 = false := by decide +kernel

/-- The fabric master, with one other node, and a member node. -/
def master : State := { up with boot := { up.boot with straps := 0x20 }, fab := { up.fab with nodeId := 0, nodes := [{ id := 0, serial := 1, path := [], st := 0 },
  { id := 5, serial := 2, path := [4], st := 0 }] } }
theorem wit_FabricAndSegmentCommandsAct : master.fabMaster = true ∧ up.fabMaster = false ∧ master.fabBusy = false ∧ master.fab.enum = none ∧
    (({ master with fab := { master.fab with enum := some {} } } : State).fab.enum ≠ none) ∧ (master.fabNode 5).isSome = true ∧
    master.fabNode 6 = none ∧ up.fab.detaching = false ∧ (0x01A#16 : BitVec 16).setWidth 12 = up.fab.nodeId ∧ smWf up.fab.route = true ∧
    smWf up.cmd.segs = true ∧ smWf up.cmd.isets = true ∧ segEntryOk segDefault (segBase segDefault) = true ∧ up.segLookups (fun _ _ => true) = [] := by decide


/-! Engines. A job of opcode `op` over the pages 600 to 1599, and engine 24 (the channel of page 600) in it. -/

def descOf (op : Nat) : BitVec 1024 := BitVec.ofNat 1024 (op + 600 * 2 ^ 128 + 1000 * 2 ^ 160)
def job (op : Nat) : Job := { id := 0, queue := some 3, desc := descOf op, set := BitVec.twoPow 64 24, cls := 2 }
def busy (op : Nat) (r : EngRun) (io : List EngIo := []) : State := { up with engs := {
  eng := vmod up.engs.eng 24 (fun x => { x with run := some r, io := io }), jobs := [job op] } }
def waits (op : Nat) : State := { up with engs := { eng := vmod up.engs.eng 24 (fun x => { x with pending := [0] }), jobs := [job op] } }
def fresh : EngRun := { job := 0, tiles := [600, 664] }
def tile : Tile := { page := 600, entry := 0x80000010#32, tag := 5, parsed := true, values := 1, asked := [0], arrived := true }
/-- A header of two columns without nulls: VERSION 1, COLUMNS 1, VALUES 1, column 0 of type 0 in row 1. -/
def header : BitVec 512 := BitVec.ofNat 512 (1 + 1 * 2 ^ 16 + 1 * 2 ^ 32)
def answered (st : CStatus) : EngIo := { tag := 5, gaddr := 0, write := false, src := some { tile := 5, row := 0, line := none, entry := 0x80000010#32 }, got := some { status := st, lines := if st = .ok then List.replicate 16 (.ok, false) else [] } }
def full : Thm := { up.thm with level := 46 }
def setting (s : State) (page : Nat) : State := { s with cmd := { s.cmd with waits := [{ ctx := rem, kind := .policy 0 [] .ok 0 (.setPage page 0 0) }] } }
theorem wit_EnginesStartJobs :
    ((busy 1 fresh).engs.eng[(24 : Fin 64)]).run.isSome = true ∧ ((waits 1).engs.eng[(24 : Fin 64)]).run = none ∧
    ((waits 1).engs.eng[(24 : Fin 64)]).pending = [0] ∧ (waits 1).dieUp = true ∧ ((waits 1).engs.eng[(24 : Fin 64)]).fn.st = .on ∧
    ((waits 1).jobOf 0).isSome = true ∧ dOp (job 1).desc ≠ opGather ∧ dOp (job 4).desc = opGather ∧ (decodePage .kv9216 0 600).1 = 24 ∧
    dSrcPage (job 1).desc = 600 ∧ dSrcCount (job 1).desc = 1000 ∧ ((busy 3 fresh).running 24).isSome = true ∧ dOp (job 3).desc = opProbe ∧
    dKind (job 3).desc = 0 ∧ fresh.filter = none ∧ fresh.stopped = false := by decide +kernel
theorem wit_TilesAreReadAndEvaluated_open :
    ((busy 1 fresh).running 24).isSome = true ∧ (((busy 1 fresh).collect 24 (job 1)).engs.eng[(24 : Fin 64)]).run = some fresh ∧
    ((busy 1 fresh).collect 24 (job 1)).dieUp = true ∧ ((busy 1 fresh).collect 24 (job 1)).jobStop 0 = false ∧ fresh.tiles = [600, 664] ∧
    ((busy 1 fresh).collect 24 (job 1)).rateOpen 24 = true ∧ ((busy 1 fresh).collect 24 (job 1)).changing 600 = false ∧
    (setting (busy 1 fresh) 600).changing 600 = true ∧
    ({ busy 1 fresh with thm := full, engs := { (busy 1 fresh).engs with eng := vmod (busy 1 fresh).engs.eng 24 (fun x => { x with reads := List.replicate 16 1000 }) } } : State).rateOpen 24 = false ∧
    fresh.tile = none ∧ tile.arrived = true ∧ tile.fail = none ∧ bit ((busy 1 fresh).engs.eng[(24 : Fin 64)].cfg) 23 = true ∧
    (busy 1 fresh).holdRoom 24 ≠ 0 ∧ ((busy 1 fresh).engs.eng[(24 : Fin 64)]).injFormat = false := by decide
theorem wit_TilesAreReadAndEvaluated_read :
    ((busy 1 { fresh with tile := some { tile with arrived := false } }).running 24).isSome = true ∧
    ((busy 1 { fresh with tile := some tile, next := some { tile with arrived := false } }).running 24).isSome = true ∧
    ((busy 1 fresh [answered .poisoned]).feed 24 { tile with parsed := false }).2.fail.isSome = true ∧
    ((busy 1 fresh).feed 24 { tile with parsed := false }).2.fail = none ∧
    smGet? ({ tile with lines := [(0, header)] } : Tile).lines 0 = some header ∧ parseHeader (tile.row 0) (dNeed (job 1).desc) = none ∧
    dFaultEn (job 1).desc = false ∧ dStop (job 1).desc = false ∧ (answered .poisoned).got.all (fun g => g.lines.isEmpty) = true ∧
    (answered .ok).got.all (fun g => g.lines.length == 16) = true := by decide +kernel
theorem wit_TilesAreReadAndEvaluated_lanes :
    tile.values ≠ 0 ∧ ({ tile with values := 0 } : Tile).values = 0 ∧ (fresh.probe).isNone = true ∧ dForm (job 1).desc ≠ 4 ∧
    dOp (job 2).desc = opAgg ∧
    ((busy 3 { fresh with tile := some tile, probe := some { lanes := [{ index := 0, key := 1, next := 64 }] } }).bucketBack 24 5).isNone = true ∧
    ((busy 3 { fresh with tile := some tile } [{ tag := 9, gaddr := 64, write := false, lane := some (5, 0), got := some { status := .ok, data := [0] } }]).bucketBack 24 5).isSome = true ∧
    (bucketOf 0 1).2 = 0 ∧ (bucketOf 0 1).1 = [] := by decide +kernel
theorem wit_TilesAreReadAndEvaluated_gather :
    (((busy 4 { fresh with gcount := some 2 }).collect 24 (job 4)).engs.eng[(24 : Fin 64)]).run = some { fresh with gcount := some 2 } ∧
    (((busy 4 fresh).collect 24 (job 4)).engs.eng[(24 : Fin 64)]).run = some fresh ∧ fresh.gather.isNone = true ∧ fresh.gcount = none ∧
    (2 : Nat) ≤ 2 ∧ (0 : Nat) < 2 ∧ (decodePage (busy 4 fresh).glb.variant (busy 4 fresh).glb.mapOrder 601).1 ≠ 24 ∧
    (busy 4 fresh).srcWait 24 5 = false := by decide
theorem wit_CopiesAndPartsEnd_copy :
    ((busy 5 fresh).running 24).isSome = true ∧ (((busy 5 fresh).collect 24 (job 5)).engs.eng[(24 : Fin 64)]).run = some fresh ∧
    dOp (job 5).desc = opCopy ∧ fresh.copy = none ∧ ((busy 5 fresh).engs.eng[(24 : Fin 64)]).io = [] ∧ (busy 5 fresh).changing 600 = false ∧
    (busy 5 fresh).rateOpen 24 = true ∧ (busy 5 fresh).jobStop 0 = false ∧
    ((busy 5 fresh [{ tag := 9, gaddr := 0, write := true }]).engs.eng[(24 : Fin 64)].io).any (fun i => i.write && i.record.isNone) = true ∧
    ((busy 5 { fresh with copy := some { page := 600, entry := 0, tag := 5, asked := true } } [answered .ok]).srcTake 24 5).2.length = 1 ∧
    ((busy 5 { fresh with copy := some { page := 600, entry := 0, tag := 5, asked := true } } [answered .domainDown]).srcTake 24 5).2.all (fun x => x.2.lines.isEmpty) = true := by decide +kernel
theorem wit_CopiesAndPartsEnd_end :
    ({ fresh with tiles := [] } : EngRun).finished (job 1) = true ∧
    (((busy 1 { fresh with tiles := [] }).collect 24 (job 1)).engs.eng[(24 : Fin 64)]).run.isSome = true ∧
    (busy 1 { fresh with tiles := [], ending := 2 }).engQuiet 24 = true ∧
    (busy 1 fresh [{ tag := 9, gaddr := 0, write := true }]).engQuiet 24 = false ∧
    ((busy 1 { fresh with tiles := [], ending := 2 }).running 24).isSome = true := by decide +kernel

/-! Requests, Kerbs and slices. -/

/-- A read of page 600 by host port 0, its request at the Kerb of the port, and the states in which it waits. -/
def read : Req := { master := 0x01A00#20, tag := 1, cls := 2, node := 0x01A, addr := 78643200, kind := .lineRead, origin := .port 0 0 }
def issued : State := up.modMport 0 (fun p => { p with outst := [{ req := read, table := false }] })
def taken : State := (up.modMport 0 (fun p => { p with outst := [{ req := read, table := false, entered := true }] })).modKerb 0 (fun k => { k with
  cls := vmod k.cls 2 (fun x => { x with queue := [{ req := read, since := 1000, num := 0, msg := none }] }) })
def arrived (s : State) : State := { s with reqPlane := [{ load := { req := read, ingress := 0 }, spot := some (.sw 3) }] }
def back : State := up.modMport 0 (fun p => { p with outst := [{ req := read, table := false, entered := true }], inflight := [{ load := { req := read, status := .ok }, spot := none }] })
theorem wit_RequestsAreIssuedForwardedAndFenced_issue :
    read.origin = .port 0 0 ∧ up.issueBlocked up.mports[(0 : Fin 140)] read = false ∧
    (waitingBefore read (up.mports[(0 : Fin 140)]).waiting).isEmpty = true ∧ issued.issueBlocked issued.mports[(0 : Fin 140)] read = true ∧
    (firstUnentered (issued.mports[(0 : Fin 140)]).outst).isSome = true ∧ firstUnentered (taken.mports[(0 : Fin 140)]).outst = none ∧
    (¬ 64 ≤ (issued.kerbs[(0 : Fin 140)].cls[(2 : Fin 16)]).queue.length) ∧ read.cls ≠ 15 ∧ isMgmtAgent 0x01A10#20 = false := by decide
theorem wit_RequestsAreIssuedForwardedAndFenced_kerb :
    ((∀ c, up.advance.canPass 0 c = false)) ∧ taken.advance.canPass 0 2 = true ∧ taken.advance.canPass 0 15 = false ∧
    read.node = taken.fab.nodeId ∧ (taken.kerbs[(0 : Fin 140)].cls[(2 : Fin 16)]).queue ≠ [] := by decide +kernel
theorem wit_RequestsAreIssuedForwardedAndFenced_fence :
    (up.mports[(0 : Fin 140)]).covered 0x01A00 0x01A = [] ∧ (taken.mports[(0 : Fin 140)]).covered 0x01A00 0x01A ≠ [] ∧
    (up.mports[(0 : Fin 140)]).fences.all (fun f => !f.covers.isEmpty) = true ∧
    (((up.modMport 0 (fun p => { p with fences := [{ master := 1, node := 0x01A, covers := [] }] })).mports[(0 : Fin 140)]).fences.find? (fun f => f.covers.isEmpty)).isSome = true := by decide
theorem wit_RequestsAreIssuedForwardedAndFenced_return :
    (up.advance.mports[(0 : Fin 140)]).inflight = [] ∧ (back.advance.mports[(0 : Fin 140)]).inflight.length = 1 ∧
    ((back.advance.mports[(0 : Fin 140)]).inflight.all (fun x => x.todo.isEmpty)) = true ∧ isMgmtAgent cc0 = true ∧
    ((busy 1 fresh [answered .ok]).engs.eng[(24 : Fin 64)].io).any (fun x => x.tag == 5) = true := by decide +kernel
theorem wit_RequestsReachTheirSlice :
    read.kind = .lineRead ∧ up.dieUp = true ∧ (up.advance.takeReq read).isNone = true ∧ ((arrived up).advance.takeReq read).isSome = true ∧
    ((arrived up).advance.takeReq read).all (fun g => !g.inBoot && g.glb.mapLock) = true ∧ read.addr.toNat < up.glb.variant.capacity ∧
    Variant.kv9208.capacity ≤ (274877906943 : BitVec 40).toNat ∧ ((arrived partOff).advance.takeReq read).isSome = true ∧
    up.boot.phase = .ready ∧ (up.dist[distOf 24]).fn.st = .on ∧ (up.chs[(24 : Fin 64)]).tsv.offline = false ∧
    (up.chs[(24 : Fin 64)]).ctl.state = .run := by decide +kernel
theorem wit_RequestsReachTheirSlice_page :
    keyed.isWalkerScrubber 0x01A10#20 = false ∧ keyed.isLocalCore 0x01A10#20 = false ∧ inCmdArea 600 = false ∧ keyed.inTree 78643200 = false ∧
    peRetired 0x04000000#32 = true ∧ peRetired 0x80000010#32 = false ∧ peValid 0x80000010#32 = true ∧
    keyed.groupGrants 1 0x01A10#20 false = false ∧
    ({ keyed with sec := { keyed.sec with groups := [(16, 0xE000000000000000#64)] } } : State).groupGrants 1 0x01A10#20 true = true ∧
    (keyed.keySlot 2).usable = false ∧ (keyed.keySlot 1).usable = true := by decide
theorem wit_LinesAreOpenedAndStored :
    up.isWalkerScrubber 0x01A00#20 = false ∧ (up.chs[(0 : Fin 64)]).cry.injData = false ∧ linePoison poisonLine = true ∧
    linePoison 0 = false ∧ lineTagged 0 = false ∧ peInt 0x80000010#32 = false ∧ up.isSealed 0x80000010#32 78643200 = false ∧
    ((up.chs[(0 : Fin 64)]).ctl).lineWaits 0 = false ∧ ((up.chs[(0 : Fin 64)]).ctl).queued? 0 = none ∧
    ((up.chs[(0 : Fin 64)]).ctl).wq.length < 128 ∧ (up.chs[(0 : Fin 64)]).ctl.wqWait = [] := by decide +kernel
theorem wit_StoredLinesReadBack :
    up.ctrNeeded 0x80000010#32 78643200 = none ∧ (up.chs[(24 : Fin 64)]).cry.injData = false ∧ up.isWalkerScrubber 0x01A00#20 = false ∧
    DecodeOut.clean ≠ .uncorrectable := by decide

/-! Channels. Channel 0 with a command whose data strobe is the present one, and with one whose command strobe is. -/

def cross (x : SlotCmd) : State := up.modCtl 0 (fun c => { c with issued := [x] })
def goes (x : SlotCmd) : State := up.modCtl 0 (fun c => { c with chosen := [x] })
def wm : SlotCmd := { slot := 1000, cmd := .wm 7 1, lines := List.replicate 16 0 }
def ra (scrub : Bool) : SlotCmd := { slot := 1000, cmd := .ra 7 scrub }
def hold (k : RetrainKind) : State := (up.modTsv 0 (fun t => { t with hold := some { kind := k, start := 0 } })).modCtl 0 (fun c => { c with state := .hold })
def lateHold : State := { hold .full with strobe := 20000 }
def walking : State := up.modTsv 0 (fun t => { t with walk := some { layer := 0, pattern := 0, targeted := false, tlw := some 900 }, walkDue := true })
/-- A locked layer 0 in a recovery, one whose ALN has gone out, and a due full retrain. -/
def locked : State := (cross { slot := 1000, cmd := .sts 0 }).modCtl 0 (fun c => { c with layers := [(0, { lockout := true })] })
def recovering : State := up.modCtl 0 (fun c => { c with state := .hold, recovery := true, recAln := true })
def due (k : RetrainKind) : State := up.modTsv 0 (fun t => { t with retrainDue := some k })
theorem wit_SlotsAreScheduled :
    (¬ (up.strobe + 12 ≤ up.slot)) ∧ ({ up with slot := 1012 } : State).strobe + 12 ≤ ({ up with slot := 1012 } : State).slot ∧
    ((up.chs[(0 : Fin 64)]).ctl).wqHigh ≤ 128 ∧ (((up.chs[(0 : Fin 64)]).ctl).wmCand (some 0) 1000).isNone = true ∧
    ((({ (up.chs[(0 : Fin 64)]).ctl with wq := [{ key := 112, line := 1, cls := 0 }] } : Ctl)).wmCand (some 0) 1000).isSome = true ∧
    ((({ (up.chs[(0 : Fin 64)]).ctl with rq := [{ req := page600, row := 7, entry := 0, since := 0 }] } : Ctl)).raCand 0 3 1000).isSome = true ∧
    (up.activate 0 0 1000 1).isSome = true ∧ (({ up with acts := [(arbKey 0 0, [(1000, 16)])] } : State).activate 0 0 1000 1).isNone = true := by decide
theorem wit_SlotsAreScheduled_maintenance :
    (up.chs[(0 : Fin 64)]).tsv.offline = false ∧
    ((up.modCtl 0 (fun c => { c with lastRefDue := some 0 })).chs[(0 : Fin 64)]).ctl.lastRefDue = some 0 ∧ up.hotCh 0 = false ∧
    (up.chs[(0 : Fin 64)]).tsv.hold.isNone = true ∧ (up.chs[(0 : Fin 64)]).ctl.refDue = [] ∧
    (up.chs[(0 : Fin 64)]).ctl.cmdFrom + 4 ≤ up.nextMaint 0 ∧
    ((up.modCtl 0 (fun c => { c with refDue := [900] })).activateRef 0 0 1024).isSome = true ∧
    (walking.chs[(0 : Fin 64)]).tsv.nextWalk.isSome = true ∧ (up.chs[(0 : Fin 64)]).tsv.nextWalk.isNone = true ∧
    (up.chs[(0 : Fin 64)]).ctl.caCheckDue = false ∧ up.scrubReady 0 = false := by decide
theorem wit_RowsCross :
    (up.chs[(0 : Fin 64)]).ctl.chosen.all (fun x => x.slot != up.strobe + 4) = true ∧
    ((goes { slot := 1004, cmd := .wm 7 0 }).chs[(0 : Fin 64)]).ctl.dueCmd 1000 = some { slot := 1004, cmd := .wm 7 0 } ∧
    (up.chs[(0 : Fin 64)]).ctl.injUncorr = false ∧ 2 ≤ flipCount (beatFlips 3 0) ∧ (up.chs[(0 : Fin 64)]).ctl.crossing 1000 isWm = none ∧
    ((cross wm).chs[(0 : Fin 64)]).ctl.crossing 1000 isWm = some wm ∧ wm.lines.length = 16 ∧ Memory.wf (cross wm).dram = true ∧
    ((cross (ra false)).chs[(0 : Fin 64)]).ctl.crossing 1000 isReqRa = some (ra false) ∧ (¬ (1024 < (0 : BitVec 14).toNat)) ∧
    1024 < (1025 : BitVec 14).toNat ∧ (up.chs[(0 : Fin 64)]).tsv.dead = [] := by decide +kernel
theorem wit_RowPathFailuresAreHandled_dead :
    (up.chs[(0 : Fin 64)]).tsv.known { kind := .data, idx := 5 } = false ∧ (up.chs[(0 : Fin 64)]).tsv.spareFree 0 = true ∧
    (up.chs[(0 : Fin 64)]).tsv.autoSpare = true ∧
    ((up.modTsv 0 (fun t => { t with spares := [(0, { used := true })] })).chs[(0 : Fin 64)]).tsv.spareFree 0 = false ∧
    ((up.modTsv 0 (fun t => { t with erase := [(0, [1, 2, 3])] })).chs[(0 : Fin 64)]).tsv.erased 0 = [1, 2, 3] ∧
    ((up.modTsv 0 (fun t => { t with erase := [(0, [1])] })).chs[(0 : Fin 64)]).tsv.erasedCount ≠ 0 ∧ (up.heldRequests 0).isEmpty = true := by decide
theorem wit_RowPathFailuresAreHandled_sts :
    ((cross { slot := 1000, cmd := .sts 0 }).chs[(0 : Fin 64)]).ctl.crossing 1000 isSts = some { slot := 1000, cmd := .sts 0 } ∧
    ((locked.chs[(0 : Fin 64)]).ctl.layer 0).lockout = true ∧ ((up.chs[(0 : Fin 64)]).ctl.layer 0).wparity = 0 ∧
    ((up.modCtl 0 (fun c => { c with caCheckDue := true, caCheckRun := true })).chs[(0 : Fin 64)]).ctl.recovery = false ∧
    (recovering.chs[(0 : Fin 64)]).ctl.recovery = true ∧ (recovering.chs[(0 : Fin 64)]).ctl.recChecked = false ∧
    (recovering.chs[(0 : Fin 64)]).ctl.cmdFrom ≤ recovering.strobe ∧ (recovering.chs[(0 : Fin 64)]).tsv.retrainDue ≠ some .full ∧
    (recovering.chs[(0 : Fin 64)]).ctl.log = [] ∧ (recovering.chs[(0 : Fin 64)]).ctl.waiting = [] := by decide
theorem wit_RowPathFailuresAreHandled_sweep :
    (up.chs[(0 : Fin 64)]).tsv.walkEn = true ∧ (up.chs[(0 : Fin 64)]).tsv.walkRevs < (up.chs[(0 : Fin 64)]).tsv.walkInterval ∧
    ((up.modTsv 0 (fun t => { t with walkRevs := 5000000 })).chs[(0 : Fin 64)]).tsv.walkInterval ≤ 5000000 ∧ (900 : Nat) / 256 = 1000 / 256 ∧
    (1000 : Nat) % 256 < 240 ∧ 240 ≤ (1020 : Nat) % 256 ∧
    ((cross { slot := 1000, cmd := .tlr 0 }).chs[(0 : Fin 64)]).ctl.crossing 1000 isTlr = some { slot := 1000, cmd := .tlr 0 } ∧
    (walking.chs[(0 : Fin 64)]).tsv.walk.all (fun w => w.misses.isEmpty && decide (w.run < 2) && !w.targeted) = true := by decide
theorem wit_RetrainsAndInjections :
    (up.chs[(0 : Fin 64)]).tsv.autoRetrain = true ∧ driftExceeds 0 0 (up.chs[(0 : Fin 64)]).tsv.driftLimit = false ∧
    driftExceeds 0x00640064#32 0x03E80064#32 (up.chs[(0 : Fin 64)]).tsv.driftLimit = true ∧ (up.chs[(0 : Fin 64)]).tsv.lastDrift = none ∧
    1073741824 ≤ ((up.modTsv 0 (fun t => { t with sinceTrain := 1073741824 })).chs[(0 : Fin 64)]).tsv.sinceTrain ∧
    ((due .full).chs[(0 : Fin 64)]).tsv.retrainDue = some .full ∧
    ((∀ n : Fin 64, n ≠ 0 → distOf n = distOf 0 → ((due .full).chs[n]).tsv.hold = none)) ∧
    ((hold .full).chs[(0 : Fin 64)]).ctl.state = .hold ∧ (lateHold.chs[(0 : Fin 64)]).tsv.hold = some { kind := .full, start := 0 } ∧
    0 + 1024 * lateHold.glb.variant.layers ≤ lateHold.strobe ∧ (lateHold.chs[(0 : Fin 64)]).tsv.deferred = [] ∧
    (lateHold.cmd.waits.isEmpty) = true ∧ isCore core cc0 = true ∧ fieldN (9 : W32) 0 3 = 1 := by decide
theorem wit_FillAndScrub_fill :
    up.glb.mapLock = true ∧ ({ up with glb := {} } : State).glb.mapLock = false ∧ (partOff.chs[(0 : Fin 64)]).tsv.offline = true ∧
    up.distOn (distOf 0) = true ∧ (up.chs[(0 : Fin 64)]).ctl.fill = false ∧
    ((up.modCtl 0 (fun c => { c with fill := true })).chs[(0 : Fin 64)]).ctl.fill = true := by decide
theorem wit_FillAndScrub_scrub :
    ({ up with scrub := { fn := { st := .starting } } } : State).scrub.fn.st = .starting ∧
    ({ up with scrub := { fn := { st := .stopping } } } : State).scrub.fn.st = .stopping ∧ ((∀ n : Fin 64, (up.chs[n]).ecc.reads = [])) ∧
    (up.chs[(0 : Fin 64)]).ecc.dueRev ≤ up.strobe / 256 ∧ ((cross (ra true)).chs[(0 : Fin 64)]).ctl.crossing 1000 isScrubRa = some (ra true) ∧
    (((cross (ra true)).modEcc 0 (fun e => { e with reads := [{ row := 7, targeted := false }] })).chs[(0 : Fin 64)].ecc.reads.find? (fun r => r.row = 7)).isSome = true ∧
    (ra true).inj = 0 ∧
    ((up.modCtl 0 (fun c => { c with wq := [{ key := 112, line := 1, cls := 0 }] })).chs[(0 : Fin 64)]).ctl.queued? 112 ≠ none ∧
    (up.chs[(0 : Fin 64)]).ecc.fixAt ≠ 0 ∧ (up.chs[(0 : Fin 64)]).ctl.cachedGood 112 = none := by decide
theorem wit_WalkerFetchesAndWritesBack :
    up.sec.walks = [] ∧ up.sec.ahead = [] ∧ (up.highestMissing 8 1 0).isSome = true ∧ up.heldAt (up.ctrAt 1 0) = false ∧
    up.sec.dirty.length ≤ up.sec.ctrCfg.toNat ∧ ({ up with sec := { up.sec with ctrCfg := 0, dirty := [5] } } : State).sec.ctrCfg.toNat < 1 ∧
    (ctrOfAddr .kv9216 3 (1835008 * 131072)).isSome = true := by decide
theorem wit_RetirementAndMigration :
    keyed.retire.reasons = [] ∧ keyed.retire.migrating = none ∧ keyed.retire.records.length < 1024 ∧ peValid (keyed.patRaw 600) = true ∧
    peRetired (keyed.patRaw 601) = true ∧ peValid (keyed.patRaw 700) = false ∧ keyed.freeReserve = some 602 ∧ up.freeReserve = none ∧
    (keyed.engs.eng[(24 : Fin 64)]).fn.st = .on ∧ keyed.migrateJob.isNone = true ∧ keyed.lookups (fun q _ => q == 600 || q == 602) = [] ∧
    keyed.engRoom (BitVec.twoPow 64 24) = true ∧ smWf keyed.sec.pat = true ∧ (600 : Nat) ≠ 602 ∧
    ({ keyed with retire := { keyed.retire with migrating := some (600, 602, 1, false) } } : State).retire.migrating = some (600, 602, 1, false) ∧
    ({ busy 5 fresh with engs := { (busy 5 fresh).engs with jobs := [{ job 5 with queue := none, parts := [{ engine := 24, result0 := 1, result1 := 0, first := none, failed := false, truncated := false, stopped := false }] }] } } : State).migrateJob.all (fun j => j.ended) = true := by decide
theorem wit_ConservationCheckRuns :
    up.glb.cons.running = false ∧ ({ up with glb := { up.glb with cons := { running := true } } } : State).glb.cons.running = true ∧
    up.hopEmpty .plaza = true ∧ (taken.kerbs[(0 : Fin 140)].cls[(2 : Fin 16)]).queue ≠ [] ∧ (taken.mports[(0 : Fin 140)]).outst ≠ [] := by decide +kernel

/-! Links, lanes and hosts. -/

def l8 : SubLink := { port := 8, sub := 0 }
def sub : Sub := { lstate := .active, ll := .run, lanes := 0xFF#16, target := 0xFF#16, before := 0xFF#16, gens := List.replicate 8 1, sym := 16, partner := 0x01B }
/-- Port 8 ON in mode 1 with its one sub-link ACTIVE and running; the same with that sub-link in another state. -/
def linkIn (u : Sub) : State := (up.modPort 8 (fun p => { p with fn := { st := .on }, mode := 1 })).modSub l8 (fun _ => u)
def linked : State := linkIn sub
/-- A request message for the node, and the header of its completion. -/
def rdMsg (node : Nat) : Msg := { hdr := reqHdr 0x20 0 5 0x00050#20 (BitVec.ofNat 64 (node * 2 ^ 40 + 0xFF00000000)) }
/-- Host 0 with its link up, decoder 0 over the first 16 GB and segment 0 VALID on the node itself. -/
def hosted : State := { (up.modHost 0 (fun p => { p with linkUp := true, accepting := true, hdm := vput p.hdm 0 { base := 0, size := 17179869184, committed := true } })) with cmd := { up.cmd with segs := [(0, 0x80001A0000000000#64)] } }
def answeredHost : State := (hosted.modHost 0 (fun p => { p with pend := [{ tag := 3, req := 1, write := false, pool := 0, node := 0x01A, addr := 0, entry := 0 }] })).modMport 0
  (fun p => { p with delivered := [{ req := read, status := .ok }] })
theorem wit_FlitsAreReceivedAndAcknowledged :
    (up.subAt l8).ll = .down ∧ (linked.subAt l8).ll ≠ .down ∧ (linked.subAt l8).lstate = .active ∧
    ((0 : BitVec 16).extractLsb' 12 4).toNat = 0 ∧ ((0x1000 : BitVec 16).extractLsb' 12 4).toNat = 1 ∧
    ((linkIn { sub with ll := .init }).subAt l8).ll = .init := by decide

/-- A flit with any header, link word and slots, and its CRC. -/
theorem wit_FlitsAreReceivedAndAcknowledged_crc (b : BitVec 1984) :
    ∃ f : BitVec 2048, crc64 (toBytes f 248) = f.extractLsb' 1984 64 ∧ f.extractLsb' 0 1984 = b := by
  refine ⟨(crc64 (toBytes b 248) ++ b : BitVec 2048), ?_, ?_⟩
  · have h : toBytes (crc64 (toBytes b 248) ++ b : BitVec 2048) 248 = toBytes b 248 := by
      refine List.map_congr_left fun i hi => ?_
      have : i < 248 := List.mem_range.mp hi
      ext j hj
      simp only [byteOf, BitVec.getElem_extractLsb', BitVec.getLsbD_append, show 8 * i + j < 1984 by omega, if_true]
    rw [h]
    ext j hj
    simp only [BitVec.getElem_extractLsb', BitVec.getLsbD_append, show ¬ 1984 + j < 1984 by omega, if_false, Nat.add_sub_cancel_left,
      BitVec.getLsbD_eq_getElem hj]
  · ext j hj
    simp only [BitVec.getElem_extractLsb', BitVec.getLsbD_append, Nat.zero_add, if_pos hj, BitVec.getLsbD_eq_getElem hj]
theorem wit_LinksReplayAndAudit :
    subCarries (linked.subAt l8) = true ∧ (linked.subAt l8).replayBuf = [] ∧
    ((linkIn { sub with replayBuf := [{ seq := 1, slots := [] }] }).subAt l8).replayBuf ≠ [] ∧
    ((linkIn { sub with auditDue := true }).subAt l8).auditDue = true ∧ (linked.subAt l8).rsyncTx = false ∧
    ((linkIn { sub with rsyncTx := true, rdoneTx := true, rdoneRx := true }).subAt l8).rdoneRx = true ∧
    auditFails ((linked.subAt l8).vc[(0 : Fin 4)]) (advertised 0) (0, 0, advertised 0) = 0 ∧
    auditFails ((linked.subAt l8).vc[(0 : Fin 4)]) (advertised 0) (1, 0, advertised 0) ≠ 0 ∧ up.writeAccess core cc0 (offPort 8 0x428) = .ok := by decide
theorem wit_MessagesFollowTheirRoute :
    isReqTy (hTy (rdMsg 0x01A).hdr) = true ∧ linked.flt.stopped = false ∧ linked.mustWait l8 (rdMsg 0x01A) = false ∧
    (linked.egress (rdMsg 0x01A)).2 = .here ∧ (linked.egress (rdMsg 0x01B)).2 ≠ .here ∧ hHops (rdMsg 0x01A).hdr ≠ 63 ∧
    subUp (linked.subAt l8) = true ∧ subUp (up.subAt l8) = false ∧ 16384 ≤ (List.replicate 16384 rem).length ∧ (0x01B : BitVec 12) ≠ linked.fab.nodeId ∧
    (0x8000000000000000#64).getLsbD 63 = true ∧ up.fab.parent = none :=
  ⟨by decide, by decide, by decide, by decide, by decide, by decide, by decide, by decide, Nat.le_of_eq List.length_replicate.symm, by decide, by decide, by decide⟩
theorem wit_CompletionsRetraceOrLinksFail :
    isCmpTy (hTy (rdMsg 0).hdr) = false ∧ isCmpTy 0x28 = true ∧ isCmpTy 0x29 = true ∧
    ({ linked with fab := { linked.fab with transit := [{ master := 0x00050#20, tag := 5, hdr := 0, ingress := some l8, egress := none }] } } : State).transitOf 0x00050#20 5 ≠ none ∧
    (up.subAt l8).lstate ≠ .active ∧ linked.fab.mgmt = [] ∧ linked.outOfTurn l8 (rdMsg 0x01A) = false := by decide
theorem wit_ManagementMessagesAct :
    hTy (rdMsg 0x01A).hdr = 0x20 ∧ linked.dieInReset = false ∧ linked.mustWait l8 (rdMsg 0x01A) = false ∧
    (((linked.freeRx l8 (rdMsg 0x01A)).countMgt 8).egress (rdMsg 0x01A)).2 = .here ∧ fromMaster (rdMsg 0x01A).hdr = true ∧
    linked.sec.agreeReady = false ∧ up.mbxSide (up.mbx.ch[(0 : Fin 64)]) cc0 = none ∧ hSr (rdMsg 0x01A).hdr = false := by decide
theorem wit_TimeAndDetach :
    up.fab.parent = none ∧ ({ linked with fab := { linked.fab with parent := some l8 } } : State).fab.parent = some l8 ∧
    linked.fab.syncEn = true ∧ linked.fabMaster = false ∧ hTy (reqHdr 0x38 0 0 0 (0 : W64)) = 0x38 ∧
    ({ up with fab := { up.fab with detaching := true } } : State).throughEmpty = true ∧ up.boot.warmReq = none := by decide
theorem wit_LanesTrainAndRecover :
    markerOk 0 = false ∧ linked.subOfLane 8 3 = some l8 ∧ linked.deaf l8 = false ∧ scezoMode (linked.ports[(8 : Fin 64)]).mode = true ∧
    (linked.subAt l8).lanes.getLsbD 3 = true ∧ ((linkIn { sub with lstate := .quiet }).subAt l8).lstate = .quiet ∧
    ((linkIn { sub with lstate := .recovery, failed := 2 }).subAt l8).failed = 2 ∧ (linkIn { sub with lstate := .down }).mayTrain l8 = true ∧
    up.mayTrain l8 = false ∧ linked.hostOfSub l8 = none ∧ rateFor 1 5 = 5 ∧ rateFor 4 5 = 4 ∧
    (up.modPort 0 (fun p => { p with mode := 4 })).hostOfSub { port := 0, sub := 0 } = some 0 := by decide
theorem wit_PortsMarginsAndScan :
    ((up.modPort 8 (fun p => { p with fn := { st := .starting } })).ports[(8 : Fin 64)]).fn.st = .starting ∧
    (up.ports[(8 : Fin 64)]).fn.st = .off ∧ up.hostOn 9 = none ∧ linked.writeAccess core cc0 (offPort 8 0x040) = .ok ∧
    linked.writeAccess core cc0 (offPort 8 0x108) = .ok ∧ linked.laneActive 8 0 = true ∧ (0x80000000#32).getLsbD 31 = true ∧
    ({ up with boot := { up.boot with rails := 0 } } : State).sidebandUp = false ∧
    ({ up with boot := { up.boot with rails := 0x7F#7 } } : State).sidebandUp = true := by decide
theorem wit_HostRequestsAreServed :
    hosted.hostAccepts 0 = true ∧ up.hostAccepts 0 = false ∧ ((hosted.hosts[(0 : Fin 8)]).decode 64).isSome = true ∧
    ((hosted.hosts[(0 : Fin 8)]).decode 17179869184) = none ∧ hosted.bootMap = false ∧ booting.bootMap = true ∧
    ((hosted.segLookup 0 64).2).getLsbD 63 = true ∧ ((up.segLookup 0 64).2).getLsbD 63 = false ∧ (0x80001A0000000000#64).getLsbD 62 = false ∧
    (answeredHost.mports[portHost 0]).delivered ≠ [] ∧ ((answeredHost.hosts[(0 : Fin 8)]).pend.find? (fun x => x.req = 1)).isSome = true := by decide
theorem wit_HostPortsAreConfigured :
    (hosted.hosts[(0 : Fin 8)]).linkUp = true ∧ ((hosted.hosts[(0 : Fin 8)]).hdm[(1 : Fin 4)]).locked = false ∧ hosted.dieUp = true ∧
    (hosted.hosts[(0 : Fin 8)]).d3hot = false ∧ ((up.modHost 0 (fun p => { p with perst := true })).hosts[(0 : Fin 8)]).perst = true ∧
    hosted.hostLeaving 0 = false ∧ (0x4001 : BitVec 16).toNat ∉ [0x0100, 0x0101, 0x0102, 0x0103, 0x0400, 0x0401, 0x4000] := by decide

/-- Mailbox channel 0 bound to CC0 (side A) and CC1 (side B). -/
def bound : State := up.modMbx 0 (fun x => { x with bindA := 0x80001A50#32, bindB := 0x80001A51#32 })
theorem wit_MailboxesCarryWordsAndDoorbells :
    bound.reaches core 0x03000C = true ∧ bound.mbxSide (bound.mbx.ch[(0 : Fin 64)]) cc0 = some .a ∧
    bound.mbxSide (bound.mbx.ch[(0 : Fin 64)]) 0x01A51#20 = some .b ∧ bound.mbxSide (bound.mbx.ch[(0 : Fin 64)]) 0x01A52#20 = none ∧
    bound.sideDown 0x80001A51#32 = none ∧ partOff.sideDown 0x80001A07#32 = some .domainDown ∧ bound.mbx.lock = false ∧
    agentAssigned 0x50 = true ∧ isCore core cc0 = true := by decide
theorem wit_WindowAccessesAreChecked :
    up.reaches core 0x118 = true ∧ ({ up with flt := { up.flt with stopped := true } } : State).reaches core 0x118 = false ∧
    (0x101 : BitVec 24).toNat % 4 ≠ 0 ∧ up.writeAccess core cc0 0x11C = .ok ∧ up.writeAccess (.scezo 8 0) 0x00012#20 0x11C = .denied ∧
    partOff.writeAccess core cc0 (offChs 56 0x008) = .down ∧ up.readAccess core cc0 0x508010 = .ok ∧ (up.rights core cc0).write = true ∧
    (up.latchOf core).rd = none ∧ (up.latchOf core).wr = none ∧ (hosted.hosts[(0 : Fin 8)]).linkUp = true := by decide
theorem wit_ColdAndWarmResetsAreTaken :
    ({ up with boot := { up.boot with devRstHigh := true } } : State).boot.devRstHigh = true ∧
    ({ up with boot := { up.boot with devRstHigh := false } } : State).boot.devRstHigh = false ∧
    ({ up with boot := { up.boot with warmRstHigh := true } } : State).boot.warmReq = none ∧ up.boot.phase ≠ .held ∧
    ({ up with boot := { up.boot with phase := .held } } : State).boot.phase = .held ∧ up.boot.phase = .ready ∧
    ({ up with boot := { up.boot with warmReq := some 4 } } : State).boot.warmReq = some 4 ∧ up.dieInReset = false := by decide
theorem wit_WarmResetKeepsWhatR386Keeps :
    ({ up with boot := { up.boot with phase := .warm 1 } } : State).throughEmpty = true ∧
    ({ up with boot := { up.boot with phase := .warm 2 } } : State).flt.stopped = false ∧ (up.chs[(0 : Fin 64)]).parked = false ∧
    ((∀ n : Fin 64, (State.reset.chs[n]).parked = true)) ∧ ((∀ h : Fin 8, (up.hosts[h]).pend = [])) := by decide
theorem wit_StartUpReachesReady :
    ({ up with boot := { up.boot with phase := .released } } : State).boot.phase = .released ∧
    ({ up with boot := { up.boot with phase := .strapped } } : State).boot.phase = .strapped ∧
    ({ up with boot := { up.boot with phase := .sensed } } : State).boot.phase = .sensed ∧
    ({ up with boot := { up.boot with phase := .tested } } : State).boot.phase = .tested ∧
    ({ up with boot := { up.boot with phase := .starting } } : State).boot.phase = .starting ∧
    ({ up with boot := { phase := .starting } } : State).boot.fwStep = 0 ∧ up.allOn = true ∧ up.filled = true ∧ partOff.allOn = false ∧
    up.boot.fillNeeded = true ∨ up.boot.fillNeeded = false ∧ segValid (smGetD hosted.cmd.segs 0 0) = true ∧ up.scrub.fn.st = .on ∧
    up.cmd.ringsReady = true := by decide
theorem wit_DistrictsReachRest :
    ((up.modDist 0 (fun d => { d with fn := { st := .starting } })).dist[(0 : Fin 8)]).fn.st = .starting ∧ up.fwRunning = true ∧
    ((∀ n : Fin 64, distOf n = 0 → (up.chs[n]).ctl.srxFrom ≤ up.strobe)) ∧
    (up.modDist 0 (fun d => { d with fn := { st := .stopping } })).distQuiet 0 = true ∧
    (up.modDist 0 (fun d => { d with fn := { st := .stopping }, drained := true })).distEmpty 0 = true ∧ up.engIdle 0 = true ∧
    fnDue up.scrub.fn = none ∧ ((∀ k : Fin 8, fnDue (up.dist[k]).fn = none)) := by decide
theorem wit_TheBootWindowIsServed :
    booting.windowTakes (.host 0) 0x01A00#20 64 = true ∧ booting.windowTakes .i3c 0 64 = false ∧
    ({ booting with boot := { booting.boot with devRstHigh := true, rails := 0x7F#7 } } : State).i3cServes = true ∧
    ({ booting with boot := { booting.boot with rails := 0 } } : State).i3cServes = false ∧ (4194304 : Nat) ≤ (0x400000 : BitVec 32).toNat := by decide
theorem wit_FaultsAreReportedOnPinsAndRecords :
    (up.flt.src 1).capture = none ∧ ((up.forceEvent 1 cc0).flt.src 1).capture ≠ none ∧ fltClass 0x001 = 2 ∧ fltClass 0x002 = 3 ∧
    fltClass 0x009 = 1 ∧ up.flt.first = none ∧ (up.flt.src 1).broken = false ∧
    ({ up with strobe := 5000, flt := { up.flt with faultLow := true } } : State).flt.faultSince + 10000 ≤ ({ up with strobe := 5000 } : State).now ∧
    up.writeAccess core cc0 0x020004 = .ok ∧ up.writeAccess (.scezo 8 0) 0x00012#20 0x020004 = .denied ∧ up.fuse.sensed = true ∧
    (16 : Nat) ∉ up.fuse.parityBad ∧ up.dieInReset = false := by decide
theorem wit_HeatStopsAndGoverns :
    up.dieUp = true ∧ (up.chs[(0 : Fin 64)]).tsv.offline = false ∧ (up.chs[(0 : Fin 64)]).ctl.state ≠ .off ∧ sensorExists .kv9216 0 = true ∧
    up.boot.tripHold = false ∧
    ((∀ i : Fin 162, sensorExists .kv9208 i.val = true → ((Vector.replicate 162 ({ valid := true, temp := 320 } : Sensor))[i]).temp ≤ 1520)) ∧
    up.thm.scale = false ∧ up.thm.throttle = false ∧ 10 * up.thm.effCap < (0xFFFF : BitVec 16).toNat ∧
    ((∀ d : Fin 33, (up.thm.dies[d]).a103 = false)) := by decide +kernel
theorem wit_LanesCarryScrambledStripes :
    laneCount (linked.subAt l8).lanes = 8 ∧ (linked.subAt l8).gens.length = 8 ∧ 0 < (linked.subAt l8).sym ∧
    (linked.subAt l8).sym + 256 / 8 ≤ 16384 := by decide

/-! Ill-formed commands are refused by their checks, and the same commands well formed are not. -/

theorem test_wf_fuse_attempts : wellFormed (.fuseProgramWord rem 16 1 (List.replicate 10 (0, 0))) = false ∧
    wellFormed (.fuseProgramWord rem 16 1 (List.replicate 9 (0, 0))) = true ∧
    wellFormed (.fuseLockRegion rem 1 [] (List.replicate 10 (0, 0))) = false ∧ wellFormed (.fuseLockRegion rem 1 [] []) = true := by decide
theorem test_wf_request_alignment : wellFormed (.lineRead { read with addr := 78643201 }) = false ∧ wellFormed (.lineRead read) = true ∧
    wellFormed (.masterRequestIssue { read with addr := 1 }) = false ∧ wellFormed (.kerbEntry 0 { read with addr := 1 }) = false ∧
    wellFormed (.rowRead { read with kind := .rowRead false, addr := 64 }) = false ∧ wellFormed (.rowRead { read with kind := .rowRead false }) = true ∧
    wellFormed (.rowWrite { read with kind := .rowWrite [0] 0 }) = false ∧
    wellFormed (.rowWrite { read with kind := .rowWrite (List.replicate 16 0) 0 }) = true := by decide
theorem test_wf_request_kind : wellFormed (.lineWrite read) = false ∧ wellFormed (.lineRead { read with kind := .lineWrite 0 false }) = false ∧
    wellFormed (.partialWrite read) = false ∧ wellFormed (.rowRead read) = false ∧ wellFormed (.rowWrite read) = false ∧
    wellFormed (.opDispatch read) = false := by decide
theorem test_wf_message : wellFormed (.mgmtRd l8 { rdMsg 0x01A with slots := [0] }) = false ∧ wellFormed (.mgmtWr l8 (rdMsg 0x01A)) = false ∧
    wellFormed (.mgmtRd l8 (rdMsg 0x01A)) = true ∧ wellFormed (.audit l8 (rdMsg 0x01A)) = false ∧ wellFormed (.remoteCmd l8 remMsg) = true := by decide
theorem test_wf_connections : wellFormed (.walkStep 0 [{ kind := .data, idx := 10240 }] 0) = false ∧
    wellFormed (.walkStep 0 [{ kind := .data, idx := 10239 }] 0) = true ∧
    wellFormed (.retrainHoldEnd 0 false [{ kind := .ca, idx := 40 }] { ref := 1, stress := 1 }) = false ∧
    wellFormed (.retrainHoldEnd 0 false [{ kind := .ca, idx := 39, layer := 16 }] { ref := 1, stress := 1 }) = false := by decide
theorem test_wf_page : wellFormed (.pageMigrate 2097152) = false ∧ wellFormed (.pageMigrate 2097151) = true := by decide
theorem test_wf_fuse_words : wellFormed (.fuseSensing [{ word := 2048, low := 0, high := 0 }]) = false ∧
    wellFormed (.shadowParityCheck [2048]) = false ∧ wellFormed (.shadowParityCheck [2047]) = true := by decide
theorem test_wf_window_writes : wellFormed (.winWrite 0 [] 1000000) = false ∧ wellFormed (.winWrite 0 (List.replicate 257 0) 1000000) = false ∧
    wellFormed (.winWrite 0 (List.replicate 256 0) 1000000) = true ∧ wellFormed (.bootWindowWrite .i3c 0 0 []) = false := by decide +kernel

/-! One step. -/

/-- R384, R407: DEV_RST_N falling holds the stack, with CAUSE 1. -/
theorem test_dev_rst : (match exec .devRstAssert { up with boot := { up.boot with devRstHigh := true } } with
    | .next t => decide (t.boot.phase = .held) && t.boot.cause == 1 && t.sec.pat.isEmpty | _ => false) = true := by decide
/-- R460: a cap outside 120-220 W is refused and changes nothing; one inside answers the previous cap. -/
theorem test_power_cap : (match exec (.powerCapSet rem 119) up, exec (.powerCapSet rem 120) up with
    | .next t, .next u => t.thm.cap == 220 && u.thm.cap == 120 | _, _ => false) = true := by decide
/-- R504: the slew step of MGMT_SDA follows MGMT_SCL at the STOP: 12.5 MHz is above 8 MHz, 400 kHz at most 1 MHz. -/
theorem test_slew : slewStep 80000 = 3 ∧ slewStep 2500000 = 0 ∧ slewStep 1000000 = 0 ∧ slewStep 999999 = 1 := by decide
/-- R56: PARITY_INJECT arms in one step, and only in the channel named. -/
theorem test_parity_inject : (match exec (.tsvParityInject core cc0 0) up with
    | .next t => (t.chs[(0 : Fin 64)]).tsv.injParity && !(t.chs[(1 : Fin 64)]).tsv.injParity | _ => false) = true := by decide
/-- R57: a hold that has run for less than its length does not end. -/
theorem test_hold_length : (match exec (.retrainHoldEnd 0 false [] { ref := 0, stress := 0 }) { hold .full with strobe := 16383 } with
    | .next t => (t.chs[(0 : Fin 64)]).tsv.hold.isSome | _ => false) = true := by decide +kernel
/-- R258: scrambling twice from the seed of lane 0 gives the symbol back. -/
theorem test_scramble_twice : ∀ x ∈ [0x00#8, 0xA5#8, 0xFF#8], (scramble 0x2AAAAAAA#31 (scramble 0x2AAAAAAA#31 x).2).2 = x := by decide +kernel

end Sys2Proof.Tests
end

section
/-! PROOFS. The management window (19_register_map): what a read and a write of a register do (R464-R475), the latches of
each path, and the accesses of the commands. -/

namespace Sys2Proof.Machine

variable {s : State} {p : Path} {m : MasterId} {off : Nat}

/-! What a write and a read do, by the outcome of the access (R469-R473). -/

theorem writeReg_unreached (v : W32) (hr : s.reaches p off = false) : s.writeReg p m off v = (s, .ok) := by
  simp [State.writeReg, hr]

theorem readReg_unreached (hr : s.reaches p off = false) : s.readReg p m off = (s, 0, .ok) := by
  simp [State.readReg, hr]

section Reached

variable (hoff : off < 0x1000000) (hr : s.reaches p off = true)
include hoff hr

theorem writeReg_misaligned (v : W32) (ha : off % 4 ≠ 0) : s.writeReg p m off v = (s.deny p m true, .notPermitted) := by
  simp [State.writeReg, hr, ha, Nat.not_le.mpr hoff]

theorem readReg_misaligned (ha : off % 4 ≠ 0) : s.readReg p m off = (s.deny p m false, 0, .notPermitted) := by
  simp [State.readReg, hr, ha, Nat.not_le.mpr hoff]

/-- A misaligned write is denied whatever the rights, so a denial needs no alignment. -/
theorem writeReg_denied (v : W32) (hd : s.writeAccess p m off = .denied) :
    s.writeReg p m off v = (s.deny p m true, .notPermitted) := by
  simp [State.writeReg, hr, hd, Nat.not_le.mpr hoff]

/-- A misaligned read is denied whatever the rights, so a denial needs no alignment. -/
theorem readReg_denied (hd : s.readAccess p m off = .denied) :
    s.readReg p m off = (s.deny p m false, 0, .notPermitted) := by
  simp [State.readReg, hr, hd, Nat.not_le.mpr hoff]

/-- A read that is denied or misaligned answers 0. -/
theorem readReg_refused (h : off % 4 ≠ 0 ∨ s.readAccess p m off = .denied) :
    s.readReg p m off = (s.deny p m false, 0, .notPermitted) := by
  obtain ha | hd := h
  · exact readReg_misaligned hoff hr ha
  · exact readReg_denied hoff hr hd

theorem writeReg_down (v : W32) (ha : off % 4 = 0) (hd : s.writeAccess p m off = .down) :
    s.writeReg p m off v = (s, .domainDown) := by
  simp [State.writeReg, hr, ha, hd, Nat.not_le.mpr hoff]

theorem writeReg_ok (v : W32) (ha : off % 4 = 0) (hd : s.writeAccess p m off = .ok) :
    s.writeReg p m off v = s.writeOpen p m off v := by
  simp [State.writeReg, hr, ha, hd, Nat.not_le.mpr hoff]

theorem readReg_ok (ha : off % 4 = 0) (hd : s.readAccess p m off = .ok) : s.readReg p m off = s.readOpen p m off := by
  simp [State.readReg, hr, ha, hd, Nat.not_le.mpr hoff]

end Reached

/-- A read that the rights allow, of a register outside the Districts' domains. -/
theorem readAccess_ok (hr : s.reaches p off = true) (ha : allowRead (s.rights p m) (regClass off) = true)
    (hb : s.blockOff off = false) : s.readAccess p m off = .ok := by
  simp [State.readAccess, hr, ha, hb]

/-- What a denial counts and records (R470). -/
theorem deny_records (s : State) (p : Path) (m : MasterId) (w : Bool) :
    (s.deny p m w).glb.denied = satAdd s.glb.denied 1 ∧
    (s.deny p m w).glb.lastDenied = ((if w then 0x80000000#32 else 0) ||| m.setWidth 32) ∧
    (s.deny p m w).boot.i3cRefused = (s.boot.i3cRefused || decide (p = .i3c)) ∧ (s.deny p m w).chs = s.chs ∧
    (s.deny p m w).dram = s.dram := by
  have hw : at32 31 (b2n w) = if w then 0x80000000#32 else 0 := by cases w <;> rfl
  rw [deny_cases]
  refine ⟨rfl, by rw [← hw], ?_, rfl, rfl⟩
  by_cases hp : p = .i3c <;> simp [hp]

/-! The commands that access one register. -/

theorem exec_registerWrite (s : State) (p : Path) (m : MasterId) (o : BitVec 24) (v : W32) :
    exec (.registerWrite p m o v) s = .next (s.writeReg p m o.toNat v).1 := rfl

/-- REGISTER_WRITE by the outcome of its access. -/
theorem exec_registerWrite_cases (s : State) (p : Path) (m : MasterId) (o : BitVec 24) (v : W32) (hr : s.reaches p o.toNat = true) :
    (o.toNat % 4 ≠ 0 ∨ s.writeAccess p m o.toNat = .denied → exec (.registerWrite p m o v) s = .next (s.deny p m true)) ∧
    (o.toNat % 4 = 0 → s.writeAccess p m o.toNat = .down → exec (.registerWrite p m o v) s = .next s) ∧
    (o.toNat % 4 = 0 → s.writeAccess p m o.toNat = .ok →
      exec (.registerWrite p m o v) s = .next (s.writeOpen p m o.toNat v).1) := by
  have hoff : o.toNat < 0x1000000 := o.isLt
  simp only [exec_registerWrite]
  refine ⟨?_, fun ha hd => by rw [writeReg_down hoff hr v ha hd], fun ha hd => by rw [writeReg_ok hoff hr v ha hd]⟩
  rintro (ha | hd)
  · rw [writeReg_misaligned hoff hr v ha]
  · rw [writeReg_denied hoff hr v hd]

/-- CLEARING_READ and LO_READ_LATCH read the register and answer the word. -/
theorem exec_registerRead {s u : State} {p : Path} {m : MasterId} {o : BitVec 24} {w : W32} {st : CStatus}
    (h : s.readReg p m o.toNat = (u, w, st)) :
    exec (.clearingRead p m o) s = .next (u.emit (.readData p w)) ∧
      exec (.loReadLatch p m o) s = .next (u.emit (.readData p w)) := by
  simp [exec, execClearingRead, execLoReadLatch, h]

/-! BAR2_ACCESS (R315, R474). -/

/-- The hops of an access over a host port: a read comes back. -/
def bar2Hops (h : Fin 8) (write : Bool) : List Spot := if write then [.sw h, .plaza] else [.sw h, .plaza, .plaza, .sw h]

/-- A width other than 32 and 64 bits, or a 64-bit access that is not aligned (R474): denied once (log entry 71). -/
def bar2Bad (off n : Nat) : Prop := (n ≠ 4 ∧ n ≠ 8) ∨ (n = 8 ∧ off % 8 ≠ 0)

/-- The port's window answers: DIE is up, the link is up, and the port is not in D3hot (log entry 70). -/
def State.bar2Serves (s : State) (h : Fin 8) : Bool := s.dieUp && (s.hosts[h]).linkUp && !(s.hosts[h]).d3hot

theorem bar2Serves_iff {h : Fin 8} :
    s.bar2Serves h = true ↔ s.dieUp = true ∧ (s.hosts[h]).linkUp = true ∧ (s.hosts[h]).d3hot = false := by
  simp [State.bar2Serves, and_assoc]

theorem bar2Serves_eq_false_iff {h : Fin 8} :
    s.bar2Serves h = false ↔ s.dieUp = false ∨ (s.hosts[h]).linkUp = false ∨ (s.hosts[h]).d3hot = true := by
  simp only [State.bar2Serves, Bool.and_eq_false_iff, Bool.not_eq_false', or_assoc]

theorem exec_bar2Access_closed {h : Fin 8} (w : Bool) (o : BitVec 24) (v : W64) (n : Nat) (hs : s.bar2Serves h = false) :
    exec (.bar2Access h w o v n) s = .next s := by
  unfold State.bar2Serves at hs
  simp only [exec, execBar2Access, hs, Bool.not_false, if_true]

section Bar2

variable {u : State} {h : Fin 8} {o : BitVec 24} (v : W64) (hs : s.bar2Serves h = true)
include hs

theorem exec_bar2Access_bad {w : Bool} {n : Nat} (hu : u = s.countFwd (bar2Hops h w)) (hb : bar2Bad o.toNat n) :
    exec (.bar2Access h w o v n) s = .next (if w then u.deny (.host h) (u.self h.val) w
      else (u.deny (.host h) (u.self h.val) w).emit (.cfgCpl h 0)) := by
  have hb' : ((n == 8 && decide (o.toNat % 8 ≠ 0)) || (decide (n ≠ 4) && decide (n ≠ 8))) = true := by
    simpa [bar2Bad, or_comm] using hb
  unfold State.bar2Serves at hs
  subst hu
  simp only [exec, execBar2Access, hs, hb', Bool.not_true, Bool.false_eq_true, if_false, if_true, bar2Hops]

theorem exec_bar2Access_write32 (hu : u = s.countFwd (bar2Hops h true)) :
    exec (.bar2Access h true o v 4) s = .next (u.writeReg (.host h) (u.self h.val) o.toNat (v.setWidth 32)).1 := by
  simp [-Fin.getElem_fin, exec, execBar2Access, bar2Serves_iff.mp hs, hu, bar2Hops]

theorem exec_bar2Access_write64 (hu : u = s.countFwd (bar2Hops h true)) (ha : o.toNat % 8 = 0) :
    exec (.bar2Access h true o v 8) s = .next
      (((u.writeReg (.host h) (u.self h.val) o.toNat (v.setWidth 32)).1).writeReg (.host h) (u.self h.val) (o.toNat + 4)
        (v.extractLsb' 32 32)).1 := by
  simp [-Fin.getElem_fin, exec, execBar2Access, bar2Serves_iff.mp hs, hu, bar2Hops, ha]

theorem exec_bar2Access_read32 (hu : u = s.countFwd (bar2Hops h false)) {x : State} {r : W32} {st : CStatus}
    (hx : u.readReg (.host h) (u.self h.val) o.toNat = (x, r, st)) :
    exec (.bar2Access h false o v 4) s = .next (x.emit (.cfgCpl h (r.setWidth 64))) := by
  subst hu
  simp only [bar2Hops, Bool.false_eq_true, if_false] at hx
  simp [-Fin.getElem_fin, exec, execBar2Access, bar2Serves_iff.mp hs, hx]

theorem exec_bar2Access_read64 (hu : u = s.countFwd (bar2Hops h false)) (ha : o.toNat % 8 = 0)
    {x y : State} {r q : W32} {st st' : CStatus} (hx : u.readReg (.host h) (u.self h.val) o.toNat = (x, r, st))
    (hy : x.readReg (.host h) (u.self h.val) (o.toNat + 4) = (y, q, st')) :
    exec (.bar2Access h false o v 8) s = .next (y.emit (.cfgCpl h (q ++ r))) := by
  subst hu
  simp only [bar2Hops, Bool.false_eq_true, if_false] at hx hy
  simp [-Fin.getElem_fin, exec, execBar2Access, bar2Serves_iff.mp hs, ha, hx, hy]

end Bar2

/-! Latches of a path (R475). -/

@[simp] theorem setLatch_glb (s : State) (p : Path) (f : PathLatch → PathLatch) : (s.setLatch p f).glb = s.glb := rfl

@[simp] theorem latchOf_setLatch_self (s : State) (p : Path) (f : PathLatch → PathLatch) :
    (s.setLatch p f).latchOf p = f (s.latchOf p) := by
  simp [State.setLatch, State.latchOf]

theorem latchOf_setLatch_of_ne (s : State) {p q : Path} (f : PathLatch → PathLatch) (h : q ≠ p) :
    (s.setLatch p f).latchOf q = s.latchOf q := by
  have hq : ∀ x : Path × PathLatch, decide ((x.1 != p) = true ∧ (x.1 == q) = true) = (x.1 == q) := by
    intro x
    by_cases hx : x.1 = q <;> simp [hx, h]
  simp only [State.setLatch, State.latchOf]
  rw [List.find?_cons_of_neg (by simpa using Ne.symm h), List.find?_filter]
  simp only [hq]

/-- A register that is neither the LO half of a 64-bit register nor part of a fault record latches nothing. -/
theorem takeLatch_plain (hl : isLo off = false) (hf : s.recordHere off = none) : s.takeLatch p off = s := by
  simp [State.takeLatch, hl, hf]

theorem takeLatch_lo (hl : isLo off = true) :
    s.takeLatch p off = s.setLatch p (fun l => { l with rd := some (off, s.regValue (off + 4)) }) := by
  simp [State.takeLatch, hl]

/-- A register that is neither a HI half nor part of a fault record reads its current value. -/
theorem latchedValue_plain (hl : isLo (off - 4) = false) (hf : s.recordHere off = none) :
    s.latchedValue p off = s.regValue off := by
  simp [State.latchedValue, hl, hf]

theorem latchedValue_hi_latched {hi : W32} (hl : isLo off = true) (hf : s.recordHere (off + 4) = none)
    (h : (s.latchOf p).rd = some (off, hi)) : s.latchedValue p (off + 4) = hi := by
  simp [State.latchedValue, hl, hf, h]

theorem latchedValue_hi_unlatched (hl : isLo off = true) (hf : s.recordHere (off + 4) = none)
    (h : ∀ hi, (s.latchOf p).rd ≠ some (off, hi)) : s.latchedValue p (off + 4) = s.regValue (off + 4) := by
  cases hrd : (s.latchOf p).rd with
  | none => simp [State.latchedValue, hl, hf, hrd]
  | some x =>
    have hx : x.1 ≠ off := fun e => h x.2 (by rw [hrd, ← e])
    simp [State.latchedValue, hl, hf, hrd, hx]

/-- A read outside the mailboxes answers the latched or current value, and clears where the master has WRITE (R471). -/
theorem readOpen_of_not_mbx (h : ∀ o, familyOf off ≠ (.mbx, o)) :
    s.readOpen p m off = (if (s.rights p m).write || (s.rights p m).core then (s.takeLatch p off).regClear off
      else s.takeLatch p off, s.latchedValue p off, .ok) := by
  unfold State.readOpen
  split
  · exact absurd ‹_› (h _)
  · rfl

/-! GLB.SYNTH_CMP, a counter that a read clears (R6, R471). -/

theorem familyOf_synthCmp : familyOf 0x118 = (.glb, 0x118) := rfl

theorem readOpen_synthCmp (s : State) (p : Path) (m : MasterId) :
    s.readOpen p m 0x118 = (if (s.rights p m).write || (s.rights p m).core then
      { s with glb := { s.glb with synthCmp := 0 } } else s, s.glb.synthCmp, .ok) := by
  have hf : s.recordHere 0x118 = none := rfl
  have hv : s.regValue 0x118 = s.glb.synthCmp := rfl
  have hc : s.regClear 0x118 = { s with glb := { s.glb with synthCmp := 0 } } := rfl
  rw [readOpen_of_not_mbx (by simp [familyOf_synthCmp]), takeLatch_plain (by decide) hf, latchedValue_plain (by decide) hf, hv, hc]

theorem readReg_synthCmp (hr : s.reaches p 0x118 = true) (ha : allowRead (s.rights p m) .other = true) :
    s.readReg p m 0x118 = s.readOpen p m 0x118 :=
  readReg_ok (by decide) hr (by decide) (readAccess_ok hr ha rfl)

/-! FAB.TIME, a 64-bit register whose LO half latches HI (R475). -/

theorem familyOf_time : familyOf 0x508010 = (.fab, 0x8010) := rfl

theorem regValue_time_hi (s : State) : s.regValue 0x508014 = s.fab.time.extractLsb' 32 32 := rfl

theorem readOpen_time (s : State) (p : Path) (m : MasterId) :
    s.readOpen p m 0x508010 = (s.setLatch p (fun l => { l with rd := some (0x508010, s.fab.time.extractLsb' 32 32) }),
      s.fab.time.setWidth 32, .ok) := by
  have hf : s.recordHere 0x508010 = none := rfl
  have hv : s.regValue 0x508010 = s.fab.time.setWidth 32 := rfl
  have hc : ∀ t : State, t.regClear 0x508010 = t := fun _ => rfl
  rw [readOpen_of_not_mbx (by simp [familyOf_time]), takeLatch_lo (by decide), latchedValue_plain (by decide) hf, hv, hc, ite_self,
    regValue_time_hi]

/-! GLB.MGMT_GRANT, written by halves (R468, R475). -/

/-- A write of LO waits in the path's latch. -/
theorem grantWrite_lo (v : W32) (h : off % 8 = 0) : s.grantWrite p off v = s.setLatch p (fun l => { l with wr := some (off, v) }) := by
  simp [State.grantWrite, h]

theorem grantWrite_hi_unlatched (v : W32) (h : off % 8 = 4) (hw : (s.latchOf p).wr = none) : s.grantWrite p off v = s := by
  simp [State.grantWrite, h, hw]

/-- A write of HI after LO writes both halves. -/
theorem grantWrite_hi_after_lo (s : State) (p : Path) (lo hi : W32) (h : off % 8 = 0) :
    ((s.grantWrite p off lo).grantWrite p (off + 4) hi).glb.grants =
      s.glb.grants.setIfInBounds ((off - 0x40) / 8) ((hi ++ lo) &&& 0xE00000FFFFFFFFFF#64) := by
  have h4 : (off + 4) % 8 ≠ 0 := by omega
  rw [grantWrite_lo lo h]
  simp [State.grantWrite, h4]

/-! The obligation, part by part. -/

theorem windowAccesses_checked : Part.WindowAccessesAreChecked := by
  refine ⟨exec_registerWrite_cases, fun s p m o v hr => ?_, fun s p m o hr => ?_, deny_records, fun s h w n o v =>
    ⟨fun hc => exec_bar2Access_closed w o v n (bar2Serves_eq_false_iff.mpr hc), fun hd hl hz u hu => ?_⟩⟩
  · refine ⟨by rw [exec_registerWrite, writeReg_unreached v hr], ?_⟩
    exact exec_registerRead (readReg_unreached hr)
  · have hoff : o.toNat < 0x1000000 := o.isLt
    refine ⟨fun h => exec_registerRead (readReg_refused hoff hr h), fun ha hd u w st h => ?_⟩
    exact exec_registerRead (by rw [readReg_ok hoff hr ha hd, h])
  · have hs := bar2Serves_iff.mpr ⟨hd, hl, hz⟩
    refine ⟨?_, ?_, ?_, ?_, ?_, ?_⟩
    · rintro hb rfl
      exact exec_bar2Access_bad v hs hu hb
    · rintro hb rfl
      exact exec_bar2Access_bad v hs hu hb
    · rintro rfl rfl
      exact exec_bar2Access_write32 v hs hu
    · rintro rfl rfl x r st hx
      exact exec_bar2Access_read32 v hs hu hx
    · rintro rfl ha rfl
      exact exec_bar2Access_write64 v hs hu ha
    · rintro rfl ha rfl x y r q st st' hx hy
      exact exec_bar2Access_read64 v hs hu ha hx hy

theorem reads_clear_and_latch : Part.ReadsClearAndLatch := by
  refine ⟨fun s p m hr => ⟨fun hw => ?_, fun hrd hw hc => ?_⟩, fun s p m hr ha => ?_, fun s p hi h => ?_, fun s p h => ?_,
    fun s u p i lo hi hu => ?_⟩
  · refine ⟨{ s with glb := { s.glb with synthCmp := 0 } }, (exec_registerRead (st := .ok) ?_).1, rfl, rfl, rfl⟩
    simpa [readOpen_synthCmp, hw] using readReg_synthCmp hr (m := m) (by simp [allowRead, hw])
  · refine (exec_registerRead (st := .ok) ?_).1
    simpa [readOpen_synthCmp, hw, hc] using readReg_synthCmp hr (m := m) (by simp [allowRead, hrd])
  · refine ⟨_, (exec_registerRead ((readReg_ok (by decide) hr (by decide) ha).trans (readOpen_time s p m))).2, rfl, by simp, ?_⟩
    exact fun q hq => latchOf_setLatch_of_ne s _ hq
  · exact latchedValue_hi_latched (off := 0x508010) (by decide) rfl h
  · exact latchedValue_hi_unlatched (off := 0x508010) (by decide) rfl h
  · have h8 : (0x40 + 8 * i.val) % 8 = 0 := by omega
    subst hu
    refine ⟨by rw [grantWrite_lo lo h8, setLatch_glb], ?_, grantWrite_hi_unlatched hi (by omega)⟩
    rw [show 0x44 + 8 * i.val = 0x40 + 8 * i.val + 4 by omega, grantWrite_hi_after_lo s p lo hi h8]
    ext j hj
    simp [Vector.getElem_set, Vector.getElem_setIfInBounds]

/-- Settles O51: a window access acts by the outcome of its access check, and the RC counter and the LO half by the rules of
their registers. -/
theorem windowAccessesAreChecked : Obligations.WindowAccessesAreChecked :=
  ⟨windowAccesses_checked, reads_clear_and_latch⟩

end Sys2Proof.Machine
end

section
/-! PROOFS. A command that its carrier takes, from its body to its answer (R339-R344). -/

namespace Sys2Proof.Machine

variable {s t u : State} {c : CmdCtx} {op : Nat} {f : CmdFn} {st : CmdStatus} {r : W64} {k : WaitKind}

/-- A body that ends with a status replies with it. -/
theorem Taken.replies (h : Taken s c op t) (hf : f t = (u, .done st r)) :
    (.next (s.command c op true f) : Res) = .next (u.reply c st r) := by
  rw [command_ok h.1 h.2, hf]
  rfl

/-- A body that waits replies later. -/
theorem Taken.defers (h : Taken s c op t) (hf : f t = (u, .wait k)) :
    (.next (s.command c op true f) : Res) =
      .next { u with cmd := { u.cmd with waits := u.cmd.waits ++ [{ ctx := c, kind := k }] } } := by
  rw [command_ok h.1 h.2, hf]
  rfl

/-- A body whose checks refuse leaves the state and replies with 0. -/
theorem Taken.refuses {cs : List (Bool × CmdStatus)} {g : CmdFn} (h : Taken s c op t) (hf : f t = checked cs g t)
    (hc : firstFail cs = some st) : (.next (s.command c op true f) : Res) = .next (t.reply c st 0) :=
  h.replies (hf.trans (checked_fail hc))

/-- A body whose checks pass replies with what it ends with. -/
theorem Taken.acts {cs : List (Bool × CmdStatus)} {g : CmdFn} (h : Taken s c op t) (hf : f t = checked cs g t)
    (hc : firstFail cs = none) (hg : g t = (u, .done st r)) :
    (.next (s.command c op true f) : Res) = .next (u.reply c st r) :=
  h.replies ((hf.trans (checked_pass hc)).trans hg)

/-- A body that changes what it must change later waits for the requests that hold the old values (R25). -/
theorem Taken.actsLater {olds : List (MasterId × BitVec 16)} {act : PolicyAct} (h : Taken s c op t)
    (hf : f t = u.actLater olds act) :
    (.next (s.command c op true f) : Res) = .next { u with cmd := { u.cmd with
      nextPolicy := u.cmd.nextPolicy + 1,
      waits := u.cmd.waits ++ [{ ctx := c, kind := .policy u.cmd.nextPolicy olds .ok 0 act }] } } :=
  h.defers hf

/-- A body that has changed policy replies now, or once no request holds the old values (R25). -/
theorem Taken.answers25 {olds : List (MasterId × BitVec 16)} (h : Taken s c op t) (hf : f t = u.afterLookups olds st r) :
    (.next (s.command c op true f) : Res) = .next (u.answer25 c olds st r) := by
  by_cases ho : olds = []
  · subst ho
    exact h.replies hf
  · rw [State.answer25, if_neg ho]
    exact h.defers (hf.trans (if_neg (by simpa using ho)))

/-! Updates of units of a vector. -/

theorem vmod_congr {α : Type} {n : Nat} {v : Vector α n} {i : Fin n} {f g : α → α} (h : f v[i] = g v[i]) :
    vmod v i f = vmod v i g := by
  rw [vmod, vmod, h]

theorem vmod_id {α : Type} {n : Nat} {v : Vector α n} {i : Fin n} {f : α → α} (h : f v[i] = v[i]) : vmod v i f = v := by
  rw [vmod, h]
  exact Vector.set_getElem_self ..

/-- Two updates of one unit are one. -/
theorem vmod_vmod {α : Type} {n : Nat} (v : Vector α n) (i : Fin n) (f g : α → α) :
    vmod (vmod v i f) i g = vmod v i (fun x => g (f x)) := by
  simp [vmod, vput]

/-- Units updated one after the other, each once. -/
theorem foldl_vmod {α : Type} {n : Nat} (f : α → α) {l : List (Fin n)} (hl : l.Nodup) (v : Vector α n) (i : Fin n) :
    (l.foldl (fun v j => vmod v j f) v)[i] = if i ∈ l then f v[i] else v[i] := by
  induction l generalizing v with
  | nil => simp
  | cons j l ih =>
    obtain ⟨hj, hl⟩ := List.nodup_cons.mp hl
    rw [List.foldl_cons, ih hl]
    by_cases hij : i = j
    · subst hij
      simp only [hj, if_false, List.mem_cons_self, if_true]
      exact vmod_self ..
    · simp only [List.mem_cons, hij, false_or, vmod_of_ne _ _ _ _ hij]

/-! Numbers of units in 8-bit operands. -/

theorem toNat_ofNat8 {n : Nat} (i : Fin n) (hn : n ≤ 256) : (BitVec.ofNat 8 i.val).toNat = i.val := by
  rw [BitVec.toNat_ofNat]
  omega

@[simp] theorem fin_mk_mod {n : Nat} (i : Fin n) (h : i.val % n < n) : (⟨i.val % n, h⟩ : Fin n) = i :=
  Fin.ext (Nat.mod_eq_of_lt i.isLt)

end Sys2Proof.Machine
end

section
/-! PROOFS. POWER_CAP_SET, RING_SET, the mailbox table commands and the Faults commands (R337, R366, R446, R460). -/

namespace Sys2Proof.Machine

variable {s t : State} {c : CmdCtx}

theorem maxCap_eq {v : Variant} {top : Nat} (h : v = .kv9216 ∧ top = 220 ∨ v = .kv9208 ∧ top = 170) : v.maxCap = top := by
  obtain ⟨rfl, rfl⟩ | ⟨rfl, rfl⟩ := h <;> rfl

theorem powerCapSet_keepsTheRange : Part.PowerCapSetKeepsTheRange := by
  intro s t c cap top h hv
  have hmax := maxCap_eq hv
  refine ⟨fun hlo hhi => h.acts (f := cmdPowerCapSet cap) rfl ?_ rfl, fun hbad => h.refuses (f := cmdPowerCapSet cap) rfl ?_⟩
  · simp [firstFail, hmax, hlo, hhi]
  · have hout : 120 ≤ cap.toNat → top < cap.toNat := by omega
    simpa [firstFail, hmax] using hout

/-! RING_SET. -/

/-- Two updates of one ring are one. -/
theorem modRing_modRing (s : State) (r : Fin 32) (f g : Ring → Ring) :
    (s.modRing r f).modRing r g = s.modRing r (fun x => g (f x)) := by
  simp only [State.modRing, vmod_vmod]

/-- An operand of RING_SET is out of its range (R337). -/
def ringSetBad (r : Nat) (log2 hostPort vector : BitVec 8) (owner : BitVec 32) (groups : BitVec 16) : Bool :=
  decide (32 ≤ r) || !(log2 = 0 || (4 ≤ log2.toNat && log2.toNat ≤ 12)) || decide (8 ≤ hostPort.toNat) ||
    (1 ≤ vector.toNat && vector.toNat ≤ 7) || decide (1048576 ≤ owner.toNat) || decide (2048 ≤ groups.toNat)

theorem ringSetBad_eq_false {log2 hostPort vector : BitVec 8} {owner : BitVec 32} {groups : BitVec 16} (r : Fin 32)
    (hlog : log2 = 0 ∨ 4 ≤ log2.toNat ∧ log2.toNat ≤ 12) (hhost : hostPort.toNat < 8) (hvec : vector = 0 ∨ 8 ≤ vector.toNat)
    (howner : owner.toNat < 1048576) (hgroups : groups.toNat < 2048) : ringSetBad r.val log2 hostPort vector owner groups = false := by
  have hv : 1 ≤ vector.toNat → 7 < vector.toNat := by
    obtain rfl | hv := hvec
    · simp
    · omega
  have hl : log2 ≠ 0 → 4 ≤ log2.toNat ∧ log2.toNat ≤ 12 := Or.resolve_left hlog
  simpa [ringSetBad, hhost, howner, hgroups] using ⟨hl, hv⟩

/-- RING_SET from ring 0 or a REMOTE_CMD, with operands in their ranges, on another ring: done where no packet of the ring is
unanswered. -/
theorem cmdRingSet_eq {log2 hostPort vector : BitVec 8} {owner : BitVec 32} {groups : BitVec 16} {r : Fin 32}
    (hsrc : c.src = .ring 0 ∨ ∃ m p u tag, c.src = .remote m p u tag) (hne : c.src ≠ .ring r)
    (hop : ringSetBad r.val log2 hostPort vector owner groups = false) :
    cmdRingSet c (BitVec.ofNat 8 r.val) log2 hostPort vector owner groups t =
      if (t.cmd.rings[r]).tail = (t.cmd.rings[r]).done ∨ (t.cmd.rings[r]).failed = true then
        (t.modRing r (fun x => { x with
          en := decide (log2 ≠ 0), log2 := log2.toNat, hostPort := Fin.ofNat 8 hostPort.toNat, vector := vector,
          owner := owner.setWidth 20, groups := groups.setWidth 11, tail := 0, head := 0, done := 0, failed := false,
          stale := t.cmd.waits.any (fun w => w.ctx.src == .ring r) }), .done .ok 0)
      else t.refuse .busy := by
  have hr := toNat_ofNat8 r (by decide)
  unfold ringSetBad at hop
  simp only [cmdRingSet, checked, hr, fin_mk_mod, hop, State.ringRestart, modRing_modRing]
  have hidle : ((t.cmd.rings[r]).tail = (t.cmd.rings[r]).done ∨ (t.cmd.rings[r]).failed = true) ↔
      (decide ((t.cmd.rings[r]).tail ≠ (t.cmd.rings[r]).done) && !(t.cmd.rings[r]).failed) = false := by
    simp [-Fin.getElem_fin, Decidable.or_iff_not_imp_left]
  simp only [hidle]
  generalize (decide ((t.cmd.rings[r]).tail ≠ (t.cmd.rings[r]).done) && !(t.cmd.rings[r]).failed) = busy
  obtain h0 | ⟨m, p, u, tag, h0⟩ := hsrc
  · have h0r : ((0 : Fin 32) == r) = false := by
      rw [h0] at hne
      simpa using hne
    simp only [h0, h0r, firstFail]
    cases busy <;> rfl
  · simp only [h0, firstFail]
    cases busy <;> rfl

theorem ringSet_restartsTheRing : Part.RingSetRestartsTheRing := by
  intro s t c r log2 hostPort vector owner groups h hsrc hne hlog hhost hvec howner hgroups
  have heq := cmdRingSet_eq (t := t) hsrc hne (ringSetBad_eq_false r hlog hhost hvec howner hgroups)
  refine ⟨fun hidle => h.replies (heq.trans (if_pos hidle)), fun hbusy hf => h.replies (heq.trans (if_neg ?_))⟩
  simp [-Fin.getElem_fin, hbusy, hf]

/-! The mailbox table. -/

/-- MBX_LOCK from a carrier other than the direct slot. -/
theorem cmdMbxLock_eq (hsrc : ∀ p m, c.src ≠ .direct p m) :
    cmdMbxLock c t = (({ t with mbx := { t.mbx with lock := true } } : State).okay (res64 t.mbx.boundCount)) := by
  cases h0 : c.src with
  | direct p m => exact absurd h0 (hsrc p m)
  | ring i => simp only [cmdMbxLock, h0, checked, firstFail]; rfl
  | remote m p u tag => simp only [cmdMbxLock, h0, checked, firstFail]; rfl

/-- MBX_BIND from a carrier other than the direct slot, of a table that is not locked, with entries that pass their checks. -/
theorem cmdMbxBind_eq {ch : Fin 64} {a b : W32} (hsrc : ∀ p m, c.src ≠ .direct p m) :
    cmdMbxBind c (BitVec.ofNat 8 ch.val) a b t = checked [
      (t.mbx.lock, .locked),
      (beValid a != beValid b || !entryOk a || !entryOk b || t.sameIdentity a b, .badParam),
      (decide (ch.val = 63), .notPermitted)] (fun s => (s.modMbx ch (fun _ => Mbx.rebind a b)).okay) t := by
  have hch := toNat_ofNat8 ch (by decide)
  have hlt : decide (64 ≤ ch.val) = false := by simp
  have h63 : (BitVec.ofNat 8 ch.val = 63) ↔ ch.val = 63 := by
    rw [← BitVec.toNat_inj, hch]
    rfl
  cases h0 : c.src with
  | direct p m => exact absurd h0 (hsrc p m)
  | ring i =>
    simp only [cmdMbxBind, h0, hch, hlt, h63, Bool.false_or, fin_mk_mod]
    rfl
  | remote m p u tag =>
    simp only [cmdMbxBind, h0, hch, hlt, h63, Bool.false_or, fin_mk_mod]
    rfl

theorem mailboxTableCommands : Part.MailboxTableCommands := by
  refine fun s t c => ⟨fun h hsrc => ?_, fun h p m hsrc => ?_, fun h hsrc ch a b => ⟨fun hl => ?_,
    fun hl ha hb hv hi => ⟨fun h63 => ?_, fun h63 => ?_⟩⟩⟩
  · exact h.replies (cmdMbxLock_eq hsrc)
  · exact h.replies (by simp [cmdMbxLock, hsrc, checked, firstFail, State.refuse])
  · exact h.refuses (cmdMbxBind_eq hsrc) (by simp [firstFail, hl])
  · exact h.refuses (cmdMbxBind_eq hsrc) (by simp [firstFail, hl, ha, hb, hv, hi, h63])
  · exact h.acts (cmdMbxBind_eq hsrc) (by simp [firstFail, hl, ha, hb, hv, hi, h63]) rfl

/-! The Faults commands. -/

/-- What FAULT_CLEAR leaves of the collector (R446). -/
def Flt.cleared (f : Flt) (what : BitVec 8) : Flt :=
  let f := if bit what 0 then { f with first := none, firstMultiple := false, fatalLater := false } else f
  let f := if bit what 1 then { f with hist := [], newest := 0, held := 0, histLost := 0 } else f
  let f := if bit what 2 then
      { f with countCorr := 0, countCont := 0, countFatal := 0, srcs := f.srcs.map (fun kv => (kv.1, { kv.2 with count := 0 })) }
    else f
  let f := if bit what 3 then { f with faultHold := false } else f
  let f := if bit what 4 then { f with alertPend := 0 } else f
  if bit what 5 then { f with irqPend := 0 } else f

theorem cmdFaultClear_eq (what : BitVec 8) : cmdFaultClear what t =
    checked [(what = 0 || decide (64 ≤ what.toNat), .badParam)] (fun s =>
      ({ s with flt := s.flt.cleared what }, .done .ok (if bit what 1 then BitVec.ofNat 64 s.flt.held else 0))) t := by
  unfold cmdFaultClear Flt.cleared
  cases bit what 1 <;> rfl

theorem faultClear_checks {w : BitVec 8} (h0 : w ≠ 0) (hw : w.toNat < 64) :
    firstFail [(w = 0 || decide (64 ≤ w.toNat), CmdStatus.badParam)] = none :=
  firstFail_none (by simpa using ⟨h0, hw⟩)

section Cleared
variable (f : Flt) (w : BitVec 8)

theorem cleared_first : (f.cleared w).first = if bit w 0 then none else f.first := by
  simp only [Flt.cleared, apply_ite Flt.first, ite_self]
theorem cleared_held : (f.cleared w).held = if bit w 1 then 0 else f.held := by
  simp only [Flt.cleared, apply_ite Flt.held, ite_self]
theorem cleared_countFatal : (f.cleared w).countFatal = if bit w 2 then 0 else f.countFatal := by
  simp only [Flt.cleared, apply_ite Flt.countFatal, ite_self]
theorem cleared_faultHold : (f.cleared w).faultHold = (!bit w 3 && f.faultHold) := by
  simp only [Flt.cleared, apply_ite Flt.faultHold, ite_self]
  cases bit w 3 <;> rfl
theorem cleared_alertPend : (f.cleared w).alertPend = if bit w 4 then 0 else f.alertPend := by
  simp only [Flt.cleared, apply_ite Flt.alertPend, ite_self]
theorem cleared_irqPend : (f.cleared w).irqPend = if bit w 5 then 0 else f.irqPend := by
  simp only [Flt.cleared, apply_ite Flt.irqPend, ite_self]

end Cleared

/-- REACTION_SET of one source that exists. -/
theorem cmdReactionSet_one {id : BitVec 16} {v restore : BitVec 8} (hid : id.toNat < 4096) (hr : restore.toNat ≤ 1)
    (hc : fltClass id.toNat ≠ 0) : cmdReactionSet id 1 v restore t =
      ({ t with flt := t.flt.modSrc id.toNat (fun x =>
        { x with reaction := if bit restore 0 then fltDefault (fltClass id.toNat) else reactionFloor id.toNat v }) }, .done .ok 1) := by
  rw [cmdReactionSet, checked_pass]
  · simp [hc, List.range_succ]
    rfl
  · simp [firstFail]
    omega

theorem fltClass_lt (id : Nat) : fltClass id < 4 := by
  have hite : ∀ {p : Prop} [Decidable p] {a b : Nat}, a < 4 → b < 4 → (if p then a else b) < 4 := by
    intro p _ a b ha hb
    split <;> assumption
  unfold fltClass
  repeat' apply hite
  all_goals decide

theorem fltDefault_eq {k : Nat} (h0 : k ≠ 0) (h : k < 4) :
    fltDefault k = if k = 1 then 0x08#8 else if k = 2 then 0x39#8 else 0x7A#8 := by
  unfold fltDefault
  split <;> simp_all
  omega

theorem faultCommandsAct : Part.FaultCommandsAct := by
  refine fun s t c => ⟨fun h => ⟨?_, ?_, fun w hw => ?_, fun w h0 hw => ?_⟩, fun h id hid => ⟨fun hc => ?_, fun hc => ?_⟩,
    fun h id v hid hc => ⟨?_, ?_⟩⟩
  · exact h.acts (f := cmdFaultClear 2) rfl rfl rfl
  · exact h.acts (f := cmdFaultClear 8) rfl rfl rfl
  · refine h.refuses (cmdFaultClear_eq w) ?_
    obtain rfl | hw := hw
    · rfl
    · simp [firstFail, hw]
  · exact ⟨_, h.acts (cmdFaultClear_eq w) (faultClear_checks h0 hw) rfl, cleared_first .., cleared_held .., cleared_countFatal ..,
      cleared_faultHold .., cleared_alertPend .., cleared_irqPend ..⟩
  · exact h.acts (f := cmdFaultForce c id) rfl (by simp [firstFail, hid, hc]) rfl
  · exact h.refuses (f := cmdFaultForce c id) rfl (by simp [firstFail, hc])
  · exact h.replies (cmdReactionSet_one hid (by decide) hc)
  · refine (h.replies (cmdReactionSet_one hid (by decide) hc)).trans ?_
    rw [← fltDefault_eq hc (fltClass_lt _)]
    rfl

/-- Settles O9, part by part: each command is its checks and its body. -/
theorem settingCommandsAct : Obligations.SettingCommandsAct :=
  ⟨powerCapSet_keepsTheRange, ringSet_restartsTheRing, mailboxTableCommands, faultCommandsAct⟩

end Sys2Proof.Machine
end

section
/-! PROOFS. The key commands and INTEGRITY_CONFIG (R25, R135, R136, R151, R152, R348). -/

namespace Sys2Proof.Machine

variable {s t : State} {c : CmdCtx} {slot : BitVec 16}

/-! KEY_ERASE and KEY_QUERY. -/

theorem slot_bad (h : 4095 < slot.toNat) : firstFail [(decide (4095 < slot.toNat), CmdStatus.badParam)] = some .badParam := by
  simp [firstFail, h]

theorem slot_ok (h : slot.toNat ≤ 4095) : firstFail [(decide (4095 < slot.toNat), CmdStatus.badParam)] = none := by
  simpa [firstFail] using h

/-- No request holds the slot and no change of a page waits for it: it is erased at once. -/
theorem exec_keyErase_now (h : Taken s c 0x0202 t) (hs : slot.toNat ≤ 4095)
    (ho : t.lookups (fun _ e => peEnc e && peSlot e == slot.toNat) = [])
    (hw : t.cmd.waits.any (fun w => w.setsUnder slot.toNat) = false) :
    exec (.keyErase c slot) s = .next ((t.zeroise slot.toNat).reply c .ok 0) :=
  h.acts (f := cmdKeyErase slot) rfl (slot_ok hs) (by simp [ho, hw, State.okay])

/-- Otherwise the slot is EMPTY for every later lookup, and its erasure waits (R25). -/
theorem exec_keyErase_later (h : Taken s c 0x0202 t) (hs : slot.toNat ≤ 4095)
    {olds : List (MasterId × BitVec 16)} (ho : t.lookups (fun _ e => peEnc e && peSlot e == slot.toNat) = olds)
    (hw : olds ≠ [] ∨ t.cmd.waits.any (fun w => w.setsUnder slot.toNat) = true) :
    exec (.keyErase c slot) s = .next { t with
      sec := { t.sec with keys := smPut t.sec.keys slot.toNat { t.keySlot slot.toNat with erasing := true } },
      cmd := { t.cmd with
        nextPolicy := t.cmd.nextPolicy + 1,
        waits := t.cmd.waits ++ [{ ctx := c, kind := .policy t.cmd.nextPolicy olds .ok 0 (.eraseKey slot.toNat) }] } } := by
  have hc : (olds.isEmpty && !t.cmd.waits.any (fun w => w.setsUnder slot.toNat)) = false := by
    obtain hw | hw := hw
    · simp [hw]
    · simp only [hw, Bool.not_true, Bool.and_false]
  refine h.actsLater (f := cmdKeyErase slot)
    (u := { t with sec := { t.sec with keys := smPut t.sec.keys slot.toNat { t.keySlot slot.toNat with erasing := true } } }) ?_
  rw [cmdKeyErase, checked_pass (slot_ok hs)]
  simp only [ho, hc]
  rfl

/-! KEY_LOAD_WRAPPED. -/

theorem cmdKeyLoadWrapped_bad {addr : W64} (hbad : 4095 < slot.toNat ∨ addr.toNat % 64 ≠ 0) :
    cmdKeyLoadWrapped c slot addr t = t.refuse .badParam := by
  rw [cmdKeyLoadWrapped, checked_fail]
  have hb : slot.toNat ≤ 4095 → addr.toNat % 64 ≠ 0 := fun hs => hbad.resolve_left (by omega)
  simpa [firstFail] using hb

theorem cmdKeyLoadWrapped_locked {addr : W64} (hs : slot.toNat ≤ 4095) (ha : addr.toNat % 64 = 0)
    (hl : (t.keySlot slot.toNat).loaded = true) : cmdKeyLoadWrapped c slot addr t = t.refuse .locked := by
  rw [cmdKeyLoadWrapped, checked_fail]
  simp [firstFail, hs, ha, hl]

section Blob

variable {addr : W64} {u : State} {st : CStatus} {ls : List (BitVec 512)} (hs : slot.toNat ≤ 4095)
  (ha : addr.toNat % 64 = 0) (hl : (t.keySlot slot.toNat).loaded = false)
include hs ha hl

theorem keyLoadWrapped_checks :
    firstFail [(decide (4095 < slot.toNat) || addr.toNat % 64 != 0, CmdStatus.badParam),
      ((t.keySlot slot.toNat).loaded, .locked)] = none := by
  simp [firstFail, hs, ha, hl]

/-- The blob cannot be read. -/
theorem cmdKeyLoadWrapped_unread (hr : t.readBlob c addr.toNat = (u, st, ls)) (hst : st ≠ .ok) :
    cmdKeyLoadWrapped c slot addr t = u.refuse (CmdStatus.ofCompletion st) := by
  rw [cmdKeyLoadWrapped, checked_pass (keyLoadWrapped_checks hs ha hl), hr]
  exact if_pos hst

variable (hr : t.readBlob c addr.toNat = (u, .ok, ls))
include hr

/-- The blob does not unwrap. -/
theorem cmdKeyLoadWrapped_spoilt {e : CmdStatus} (hu : u.unwrapBlob (lineBytes ls) = .error e) :
    cmdKeyLoadWrapped c slot addr t = u.refuse e := by
  rw [cmdKeyLoadWrapped, checked_pass (keyLoadWrapped_checks hs ha hl), hr]
  simp only [hu]
  rfl

/-- The keys that the blob unwraps to fill the slot. -/
theorem cmdKeyLoadWrapped_fills {dk tk : BitVec 256} (hu : u.unwrapBlob (lineBytes ls) = .ok (dk, tk)) :
    cmdKeyLoadWrapped c slot addr t =
      ({ u with sec := { u.sec with keys := smPut u.sec.keys slot.toNat {
          loaded := true, dataKey := dk, tagKey := tk, hashKey := hashKeyOf tk, gen := (t.keySlot slot.toNat).gen + 1,
          loadId := ofBytes 32 (((lineBytes ls).drop 4).take 4), kekSel := nth (lineBytes ls) 2 0 == 1 } } } : State).okay := by
  rw [cmdKeyLoadWrapped, checked_pass (keyLoadWrapped_checks hs ha hl), hr]
  simp only [hu]
  rfl

end Blob

theorem keyCommandsAct : Part.KeyCommandsAct := by
  refine fun s t c slot => ⟨fun h hs => ⟨exec_keyErase_now h hs, exec_keyErase_later h hs rfl⟩, fun h hs => ?_, fun h hs => ?_,
    fun h addr => ⟨fun hbad => ?_, fun hs ha => ⟨fun hl => ?_, fun hl u st ls hr => ⟨fun hst => ?_, fun hst => ?_⟩⟩⟩⟩
  · exact h.refuses (f := cmdKeyErase slot) rfl (slot_bad hs)
  · exact h.acts (f := cmdKeyQuery slot) rfl (slot_ok hs) rfl
  · exact h.replies (cmdKeyLoadWrapped_bad hbad)
  · exact h.replies (cmdKeyLoadWrapped_locked hs ha hl)
  · exact h.replies (cmdKeyLoadWrapped_unread hs ha hl hr hst)
  · subst hst
    cases hu : u.unwrapBlob (lineBytes ls) with
    | error e => exact h.replies (cmdKeyLoadWrapped_spoilt hs ha hl hr hu)
    | ok k => exact h.replies (cmdKeyLoadWrapped_fills hs ha hl hr hu)

/-! INTEGRITY_CONFIG. -/

/-- Whether the layers are filled: no channel is left that is neither offline nor filled (R136). -/
theorem unfilled_eq_false (t : State) : (fins 64).any (fun n => !t.chs[n].tsv.offline && !t.chs[n].ecc.initDone) = false ↔
    ∀ n : Fin 64, t.chs[n].tsv.offline = true ∨ t.chs[n].ecc.initDone = true := by
  simp [-Fin.getElem_fin, fins, Decidable.or_iff_not_imp_left]

theorem unfilled_eq_true (t : State) : (fins 64).any (fun n => !t.chs[n].tsv.offline && !t.chs[n].ecc.initDone) = true ↔
    ∃ n : Fin 64, t.chs[n].tsv.offline = false ∧ t.chs[n].ecc.initDone = false := by
  simp [-Fin.getElem_fin, fins]

theorem buildTree_variant (t : State) (code : Nat) : (t.buildTree code).glb.variant = t.glb.variant := by
  unfold State.buildTree
  split <;> rfl

theorem integrityConfigRunsOnce : Part.IntegrityConfigRunsOnce := by
  refine fun s t c code h => ⟨fun hc => ?_, fun hc => ⟨fun hnp => ?_, fun hm hfill => ?_⟩⟩
  · exact h.refuses (f := cmdIntegrityConfig code) rfl (by simp [firstFail, hc])
  · refine h.refuses (f := cmdIntegrityConfig code) rfl (st := .notPermitted) ?_
    rw [← unfilled_eq_true] at hnp
    obtain hm | hf := hnp
    · simp [firstFail, hc, hm]
    · simp only [firstFail, hc, hf, Bool.or_true]
      rfl
  · rw [← unfilled_eq_false] at hfill
    have hchecks : ∀ b, firstFail [(t.sec.configured, CmdStatus.locked),
        (!t.glb.mapLock || (fins 64).any (fun n => !t.chs[n].tsv.offline && !t.chs[n].ecc.initDone), .notPermitted),
        (b, .badParam)] = if b then some .badParam else none := by
      intro b
      simp only [firstFail, hc, hm, hfill]
      rfl
    refine ⟨fun h3 => ?_, fun h0 => ?_, fun base hb => ?_⟩
    · exact h.refuses (f := cmdIntegrityConfig code) rfl ((hchecks _).trans (if_pos (by simpa using h3)))
    · subst h0
      exact h.acts (f := cmdIntegrityConfig 0) rfl (hchecks _) rfl
    · have hcode : code = 1 ∨ code = 2 ∨ code = 3 := by tauto
      refine h.acts (f := cmdIntegrityConfig code) rfl ((hchecks _).trans (if_neg ?_)) ?_
      · obtain rfl | rfl | rfl := hcode <;> decide
      · have hbase : (if code = 0 then 0 else treeBasePage t.glb.variant code.toNat) = base := by
          obtain ⟨hv, hb⟩ | ⟨hv, hb⟩ := hb <;> obtain ⟨rfl, rfl⟩ | ⟨rfl, rfl⟩ | ⟨rfl, rfl⟩ := hb <;> rw [hv] <;> rfl
        rw [← hbase, ← buildTree_variant t code.toNat]
        rfl

/-- Settles O11, by the outcome of each command's checks. -/
theorem keysAndIntegrityAreConfigured : Obligations.KeysAndIntegrityAreConfigured :=
  ⟨keyCommandsAct, integrityConfigRunsOnce⟩

end Sys2Proof.Machine
end

section
/-! PROOFS. PAGE_SET (R121, R128, R129). -/

namespace Sys2Proof.Machine

variable {s t u : State} {c : CmdCtx} {page entry : W32}

/-! Fields and masks. -/

theorem fieldN_eq_zero {w : Nat} {a : BitVec w} {lo len : Nat} (h : ∀ i, i < len → a.getLsbD (lo + i) = false) :
    fieldN a lo len = 0 := by
  have hx : a.extractLsb' lo len = 0 := by
    ext i hi
    simpa using h i hi
  have := congrArg BitVec.toNat hx
  simpa [fieldN] using this

/-- A bit of a mask that a word does not meet is clear in the word. -/
theorem getLsbD_of_and_eq_zero {w : Nat} {a m : BitVec w} (h : a &&& m = 0) {i : Nat} (hm : m.getLsbD i = true) :
    a.getLsbD i = false := by
  have := congrArg (fun x => BitVec.getLsbD x i) h
  simpa [hm] using this

/-- The bits of an entry that R121 reserves, and RETIRED, are clear. -/
theorem reserved_clear (h : entry &&& 0x0700000F#32 = 0) :
    (peRetired entry || fieldN entry 24 2 != 0 || fieldN entry 0 4 != 0) = false := by
  have hbit : ∀ i, (0x0700000F#32).getLsbD i = true → entry.getLsbD i = false := fun i => getLsbD_of_and_eq_zero h
  have h26 : peRetired entry = false := hbit 26 rfl
  have h24 : fieldN entry 24 2 = 0 := fieldN_eq_zero fun i hi => hbit _ (by interval_cases i <;> rfl)
  have h0 : fieldN entry 0 4 = 0 := fieldN_eq_zero fun i hi => hbit _ (by interval_cases i <;> rfl)
  simp [h26, h24, h0]

/-! The checks of R129, in the order of log entry 91. -/

/-- The checks of PAGE_SET (`cmdPageSet_refuses`). -/
def State.pageSetChecks (s : State) (page entry : W32) : List (Bool × CmdStatus) := [
  (!s.sec.configured, .notPermitted),
  (!s.pageOk page || s.specialPage page.toNat || s.isReserve page.toNat, .badParam),
  (peRetired (s.patRaw page.toNat), .notPermitted),
  (peRetired entry || fieldN entry 24 2 != 0 || fieldN entry 0 4 != 0, .badParam),
  (peInt entry && !(peEnc entry && s.inProtected (page.toNat * 131072)), .badParam),
  (peEnc entry && !(s.keySlot (peSlot entry)).usable, .badParam)]

/-- The checks that speak of the configuration, the page and its old entry pass. -/
structure State.PageSettable (s : State) (page : W32) : Prop where
  configured : s.sec.configured = true
  inPart : page.toNat < s.glb.variant.pages
  notCommand : 512 ≤ page.toNat
  notTree : s.treePage page.toNat = false
  notReserve : s.isReserve page.toNat = false

theorem State.PageSettable.checks (h : t.PageSettable page) : firstFail (t.pageSetChecks page entry) =
    firstFail ((t.pageSetChecks page entry).drop 2) := by
  have hs : t.specialPage page.toNat = false := by
    simp [State.specialPage, inCmdArea, h.notTree, h.notCommand]
  simp only [State.pageSetChecks, State.pageOk, h.configured, h.inPart, hs, h.notReserve, firstFail]
  rfl

section Refusals

variable (h : t.PageSettable page)
include h

theorem State.PageSettable.retired (hold : peRetired (t.patRaw page.toNat) = true) :
    firstFail (t.pageSetChecks page entry) = some .notPermitted := by
  rw [h.checks]
  simp only [State.pageSetChecks, List.drop, hold, firstFail]
  rfl

variable (hold : peRetired (t.patRaw page.toNat) = false)
include hold

theorem State.PageSettable.asksRetired (hnew : peRetired entry = true) :
    firstFail (t.pageSetChecks page entry) = some .badParam := by
  rw [h.checks]
  simp only [State.pageSetChecks, List.drop, hold, hnew, firstFail]
  rfl

variable (hres : entry &&& 0x0700000F#32 = 0)
include hres

/-- INT without ENC, or outside the protected region. -/
theorem State.PageSettable.unprotected (hint : peInt entry = true)
    (hbad : peEnc entry = false ∨ t.inProtected (page.toNat * 131072) = false) :
    firstFail (t.pageSetChecks page entry) = some .badParam := by
  have hb : (peEnc entry && t.inProtected (page.toNat * 131072)) = false := by simpa [← Bool.and_eq_false_iff] using hbad
  rw [h.checks]
  simp only [State.pageSetChecks, List.drop, hold, reserved_clear hres, hint, hb, firstFail]
  rfl

variable (hint : peInt entry = true → peEnc entry = true ∧ t.inProtected (page.toNat * 131072) = true)
include hint

/-- ENC under a slot that is not LOADED. -/
theorem State.PageSettable.keyless (henc : peEnc entry = true) (hk : (t.keySlot (peSlot entry)).usable = false) :
    firstFail (t.pageSetChecks page entry) = some .badParam := by
  have hi : (peInt entry && !(peEnc entry && t.inProtected (page.toNat * 131072))) = false := by simpa using hint
  have hk' : (peEnc entry && !(t.keySlot (peSlot entry)).usable) = true := by simp [henc, hk]
  rw [h.checks]
  simp only [State.pageSetChecks, List.drop, hold, reserved_clear hres, hi, hk', firstFail]
  rfl

/-- Every check passes. -/
theorem State.PageSettable.pass (hk : peEnc entry = true → (t.keySlot (peSlot entry)).usable = true) :
    firstFail (t.pageSetChecks page entry) = none := by
  have hi : (peInt entry && !(peEnc entry && t.inProtected (page.toNat * 131072))) = false := by simpa using hint
  have hk' : (peEnc entry && !(t.keySlot (peSlot entry)).usable) = false := by simpa using hk
  rw [h.checks]
  simp only [State.pageSetChecks, List.drop, hold, reserved_clear hres, hi, hk', firstFail]
  rfl

end Refusals

theorem cmdPageSet_refuses {st : CmdStatus} (h : firstFail (t.pageSetChecks page entry) = some st) :
    cmdPageSet c page entry t = t.refuse st := by
  unfold cmdPageSet
  exact checked_fail h

section Passed

variable (hok : firstFail (t.pageSetChecks page entry) = none)
include hok

theorem cmdPageSet_changing (hch : t.changing page.toNat = true) : cmdPageSet c page entry t =
    t.actLater (t.lookups (fun q _ => q == page.toNat)) (.setPage page.toNat entry (t.coreId c)) := by
  unfold cmdPageSet
  exact (checked_pass hok).trans (if_pos hch)

theorem cmdPageSet_kept (hch : t.changing page.toNat = false) (hcl : clears (t.patRaw page.toNat) entry = false) :
    cmdPageSet c page entry t = (t.setEntry page.toNat entry).afterLookups (t.lookups (fun q _ => q == page.toNat)) .ok
      ((t.patRaw page.toNat).setWidth 64) := by
  unfold cmdPageSet
  refine (checked_pass hok).trans ?_
  simp only [hch, hcl]
  rfl

variable (hch : t.changing page.toNat = false) (hcl : clears (t.patRaw page.toNat) entry = true)
include hch hcl

theorem cmdPageSet_barred {st : CmdStatus} (hb : t.channelBar (t.decodeAddr (page.toNat * 131072)).ch = some st) :
    cmdPageSet c page entry t = t.refuse st := by
  unfold cmdPageSet
  refine (checked_pass hok).trans ?_
  simp only [hch, hcl, hb]
  rfl

variable (hb : t.channelBar (t.decodeAddr (page.toNat * 131072)).ch = none)
include hb

theorem cmdPageSet_waits (ho : t.lookups (fun q _ => q == page.toNat) ≠ []) : cmdPageSet c page entry t =
    t.actLater (t.lookups (fun q _ => q == page.toNat)) (.setPage page.toNat entry (t.coreId c)) := by
  unfold cmdPageSet
  refine (checked_pass hok).trans ?_
  simp only [hch, hcl, hb, List.isEmpty_eq_false_iff.mpr ho]
  rfl

theorem cmdPageSet_clears (ho : t.lookups (fun q _ => q == page.toNat) = []) {x : CmdStatus}
    (hx : t.setPageNow (t.coreId c) page.toNat entry = (u, x)) :
    cmdPageSet c page entry t = (u, .done x ((t.patRaw page.toNat).setWidth 64)) := by
  unfold cmdPageSet
  refine (checked_pass hok).trans ?_
  simp only [hch, hcl, hb, ho, hx]
  rfl

end Passed

/-! The channel of a page that is cleared, and the clear (R128, R350). -/

section Bar

variable {ch : Fin 64}

theorem channelBar_off (hd : t.distOn (distOf ch) = false) : t.channelBar ch = some .domainDown := by
  simp only [State.channelBar, hd]
  rfl

theorem channelBar_offline (hd : t.distOn (distOf ch) = true) (ho : t.chs[ch].tsv.offline = true) :
    t.channelBar ch = some .notPermitted := by
  simp only [State.channelBar, hd, ho]
  rfl

theorem channelBar_none (hd : t.distOn (distOf ch) = true) (ho : t.chs[ch].tsv.offline = false) : t.channelBar ch = none := by
  simp only [State.channelBar, hd, ho]
  rfl

end Bar

section Clear

variable {v : State} {m : MasterId} {p : Nat} {e : W32} {ch : Fin 64} {st : CStatus} (hold : peRetired (t.patRaw p) = false)
  (hcl : clears (t.patRaw p) e = true) (hch : (t.decodeAddr (p * 131072)).ch = ch) (hb : t.channelBar ch = none)
  (hw : t.clearWalks ch (e ||| (t.patRaw p &&& 0x40000000#32)) (p * 131072) = (v, st))
include hold hcl hch hb hw

/-- A walk that the clear needs fails: the entry stays. -/
theorem setPageNow_fails (hst : st ≠ .ok) : t.setPageNow m p e = (v, CmdStatus.ofCompletion st) := by
  simp only [State.setPageNow, hold, hcl, hch, hb, hw]
  exact if_pos hst

theorem setPageNow_done (hst : st = .ok) {b : Bool}
    (hl : (v.setEntry p e).clearLines ch m (t.patRaw p) e (p * 131072) = (u, b)) :
    t.setPageNow m p e = (u, if b then .sealed else .ok) := by
  simp only [State.setPageNow, hold, hcl, hch, hb, hw, hl, hst]
  rfl

end Clear

theorem ofCompletion_ne_ok {st : CStatus} (h : st ≠ .ok) : CmdStatus.ofCompletion st ≠ .ok := by
  revert h
  cases st <;> decide

/-- RESULT is 0 unless the status is OK (R342). -/
theorem reply_of_ne_ok {st : CmdStatus} (h : st ≠ .ok) (r : W64) : t.reply c st r = t.reply c st 0 := by
  simp [State.reply, h]

/-! The obligation. -/

theorem pageSet_checked (h : Taken s c 0x0301 t) {st : CmdStatus} (hf : firstFail (t.pageSetChecks page entry) = some st) :
    exec (.pageSet c page entry) s = .next (t.reply c st 0) :=
  h.replies (cmdPageSet_refuses hf)

/-- Settles O12: the checks in their order, then the outcomes of the body. -/
theorem pageSetWritesTheEntry : Obligations.PageSetWritesTheEntry := by
  refine fun s t c page entry h => ⟨fun hcfg => ?_, fun hcfg hbad => ?_, fun hcfg hp h512 htree hres => ?_⟩
  · exact pageSet_checked h (by simp [State.pageSetChecks, firstFail, hcfg])
  · refine pageSet_checked h ?_
    have hb : (!t.pageOk page || t.specialPage page.toNat || t.isReserve page.toNat) = true := by
      simpa [State.pageOk, or_assoc] using hbad
    simp only [State.pageSetChecks, firstFail, hcfg, hb]
    rfl
  have hset : t.PageSettable page := ⟨hcfg, hp, h512, htree, hres⟩
  refine ⟨fun hold => ?_, fun hold => ⟨fun h26 => ?_, fun hclear => ⟨fun hint hbad => ?_,
    fun hint => ⟨fun henc hk => ?_, fun hk => ?_⟩⟩⟩⟩
  · exact pageSet_checked h (hset.retired hold)
  · exact pageSet_checked h (hset.asksRetired hold h26)
  · exact pageSet_checked h (hset.unprotected hold hclear hint hbad)
  · exact pageSet_checked h (hset.keyless hold hclear hint henc hk)
  have hok := hset.pass hold hclear hint hk
  refine ⟨fun hch => h.actsLater (cmdPageSet_changing hok hch), fun hch hcl => h.answers25 (cmdPageSet_kept hok hch hcl),
    fun hch hcl ch hd => ⟨fun hoff => ?_, fun hon hoff => ?_, fun hon hoff => ⟨fun ho => ?_,
      fun ho v st hw => ⟨fun hst => ?_, fun hst u b hl => ?_⟩⟩⟩⟩
  · exact h.replies (cmdPageSet_barred hok hch hcl (by rw [hd, channelBar_off hoff]))
  · exact h.replies (cmdPageSet_barred hok hch hcl (by rw [hd, channelBar_offline hon hoff]))
  · exact h.actsLater (cmdPageSet_waits hok hch hcl (by rw [hd, channelBar_none hon hoff]) ho)
  · refine (h.replies (cmdPageSet_clears hok hch hcl (by rw [hd, channelBar_none hon hoff]) ho
      (setPageNow_fails hold hcl hd (channelBar_none hon hoff) hw hst))).trans ?_
    rw [reply_of_ne_ok (ofCompletion_ne_ok hst)]
  · exact h.replies (cmdPageSet_clears hok hch hcl (by rw [hd, channelBar_none hon hoff]) ho
      (setPageNow_done hold hcl hd (channelBar_none hon hoff) hw hst hl))

end Sys2Proof.Machine
end

section
/-! PROOFS. The other page commands (R25, R126, R128, R152): ACCESS_GROUP_SET on a canonical table, the completion of a policy change,
and a table on which ACCESS_GROUP_SET does not do what is claimed. -/

namespace Sys2Proof.Machine

variable {s t : State} {c : CmdCtx}

/-! ACCESS_GROUP_SET, on a table in the canonical form. -/

theorem exec_accessGroupSet_of_canonical (h : Taken s c 0x0306 t) (hwf : smWf t.sec.groups = true)
    {g : BitVec 16} {i : BitVec 8} {p : W64} (hg : g.toNat ≤ 255) (hi : i.toNat ≤ 15)
    (hp : p &&& 0x1FFFFF0000000000#64 = 0) : ∃ u : State,
      exec (.accessGroupSet c g i p) s = .next (u.answer25 c (t.lookups (fun _ e => peGroup e == g.toNat)) .ok 0) ∧
      u = { t with sec := { t.sec with groups := u.sec.groups } } ∧ u.groupPat g.toNat i.toNat = p := by
  have hres : fieldN p 40 21 = 0 := fieldN_eq_zero fun i hi => getLsbD_of_and_eq_zero hp (by interval_cases i <;> rfl)
  have hok : firstFail [(groupBad g i || fieldN p 40 21 != 0, CmdStatus.badParam)] = none := by
    simp [firstFail, groupBad, hg, hi, hres]
  refine ⟨_, h.answers25 (f := cmdAccessGroupSet g i p) (checked_pass hok), rfl, ?_⟩
  by_cases h0 : p = 0#64
  · simp [State.groupPat, smGetD, h0, smGet?_del_self hwf]
  · simp [State.groupPat, h0]

/-! The completion of a policy change: the half of O13 that holds in every state (R25, R128, R152). -/

/-- The waiting command is found by its number. -/
theorem exec_policyChangeComplete {id : Nat} {olds : List (MasterId × BitVec 16)} {st : CmdStatus} {r : W64} {act : PolicyAct}
    (hw : s.cmd.waits = [{ ctx := c, kind := .policy id olds st r act }]) :
    exec (.policyChangeComplete id) s =
      if olds.any s.lookupsHeld.contains || s.actBlocked id act then .next s
      else .next (s.actNow { ctx := c, kind := .policy id olds st r act } st r act) := by
  simp [exec, execPolicyChangeComplete, hw]

theorem policyChangeCompletes : Part.PolicyChangeCompletes := by
  intro s c id olds st r act hw held
  have hheld : held = s.lookupsHeld := rfl
  refine ⟨fun hfree => ?_, fun hused => ?_⟩
  · have hany : olds.any s.lookupsHeld.contains = false := by
      simpa [hheld] using hfree
    have hblock : s.actBlocked id act = false := by
      cases act <;> simp [State.actBlocked, hw, CmdWait.setsUnder]
    rw [exec_policyChangeComplete hw, hany, hblock]
    refine ⟨?_, ?_, ?_⟩
    · rintro rfl
      simp [State.actNow, State.finish, hw]
    · rintro slot rfl
      simp [State.actNow, State.finish, State.zeroise, hw, State.keySlot]
    · rintro p e m rfl u x hu
      simp [State.actNow, hw, hu]
  · have hany : olds.any s.lookupsHeld.contains = true := by
      simpa [hheld] using hused
    rw [exec_policyChangeComplete hw, hany]
    rfl

/-! A table of access groups that lists one pattern twice. ACCESS_GROUP_SET builds no such table (`smWf_put`, `smWf_del`), but a state may
hold one: clearing the pattern removes the first listing, and the second one is then read. -/

namespace DoubleListing

/-- Firmware runs; pattern 0 of group 0 is listed twice. -/
def before : State := { sec := { groups := [(0, 1), (0, 1)] }, boot := { phase := .ready } }

/-- A REMOTE_CMD of master 0. -/
def ctx : CmdCtx := { src := .remote 0 0 0 0, tag := 0, irq := false }

/-- The state in which the command runs. -/
def begun : State := before.addTransit (reqHdr mtRemoteCmd 15 0 0 0) (some { port := 0, sub := 0 }) none

/-- That state with another table of access groups. -/
def withGroups (g : SMap W64) : State := { begun with sec := { begun.sec with groups := g } }

theorem taken : Taken before ctx 0x0306 begun := ⟨rfl, rfl⟩

/-- The command's own transit entry. -/
def entry : Transit :=
  { master := 0, tag := 0, hdr := reqHdr mtRemoteCmd 15 0 0 0, ingress := some { port := 0, sub := 0 }, egress := none }

/-- The reply of the command finds its sub-link down, and is discarded. -/
theorem reply_eq (g : SMap W64) : (withGroups g).reply ctx .ok 0 = ((withGroups g).dropTransit entry).lateCmp := by
  have htransit : (withGroups g).transitOf 0 0 = some entry := rfl
  have hfab : (withGroups g).fab = begun.fab := rfl
  have hmaster : hMaster (cmpHdr mtRemoteReply 15 0 0 .ok begun.fab.nodeId) = 0 := by decide
  have htag : hTag (cmpHdr mtRemoteReply 15 0 0 .ok begun.fab.nodeId) = 0 := by decide
  simp only [State.reply, State.replyRaw, ctx, State.retrace, hfab, hmaster, htag, htransit]
  rfl

/-- Neither answer of the command writes an access group. -/
theorem answer25_groups (g : SMap W64) (olds : List (MasterId × BitVec 16)) :
    ((withGroups g).answer25 ctx olds .ok 0).sec.groups = g := by
  unfold State.answer25
  split
  · rw [reply_eq]
    rfl
  · rfl

theorem exec_clear : exec (.accessGroupSet ctx 0 0 0) before =
    .next ((withGroups [(0, 1)]).answer25 ctx (begun.lookups (fun _ e => peGroup e == 0)) .ok 0) :=
  taken.answers25 (f := cmdAccessGroupSet 0 0 0) rfl

end DoubleListing

open DoubleListing in
/-- Refutes O13: where the table of access groups lists a pattern twice, ACCESS_GROUP_SET with pattern 0 leaves it set. On a table in
the canonical form the clause holds (`exec_accessGroupSet_of_canonical`), but O13 speaks of every state. -/
theorem not_pageCommandsActAndComplete : ¬ Obligations.PageCommandsActAndComplete := by
  rintro ⟨hact, -⟩
  obtain ⟨-, -, -, -, hgroup, -⟩ := hact before begun ctx 512 (by decide) (by decide)
  obtain ⟨hset, -⟩ := hgroup taken 0 0 0 (by decide) (by decide)
  obtain ⟨u, hexec, hu, hpat⟩ := hset rfl
  have hstate : (withGroups [(0, 1)]).answer25 ctx (begun.lookups (fun _ e => peGroup e == 0)) .ok 0 =
      (withGroups u.sec.groups).answer25 ctx (begun.lookups (fun _ e => peGroup e == 0)) .ok 0 := by
    rw [exec_clear, hu] at hexec
    exact Host.Outcome.next.inj hexec
  have hgroups : u.sec.groups = [(0, 1)] := by
    simpa only [answer25_groups] using (congrArg (fun v : State => v.sec.groups) hstate).symm
  rw [State.groupPat, hgroups] at hpat
  exact absurd hpat (by decide)

end Sys2Proof.Machine
end

section
/-! PROOFS. DIST_POWER, PORT_ENABLE and ENGINE_ENABLE (R19, R254-R257, R349, R360-R362). -/

namespace Sys2Proof.Machine

variable {s t u : State} {c : CmdCtx}

/-! Sets of units. -/

theorem nodup_membersOf (k : Fin 8) : (membersOf k).Nodup := (List.nodup_finRange 64).filter _

theorem nodup_maskList (m : W64) : (maskList m).Nodup := (List.nodup_finRange 64).filter _

theorem mem_membersOf {k : Fin 8} {n : Fin 64} : n ∈ membersOf k ↔ distOf n = k := by simp [membersOf, fins]

theorem mem_maskList {m : W64} {n : Fin 64} : n ∈ maskList m ↔ m.getLsbD n.val = true := by simp [maskList, fins, bit]

/-! DIST_POWER. -/

/-- A channel whose District begins STARTING (R40, R88). -/
def Channel.startTraining (c : Channel) : Channel :=
  if c.tsv.offline then c
  else { c with tsv := { c.tsv with clk := true }, ctl := { c.ctl with state := .training, program := 1 } }

theorem startDistrict_chs (s : State) (k : Fin 8) :
    (s.startDistrict k).chs = (membersOf k).foldl (fun v n => vmod v n Channel.startTraining) s.chs := by
  refine (List.foldl_hom State.chs fun u n => ?_).symm
  cases ho : u.chs[n].tsv.offline with
  | true =>
    simp only [if_true]
    exact vmod_id (if_pos ho)
  | false =>
    simp only [Bool.false_eq_true, if_false, State.modCtl_chs, State.modTsv_chs, vmod_vmod]
    refine vmod_congr ?_
    rw [Channel.startTraining, if_neg (by simp [-Fin.getElem_fin, ho])]

theorem startDistrict_dist (s : State) (k : Fin 8) : (s.startDistrict k).dist =
    vmod s.dist k (fun d => { d with fn := { d.fn with st := .starting }, drained := false, accepted := [] }) := by
  refine (List.foldl_hom State.dist (g₂ := fun d _ => d) fun u n => ?_).symm.trans (List.foldl_fixed ..)
  split <;> rfl

/-- What an enable or disable request does to District `k` (R19, R360). -/
def State.askDistrict (s : State) (k : Fin 8) (on : Bool) : State :=
  let a := s.modDist k (fun d => { d with fn := (fnAsk s.dist[k].fn on).1 })
  if fnBegins s.dist[k].fn on then a.startDistrict k else if fnEnds s.dist[k].fn on then a.stopDistrict k else a

theorem exec_distPower (h : Taken s c 0x0902 t) (k : Fin 8) {en : BitVec 8} (hen : en.toNat < 2) :
    exec (.distPower c (BitVec.ofNat 8 k.val) en) s =
      .next ((t.askDistrict k (en.getLsbD 0)).reply c (fnAsk t.dist[k].fn (en.getLsbD 0)).2
        ((t.askDistrict k (en.getLsbD 0)).dist[k].gen.setWidth 64)) := by
  have hk := toNat_ofNat8 k (by decide)
  refine h.replies (f := cmdDistPower _ en) ?_
  rw [cmdDistPower, checked_pass (by simp [firstFail, hk]; omega)]
  simp only [hk, fin_mk_mod, res64, BitVec.ofNat_toNat]
  rfl

theorem getLsbD_zero_eq_true_iff {en : BitVec 8} (hen : en.toNat < 2) : en.getLsbD 0 = true ↔ en = 1 := by
  obtain h | h : en.toNat = 0 ∨ en.toNat = 1 := by omega
  · simp [BitVec.eq_of_toNat_eq (y := 0#8) h]
  · simp [BitVec.eq_of_toNat_eq (y := 1#8) h]

theorem getLsbD_zero_eq_false_iff {en : BitVec 8} (hen : en.toNat < 2) : en.getLsbD 0 = false ↔ en = 0 := by
  obtain h | h : en.toNat = 0 ∨ en.toNat = 1 := by omega
  · simp [BitVec.eq_of_toNat_eq (y := 0#8) h]
  · simp [BitVec.eq_of_toNat_eq (y := 1#8) h]

theorem fnAsk_enable_off {f : Fn} (h : f.st = .off) : fnAsk f true = ({ st := .starting }, .ok) := by
  simp only [fnAsk, h]

theorem fnAsk_disable_on {f : Fn} (h : f.st = .on) : fnAsk f false = ({ st := .stopping }, .ok) := by
  simp only [fnAsk, h]

theorem fnBegins_iff {f : Fn} {on : Bool} : fnBegins f on = true ↔ f.st = .off ∧ on = true := by
  simp [fnBegins, and_comm]

theorem fnEnds_iff {f : Fn} {on : Bool} : fnEnds f on = true ↔ f.st = .on ∧ on = false := by
  simp [fnEnds, and_comm]

section District

variable {k : Fin 8}

theorem askDistrict_starts (h : t.dist[k].fn.st = .off) :
    t.askDistrict k true = (t.modDist k (fun d => { d with fn := { st := .starting } })).startDistrict k := by
  simp only [State.askDistrict, fnBegins, fnAsk_enable_off h, h]
  rfl

theorem askDistrict_stops (h : t.dist[k].fn.st = .on) :
    t.askDistrict k false = (t.modDist k (fun d => { d with fn := (fnAsk t.dist[k].fn false).1 })).stopDistrict k := by
  simp only [State.askDistrict, fnBegins, fnEnds, h]
  rfl

theorem askDistrict_moves {on : Bool} (h1 : ¬(t.dist[k].fn.st = .off ∧ on = true)) (h2 : ¬(t.dist[k].fn.st = .on ∧ on = false)) :
    t.askDistrict k on = t.modDist k (fun d => { d with fn := (fnAsk t.dist[k].fn on).1 }) := by
  have hb : fnBegins t.dist[k].fn on = false := by simpa [← Bool.not_eq_true, fnBegins_iff] using h1
  have he : fnEnds t.dist[k].fn on = false := by simpa [← Bool.not_eq_true, fnEnds_iff] using h2
  simp only [State.askDistrict, hb, he]
  rfl

end District

/-- A District begins STARTING: its channels that are not offline train, and every other channel is as it was. -/
theorem startDistrict_trains (s : State) (k : Fin 8) (n : Fin 64) :
    (distOf n = k → s.chs[n].tsv.offline = false → ((s.startDistrict k).chs[n]).ctl.state = .training) ∧
    (distOf n ≠ k ∨ s.chs[n].tsv.offline = true → (s.startDistrict k).chs[n] = s.chs[n]) := by
  simp only [startDistrict_chs, foldl_vmod _ (nodup_membersOf k), mem_membersOf]
  refine ⟨fun hk ho => ?_, fun h => ?_⟩
  · rw [if_pos hk, Channel.startTraining, if_neg (by simp [-Fin.getElem_fin, ho])]
  · by_cases hk : distOf n = k
    · rw [if_pos hk, Channel.startTraining, if_pos (h.resolve_left (not_not.mpr hk))]
    · rw [if_neg hk]

theorem distPowerMovesTheDistrict : Part.DistPowerMovesTheDistrict := by
  refine fun s t c k en h hen => ⟨fun hoff hen1 => ?_, fun hon hen0 => ?_, fun h1 h2 => ?_⟩
  · have hx := exec_distPower h k hen
    rw [(getLsbD_zero_eq_true_iff hen).mpr hen1, askDistrict_starts hoff, fnAsk_enable_off hoff] at hx
    refine ⟨_, hx, ?_, ?_, fun n => startDistrict_trains (t.modDist k _) k n⟩ <;>
      simp only [startDistrict_dist, State.modDist_dist, vmod_self]
  · rw [exec_distPower h k hen, (getLsbD_zero_eq_false_iff hen).mpr hen0, askDistrict_stops hon, fnAsk_disable_on hon]
  · rw [← getLsbD_zero_eq_true_iff hen] at h1
    rw [← getLsbD_zero_eq_false_iff hen] at h2
    rw [exec_distPower h k hen, askDistrict_moves h1 h2]
    simp only [State.modDist_dist, vmod_self]

/-! PORT_ENABLE. -/

/-- A parameter of PORT_ENABLE is out of its range (R254, R256, R257). -/
def portParamsBad (p : Fin 64) (mode rate flags : BitVec 8) : Bool :=
  decide (8 ≤ flags.toNat) || !rateAllowed mode.toNat rate.toNat || (if bit flags 0 then !modeAllowed p.val mode.toNat else mode != 0)

/-- A port that is to be enabled runs in another mode, or its lanes are taken (R254, R256). -/
def State.portBusy (s : State) (p : Fin 64) (mode : BitVec 8) (on : Bool) : Bool :=
  on && ((s.ports[p].fn.st ≠ .off && s.ports[p].mode ≠ mode.toNat) || (mode = 4 && s.ports[pairOf p].fn.st ≠ .off) ||
    (scezoMode mode.toNat && p.val % 8 = 1 && s.ports[(⟨p.val - 1, by omega⟩ : Fin 64)].mode = 4))

/-- The checks of PORT_ENABLE, in the order of R256. -/
def State.portChecks (s : State) (p : Fin 64) (mode rate flags : BitVec 8) : List (Bool × CmdStatus) :=
  [(portParamsBad p mode rate flags, .badParam), (s.portBusy p mode (bit flags 0), .busy), (!s.distOn (distOf p), .domainDown)]

/-- PORT_ENABLE once its checks have passed: the configuration is recorded and the port follows R360. -/
def State.askPort (s : State) (p : Fin 64) (mode rate flags : BitVec 8) : State :=
  let on := flags.getLsbD 0
  let x := s.ports[p]
  let a : State := s.modPort p (fun y => { y with
    want := on, cfgMode := mode.toNat, maxRate := rate.toNat, degradeEn := flags.getLsbD 1, reversalEn := flags.getLsbD 2,
    fn := { y.fn with deferred := (fnAsk x.fn on).1.deferred } })
  if fnBegins x.fn on then a.startPort p else if fnEnds x.fn on then a.stopPort p else a

section PortChecks

variable {p : Fin 64} {mode rate flags : BitVec 8}

theorem cmdPortEnable_refuses {st : CmdStatus} (hc : firstFail (t.portChecks p mode rate flags) = some st) :
    cmdPortEnable (BitVec.ofNat 8 p.val) mode rate flags t = t.refuse st := by
  have hp := toNat_ofNat8 p (by decide)
  have hmod : p.val % 64 = p.val := Nat.mod_eq_of_lt p.isLt
  have hlt : decide (64 ≤ p.val) = false := by simp
  simp only [cmdPortEnable, hp, hmod, hlt, Bool.false_or]
  exact checked_fail hc

theorem cmdPortEnable_acts (hc : firstFail (t.portChecks p mode rate flags) = none) :
    cmdPortEnable (BitVec.ofNat 8 p.val) mode rate flags t = (t.askPort p mode rate flags,
      .done (fnAsk t.ports[p].fn (flags.getLsbD 0)).2 ((t.askPort p mode rate flags).ports[p].gen.setWidth 64)) := by
  have hp := toNat_ofNat8 p (by decide)
  have hmod : p.val % 64 = p.val := Nat.mod_eq_of_lt p.isLt
  have hlt : decide (64 ≤ p.val) = false := by simp
  simp only [cmdPortEnable, hp, hmod, hlt, Bool.false_or, res64, BitVec.ofNat_toNat]
  exact checked_pass hc

theorem portParamsBad_iff : portParamsBad p mode rate flags = true ↔ 8 ≤ flags.toNat ∨ rateAllowed mode.toNat rate.toNat = false ∨
    flags.getLsbD 0 = true ∧ modeAllowed p.val mode.toNat = false ∨ flags.getLsbD 0 = false ∧ mode ≠ 0 := by
  unfold portParamsBad bit
  cases flags.getLsbD 0 <;> simp [or_assoc]

theorem portBusy_iff {on : Bool} : t.portBusy p mode on = true ↔ on = true ∧ (
    t.ports[p].fn.st ≠ .off ∧ t.ports[p].mode ≠ mode.toNat ∨ mode = 4 ∧ t.ports[pairOf p].fn.st ≠ .off ∨
    scezoMode mode.toNat = true ∧ p.val % 8 = 1 ∧ t.ports[(⟨p.val - 1, by omega⟩ : Fin 64)].mode = 4) := by
  simp [-Fin.getElem_fin, State.portBusy, or_assoc, and_assoc]

theorem portChecks_badParam (h : portParamsBad p mode rate flags = true) :
    firstFail (t.portChecks p mode rate flags) = some .badParam := if_pos h

variable (hp : portParamsBad p mode rate flags = false)
include hp

theorem portChecks_busy (hb : t.portBusy p mode (flags.getLsbD 0) = true) :
    firstFail (t.portChecks p mode rate flags) = some .busy := by
  simp only [State.portChecks, firstFail, hp, bit, hb]
  rfl

variable (hb : t.portBusy p mode (flags.getLsbD 0) = false)
include hb

theorem portChecks_down (hd : t.distOn (distOf p) = false) : firstFail (t.portChecks p mode rate flags) = some .domainDown := by
  simp only [State.portChecks, firstFail, hp, bit, hb, hd]
  rfl

theorem portChecks_pass (hd : t.distOn (distOf p) = true) : firstFail (t.portChecks p mode rate flags) = none := by
  simp only [State.portChecks, firstFail, hp, bit, hb, hd]
  rfl

end PortChecks

theorem portEnableConfigures : Part.PortEnableConfigures := by
  refine fun s t c p mode rate flags h => ⟨fun hbad => ?_, fun hflags hrate hon hoff => ?_⟩
  · exact h.replies (cmdPortEnable_refuses (portChecks_badParam (portParamsBad_iff.mpr hbad)))
  have hp : portParamsBad p mode rate flags = false := by
    rw [← Bool.not_eq_true, portParamsBad_iff]
    rintro (hx | hx | ⟨h0, hx⟩ | ⟨h0, hx⟩)
    · omega
    · simp [hrate] at hx
    · simp [hon h0] at hx
    · exact hx (hoff h0)
  refine ⟨fun h0 hx hm => ?_, fun h0 hm hx => ?_, fun hidle => ?_⟩
  · exact h.replies (cmdPortEnable_refuses (portChecks_busy hp (portBusy_iff.mpr ⟨h0, .inl ⟨hx, hm⟩⟩)))
  · exact h.replies (cmdPortEnable_refuses (portChecks_busy hp (portBusy_iff.mpr ⟨h0, .inr (.inl ⟨hm, hx⟩)⟩)))
  have hb : t.portBusy p mode (flags.getLsbD 0) = false := by
    rw [← Bool.not_eq_true, portBusy_iff]
    rintro ⟨h0, hx⟩
    obtain ⟨hmode, hpair, hbefore⟩ := hidle h0
    obtain ⟨hst, hm⟩ | ⟨hm, hst⟩ | ⟨hs, h8, hm⟩ := hx
    · exact hmode.elim hst hm
    · exact hst (hpair hm)
    · exact hbefore hs h8 hm
  refine ⟨fun hd => h.replies (cmdPortEnable_refuses (portChecks_down hp hb hd)), fun hd => ?_⟩
  refine (h.replies (cmdPortEnable_acts (portChecks_pass hp hb hd))).trans ?_
  simp only [State.askPort, fnBegins_iff, fnEnds_iff]

/-! ENGINE_ENABLE. -/

/-- An engine is asked to be enabled or disabled (R360, R362). -/
def Engine.ask (on : Bool) (e : Engine) : Engine := { e with want := on, fn := (fnAsk e.fn on).1 }

theorem foldl_modEng (f : Engine → Engine) (l : List (Fin 64)) (s : State) :
    l.foldl (fun s e => s.modEng e f) s = { s with engs := { s.engs with eng := l.foldl (fun v e => vmod v e f) s.engs.eng } } :=
  List.foldl_hom (fun v => ({ s with engs := { s.engs with eng := v } } : State)) (init := s.engs.eng) fun _ _ => rfl

/-- The named engines are asked. -/
def State.askEngines (s : State) (m : W64) (on : Bool) : State :=
  { s with engs := { s.engs with eng := (maskList m).foldl (fun v e => vmod v e (Engine.ask on)) s.engs.eng } }

/-- The request of one of the named engines is deferred (R360). -/
def State.someDeferred (s : State) (m : W64) (on : Bool) : Bool :=
  (maskList m).any (fun e => (fnAsk (s.engs.eng[e]).fn on).2 == CmdStatus.deferred)

section EngineChecks

variable {m : W64} {en : BitVec 8}

theorem named_down_iff : (maskList m).any (fun e => !t.distOn (distOf e)) = true ↔
    ∃ e : Fin 64, m.getLsbD e.val = true ∧ t.distOn (distOf e) = false := by
  simp [mem_maskList]

theorem someDeferred_iff {on : Bool} : t.someDeferred m on = true ↔
    ∃ e : Fin 64, m.getLsbD e.val = true ∧ (fnAsk (t.engs.eng[e]).fn on).2 = .deferred := by
  simp [-Fin.getElem_fin, State.someDeferred, mem_maskList]

theorem cmdEngineEnable_bad (h : m = 0 ∨ 2 ≤ en.toNat) : cmdEngineEnable m en t = t.refuse .badParam := by
  unfold cmdEngineEnable
  refine checked_fail (if_pos ?_)
  simpa using h

variable (hp : (decide (m = 0) || decide (2 ≤ en.toNat)) = false)
include hp

theorem cmdEngineEnable_down (h : (maskList m).any (fun e => !t.distOn (distOf e)) = true) :
    cmdEngineEnable m en t = t.refuse .domainDown := by
  unfold cmdEngineEnable
  refine checked_fail ?_
  simp only [firstFail, hp, h]
  rfl

theorem cmdEngineEnable_acts (h : (maskList m).any (fun e => !t.distOn (distOf e)) = false) : ∃ r,
    cmdEngineEnable m en t = (t.askEngines m (en.getLsbD 0),
      .done (if t.someDeferred m (en.getLsbD 0) then .deferred else .ok) r) := by
  have hask : t.askEngines m (en.getLsbD 0) = (maskList m).foldl (fun s e => s.modEng e (Engine.ask (en.getLsbD 0))) t :=
    (foldl_modEng ..).symm
  rw [hask]
  unfold cmdEngineEnable
  refine ⟨_, checked_pass ?_⟩
  simp only [firstFail, hp, h]
  rfl

end EngineChecks

theorem engineEnableIsWhole : Part.EngineEnableIsWhole := by
  refine fun s t c m en h => ⟨fun hbad => h.replies (cmdEngineEnable_bad hbad), fun hm hen => ?_⟩
  have hp : (decide (m = 0) || decide (2 ≤ en.toNat)) = false := by simpa [hen] using hm
  refine ⟨fun hd => h.replies (cmdEngineEnable_down hp (named_down_iff.mpr hd)), fun hall => ?_⟩
  have hup : (maskList m).any (fun e => !t.distOn (distOf e)) = false := by
    rw [← Bool.not_eq_true, named_down_iff]
    rintro ⟨e, he, hd⟩
    simp [hall e he] at hd
  obtain ⟨r, hr⟩ := cmdEngineEnable_acts hp hup
  refine ⟨_, _, r, h.replies hr, rfl, ?_, ?_, fun e => ?_⟩
  · split <;> simp
  · rw [← someDeferred_iff]
    split <;> simp_all
  · simp only [State.askEngines, foldl_vmod _ (nodup_maskList m), mem_maskList]
    rfl

/-- Settles O21: each command's checks, then what it asks of its functions. -/
theorem functionCommandsMoveTheirFunctions : Obligations.FunctionCommandsMoveTheirFunctions :=
  ⟨distPowerMovesTheDistrict, portEnableConfigures, engineEnableIsWhole⟩

end Sys2Proof.Machine
end

section
/-! PROOFS. Memory requests at the end of their path, the gate, and the page checks (R19, R55, R64, R67, R121-R127, R147, R235, R405). -/

namespace Sys2Proof.Machine

variable {s g v : State} {r : Req} {m : MasterId} {a access : Nat} {inside : Bool}

/-! The gate, row by row. -/

theorem gate_unlocked (h : s.glb.mapLock = false) : s.gate m a access inside = (s, some .internal) := by
  simp [State.gate, h]

theorem gate_starting (hl : s.glb.mapLock = true) (hp : s.boot.phase = .starting) :
    s.gate m a access inside = (s, some .domainDown) := by
  simp [State.gate, hl, hp]

section Ready

variable (hl : s.glb.mapLock = true) (hp : s.boot.phase = .ready)
include hl hp

theorem gate_beyond (ha : s.glb.variant.capacity ≤ a) :
    s.gate m a access inside = (s.log evAddrInvalid a access m CStatus.notPermitted.code, some .notPermitted) := by
  simp [State.gate, hl, hp, ha]

variable (ha : a < s.glb.variant.capacity)
include ha

theorem gate_off (hd : (s.dist[distOf (s.decodeAddr a).ch]).fn.st = .off ∨ (s.dist[distOf (s.decodeAddr a).ch]).fn.st = .starting) :
    s.gate m a access inside = (s, some .domainDown) := by
  obtain hd | hd := hd <;> simp only [State.gate, hl, hp, hd, Nat.not_le.mpr ha] <;> rfl

theorem gate_stopping (hd : (s.dist[distOf (s.decodeAddr a).ch]).fn.st = .stopping) :
    s.gate m a access false = (s, some .domainDown) := by
  simp only [State.gate, hl, hp, hd, Nat.not_le.mpr ha]
  rfl

variable (hd : (s.dist[distOf (s.decodeAddr a).ch]).fn.st = .on)
include hd

theorem gate_offline (ho : (s.chs[(s.decodeAddr a).ch]).tsv.offline = true) :
    s.gate m a access inside = (s, some .channelOffline) := by
  simp only [State.gate, hl, hp, hd, Nat.not_le.mpr ha, ho]
  rfl

theorem gate_pass (ho : (s.chs[(s.decodeAddr a).ch]).tsv.offline = false)
    (h1 : (s.chs[(s.decodeAddr a).ch]).ctl.state ≠ .draining) (h2 : (s.chs[(s.decodeAddr a).ch]).ctl.state ≠ .selfRefresh)
    (h3 : (s.chs[(s.decodeAddr a).ch]).ctl.state ≠ .off) : s.gate m a access inside = (s, none) := by
  simp only [State.gate, hl, hp, hd, Nat.not_le.mpr ha, ho]
  split
  · contradiction
  · rfl

end Ready

/-! A request that arrives. -/

/-- The five memory requests arrive alike. -/
theorem exec_memoryRequest {i : Instr} (h : i = .lineRead r ∧ r.kind = .lineRead ∨
    (∃ d p, i = .lineWrite r ∧ r.kind = .lineWrite d p) ∨ (∃ d m, i = .partialWrite r ∧ r.kind = .partialWrite d m) ∨
    (∃ st, i = .rowRead r ∧ r.kind = .rowRead st) ∨ (∃ d p, i = .rowWrite r ∧ r.kind = .rowWrite d p)) :
    exec i s = .next (s.arrive r) := by
  obtain ⟨rfl, hk⟩ | ⟨d, p, rfl, hk⟩ | ⟨d, m, rfl, hk⟩ | ⟨st, rfl, hk⟩ | ⟨d, p, rfl, hk⟩ := h
  · simp only [exec, execLineRead, hk]
  · simp only [exec, execLineWrite, hk]
  · simp only [exec, execPartialWrite, hk]
  · simp only [exec, execRowRead, hk]
  · simp only [exec, execRowWrite, hk]

theorem arrive_none (hu : s.dieUp = true) (h : s.advance.takeReq r = none) : s.arrive r = s.advance := by
  simp [State.arrive, hu, h]

theorem arrive_some (hu : s.dieUp = true) (h : s.advance.takeReq r = some g) : s.arrive r = g.admitted r := by
  simp [State.arrive, hu, h]

/-- A request has entered its District, or belongs to a job of R19 step 1. -/
def State.insideDistrict (s : State) (r : Req) : Bool :=
  (s.dist[distOf (s.decodeAddr r.addr.toNat).ch].accepted).contains (r.master, r.tag) ||
    s.jobRequest (distOf (s.decodeAddr r.addr.toNat).ch) r

theorem windowRequest_none (hb : g.inBoot = false) : g.windowRequest r = none := by
  simp [State.windowRequest, hb]

/-- What the gate refuses completes with its status; CHANNEL_OFFLINE carries the channel's epoch (R236). -/
theorem admitted_refused {st : CStatus} (hb : g.inBoot = false)
    (hg : g.gate r.master r.addr.toNat (g.reqAccess r) (g.insideDistrict r) = (v, some st)) :
    g.admitted r = v.complete { req := r, status := st, epoch := if st = .channelOffline
      then v.chs[(g.decodeAddr r.addr.toNat).ch].ctl.epoch else 0 } := by
  unfold State.insideDistrict at hg
  simp only [State.admitted, windowRequest_none hb, hg]

/-- What the gate lets pass is handled by its slice. -/
theorem admitted_passed (hb : g.inBoot = false)
    (hg : g.gate r.master r.addr.toNat (g.reqAccess r) (g.insideDistrict r) = (v, none)) : g.admitted r = v.atSlice r := by
  unfold State.insideDistrict at hg
  simp only [State.admitted, windowRequest_none hb, hg]

theorem requestsReachSlice : Part.RequestsReachTheirSlice := by
  refine fun i s r hi hu => ⟨fun h => ?_, fun g h hb => ?_⟩
  · rw [exec_memoryRequest hi, arrive_none hu h]
  rw [exec_memoryRequest hi, arrive_some hu h]
  refine ⟨fun hl => ?_, fun hl hp => ?_, fun hl hp => ⟨fun ha => ?_, fun ha => ⟨fun hd => ?_,
    fun hd hacc hjob => ?_, fun hd ho => ?_, fun hd ho h1 h2 h3 => ?_⟩⟩⟩
  · rw [admitted_refused hb (gate_unlocked hl)]
    rfl
  · rw [admitted_refused hb (gate_starting hl hp)]
    rfl
  · rw [admitted_refused hb (gate_beyond hl hp ha)]
    rfl
  · rw [admitted_refused hb (gate_off hl hp ha hd)]
    rfl
  · have hin : g.insideDistrict r = false := by
      simp only [State.insideDistrict, hacc, hjob, Bool.or_self]
    rw [admitted_refused hb (by rw [hin]; exact gate_stopping hl hp ha hd)]
    rfl
  · rw [admitted_refused hb (gate_offline hl hp ha hd ho)]
    rfl
  · rw [admitted_passed hb (gate_pass hl hp ha hd ho h1 h2 h3)]

/-! The page checks. -/

section PageChecks

variable {ch : Fin 64} {write : Bool} {e : W32}

theorem pageCheckWith_retired (hw : s.isWalkerScrubber m = false) (ha : inCmdArea (a / 131072) = false) (ht : s.inTree a = false)
    (hr : peRetired e = true) : s.pageCheckWith m ch a access write e = (s, some .retired) := by
  simp [State.pageCheckWith, hw, ha, ht, hr]

variable (hw : s.isWalkerScrubber m = false) (hc : s.isLocalCore m = false)
  (ha : inCmdArea (a / 131072) = false) (ht : s.inTree a = false)
include hw hc ha ht

variable (hr : peRetired e = false)
include hr

theorem pageCheckWith_ungranted
    (hg : ¬(peValid e = true ∧ s.groupGrants (peGroup e) m write = true ∧ (write = true → peRo e = false))) :
    s.pageCheckWith m ch a access write e = (s.countDenied ch, some .notPermitted) := by
  have hg' : (peValid e && s.groupGrants (peGroup e) m write && !(write && peRo e)) = false := by
    rw [← Bool.not_eq_true]
    simpa [and_assoc] using hg
  simp only [State.pageCheckWith, hw, hc, ha, ht, hr, hg']
  rfl

variable (hg : peValid e = true ∧ s.groupGrants (peGroup e) m write = true ∧ (write = true → peRo e = false))
include hg

/-- The entry grants the access: what is left are the key slot and the sticky list. -/
theorem pageCheckWith_granted : s.pageCheckWith m ch a access write e =
    if peEnc e && !(s.keySlot (peSlot e)).usable then ((s.countDenied ch).logKeyEmpty (peSlot e) access m, some .notPermitted)
    else if write && s.blocked (a / 131072) e then
      (s.modCry ch (fun c => { c with deniedSticky := satAdd c.deniedSticky 1 }), some .integrityFail)
    else (s, none) := by
  have hg' : (peValid e && s.groupGrants (peGroup e) m write && !(write && peRo e)) = true := by
    obtain ⟨hv, hgr, hro⟩ := hg
    cases write
    · simp [hv, hgr]
    · simp [hv, hgr, hro rfl]
  simp only [State.pageCheckWith, hw, hc, ha, ht, hr, hg']
  simp

end PageChecks

/-- A group grants an access where one of its patterns matches the master and allows it (R125). -/
theorem groupGrants_iff {n : Nat} {write : Bool} : s.groupGrants n m write = true ↔ ∃ i, i < 16 ∧
    (s.groupPat n i).getLsbD 63 = true ∧ (s.groupPat n i).getLsbD (if write then 61 else 62) = true ∧
    m &&& (s.groupPat n i).extractLsb' 20 20 = (s.groupPat n i).extractLsb' 0 20 &&& (s.groupPat n i).extractLsb' 20 20 := by
  simp only [State.groupGrants, patMatch, bit, List.any_eq_true, List.mem_range, Bool.and_eq_true, decide_eq_true_eq]
  constructor
  · rintro ⟨i, hi, ⟨hv, hm⟩, hg⟩
    exact ⟨i, hi, hv, hg, hm⟩
  · rintro ⟨i, hi, hv, hg, hm⟩
    exact ⟨i, hi, ⟨hv, hm⟩, hg⟩

theorem pageChecksInOrder : Part.PageChecksInOrder := by
  refine fun s m ch a access write e hw hc ha ht => ⟨pageCheckWith_retired hw ha ht, pageCheckWith_ungranted hw hc ha ht,
    fun hr hg henc hk => ?_, fun hr hg hk hwr hbl => ?_, fun hr hg hk hbl => ?_, groupGrants_iff⟩
  · rw [pageCheckWith_granted hw hc ha ht hr hg]
    simp only [henc, hk]
    rfl
  · rw [pageCheckWith_granted hw hc ha ht hr hg]
    have hk' : (peEnc e && !(s.keySlot (peSlot e)).usable) = false := by simpa using hk
    simp only [hk', hwr, hbl]
    rfl
  · rw [pageCheckWith_granted hw hc ha ht hr hg]
    have hk' : (peEnc e && !(s.keySlot (peSlot e)).usable) = false := by simpa using hk
    have hb' : (write && s.blocked (a / 131072) e) = false := by simpa using hbl
    simp only [hk', hb']
    rfl

/-- Settles O29, by the rows of the gate and of the page checks. -/
theorem requestsReachTheirSlice : Obligations.RequestsReachTheirSlice := ⟨requestsReachSlice, pageChecksInOrder⟩

end Sys2Proof.Machine
end

section
/-! PROOFS. The end of a warm reset (R18, R386, R387, R407, R443). -/

namespace Sys2Proof.Machine

variable {s : State}

/-! The drain of through-traffic. -/

theorem exec_throughTrafficDrained (hp : s.boot.phase = .warm 1) :
    exec .throughTrafficDrained s = .next (if s.throughEmpty then s.warmDrained else s) := by
  cases h : s.throughEmpty <;> simp [exec, execThroughTrafficDrained, hp, h]

theorem exec_drainTimeLimit (hp : s.boot.phase = .warm 1) : exec .drainTimeLimit s = .next s.warmDrained := by
  simp [exec, execDrainTimeLimit, hp]

theorem warmDrained_phase (s : State) : s.warmDrained.boot.phase = .warm 2 := rfl

/-! The end of the drain. -/

theorem toList_all {α : Type} {n : Nat} (v : Vector α n) (p : α → Bool) :
    v.toList.all p = true ↔ ∀ i : Fin n, p v[i] = true := by
  simp [Fin.forall_iff]

/-- The counter lines that are lost with the reset are reported (R142). -/
def State.reportLost (s : State) : State :=
  s.sec.dirty.foldl (fun s k => s.log evTreeFail (k * 64) acWriteBack (s.self agentWalker)) s

/-- Reports change the sources' state at the collector only (R432). -/
theorem reportLost_eq (s : State) : ∃ x, s.reportLost = { s with flt := { s.flt with srcs := x } } := by
  unfold State.reportLost
  generalize s.sec.dirty = ks
  induction ks generalizing s with
  | nil => exact ⟨s.flt.srcs, rfl⟩
  | cons k ks ih =>
    obtain ⟨x, hx, -⟩ := logAddr_cases s evTreeFail (s.fab.nodeId.toNat * 1099511627776 + k * 64 % 1099511627776) acWriteBack
      (s.self agentWalker) 0 false
    obtain ⟨y, hy⟩ := ih (s.log evTreeFail (k * 64) acWriteBack (s.self agentWalker))
    refine ⟨y, hy.trans ?_⟩
    rw [State.log, hx]

/-- Leaving reset changes the phase and its time only (R380). -/
theorem leaveReset_eq (s : State) : ∃ p t, s.leaveReset = { s with boot := { s.boot with phase := p, leftReset := t } } := by
  unfold State.leaveReset
  dsimp only
  split
  · exact ⟨_, _, rfl⟩
  · exact ⟨s.boot.phase, s.boot.leftReset, rfl⟩

theorem exec_warmDrainEnd_waits (hs : s.flt.stopped = false) (h : ∃ n : Fin 64, (s.chs[n]).parked = false) :
    exec .warmDrainEnd s = .next s := by
  have hp : s.chs.toList.all Channel.parked = false := by
    rw [← Bool.not_eq_true, toList_all]
    obtain ⟨n, hn⟩ := h
    exact fun hall => by simp [-Fin.getElem_fin, hall n] at hn
  simp [exec, execWarmDrainEnd, hs, hp]

/-- The machine as the drain's end leaves it, with the state `x` of the sources at the collector. -/
def State.warmEnd (s : State) (x : SMap FltSource) : State :=
  ({ s with flt := { s.flt with srcs := x } } : State).warmState (s.boot.warmReq.getD 4)

/-- The machine resets, with the reports of what is lost in its collector. -/
theorem exec_warmDrainEnd_resets (hp : s.boot.phase = .warm 2) (hc : ∀ n : Fin 64, (s.chs[n]).parked = true)
    (hh : ∀ h : Fin 8, (s.hosts[h]).pend = []) : ∃ x p t, exec .warmDrainEnd s =
      .next { s.warmEnd x with boot := { (s.warmEnd x).boot with phase := p, leftReset := t } } := by
  have hc' : s.chs.toList.all Channel.parked = true := (toList_all ..).mpr hc
  have hh' : s.hosts.toList.all (fun h => h.pend.isEmpty) = true := (toList_all ..).mpr fun h => by rw [hh h]; rfl
  obtain ⟨x, hx⟩ := reportLost_eq s
  obtain ⟨p, t, hl⟩ := leaveReset_eq (s.warmEnd x)
  have hexec : exec .warmDrainEnd s = .next ((s.reportLost).warmState ((s.reportLost).boot.warmReq.getD 4)).leaveReset := by
    simp only [exec, execWarmDrainEnd, hp, hc', hh']
    simp [State.reportLost]
  refine ⟨x, p, t, hexec.trans ?_⟩
  rw [← hl, hx, State.warmEnd]

theorem warmState_ch (s : State) (cause : Nat) (n : Fin 64) : (s.warmState cause).chs[n] = (s.chs[n]).warm n.val := by
  simp [State.warmState]

/-- Settles O53: the drain of through-traffic, then the drain's end. -/
theorem warmResetKeepsWhatR386Keeps : Obligations.WarmResetKeepsWhatR386Keeps := by
  refine ⟨fun s hp => ⟨fun h => ?_, fun h => ?_, exec_drainTimeLimit hp⟩, warmDrained_phase,
    fun s hp hs => ⟨exec_warmDrainEnd_waits hs, fun hc hh => ?_⟩⟩
  · rw [exec_throughTrafficDrained hp, h]
    rfl
  · rw [exec_throughTrafficDrained hp, h]
    rfl
  · obtain ⟨x, p, t, hexec⟩ := exec_warmDrainEnd_resets hp hc hh
    refine ⟨_, hexec, rfl, rfl, rfl, rfl, rfl, rfl, rfl, rfl, rfl, rfl, rfl, rfl, fun n => ?_, fun c => ?_,
      rfl, rfl, rfl, rfl, rfl, rfl, rfl, rfl, rfl, rfl, rfl, rfl, rfl, rfl, rfl, rfl, rfl, fun r => ?_⟩
    · simp only [State.warmEnd, warmState_ch]
      exact ⟨rfl, rfl, rfl, rfl⟩
    · simp [State.warmEnd, State.warmState]
    · simp [State.warmEnd, State.warmState]

end Sys2Proof.Machine
end

section
/-! PROOFS. The state after reset (R62, R91, R309, R407, R448, R463). -/

namespace Sys2Proof.Machine

/-- A window offset of a channel slice names its channel and its register (R464). -/
theorem familyOf_offChs (n : Fin 64) {o : Nat} (ho : o < 0x4000) : familyOf (offChs n o) = (.chs n, o) := by
  obtain ⟨n, hn⟩ := n
  have hdiv : (n * 0x4000 + o) / 0x4000 % 64 = n := by omega
  have hmod : (n * 0x4000 + o) % 0x4000 = o := by omega
  have hsub : offChs ⟨n, hn⟩ o - 0x100000 = n * 0x4000 + o := by simp only [offChs]; omega
  have hlo : 0x100000 ≤ offChs ⟨n, hn⟩ o := by simp only [offChs]; omega
  have hhi : offChs ⟨n, hn⟩ o < 0x200000 := by simp only [offChs]; omega
  generalize offChs ⟨n, hn⟩ o = x at *
  simp only [familyOf, hsub, hdiv, hmod]
  repeat rw [if_neg (by omega)]
  rw [if_pos hhi]

/-- TSV_STROBES_SINCE_TRAIN shows 31 bits (R62). -/
theorem regValue_strobesSinceTrain (s : State) (n : Fin 64) :
    s.regValue (offChs n 0x020) = at32 0 ((s.chs[n]).tsv.sinceTrain % 2 ^ 31) := by
  simp only [State.regValue, familyOf_offChs n (show 0x020 < 0x4000 by decide)]
  rfl

theorem reset_legal : Legal State.reset := ⟨reset_memory_wf, rfl, rfl, rfl, rfl, rfl⟩

theorem reset_chs (n : Fin 64) : State.reset.chs[n] = Channel.reset n.val := by
  simp [State.reset]

/-- Settles O4: the values named are computed, and TSV_STROBES_SINCE_TRAIN is read off every channel's reset. -/
theorem resetLeavesTheTablesValues : Obligations.ResetLeavesTheTablesValues := by
  refine ⟨reset_legal, by decide, fun n => ?_, rfl, rfl, rfl, rfl⟩
  have hn : n.val * 16777216 % 2 ^ 31 = n.val * 16777216 := Nat.mod_eq_of_lt (by omega)
  rw [regValue_strobesSinceTrain, reset_chs, Channel.reset, hn]
  rfl

end Sys2Proof.Machine
end

section
/-! PROOFS. Accesses within one command leave the fabric's registers alone (log entry 8): what a memory access does, operation by
operation. -/

namespace Sys2Proof.Machine

/-- A fold keeps what each of its steps keeps. -/
theorem foldl_keeps {α β γ : Type} (g : β → γ) {f : β → α → β} (h : ∀ b x, g (f b x) = g b) (l : List α) (b : β) :
    g (l.foldl f b) = g b := by
  induction l generalizing b with
  | nil => rfl
  | cons x xs ih => rw [List.foldl_cons, ih, h]

variable (s : State) (ch : Fin 64)

/-! Requests and completions. -/

@[simp] theorem State.started_fab : s.started.fab = s.fab := by
  unfold State.started
  split <;> rfl

@[simp] theorem State.bumpEpoch_fab : (s.bumpEpoch ch).fab = s.fab := rfl

@[simp] theorem State.complete_fab (c : Completion) : (s.complete c).fab = s.fab := by
  unfold State.complete
  split <;> rfl

@[simp] theorem State.completeAt_fab (r : Req) (st : CStatus) (d : List (BitVec 512)) (ls : BitVec 16) :
    (s.completeAt ch r st d ls).fab = s.fab := by
  simp [State.completeAt]

/-! The checks before the line (R64, R127). -/

@[simp] theorem State.block_fab (page : Nat) : (s.block page).fab = s.fab := by
  simp only [State.block]
  repeat' split
  all_goals rfl

@[simp] theorem State.logKeyEmpty_fab (slot access : Nat) (m : MasterId) : (s.logKeyEmpty slot access m).fab = s.fab := by
  simp only [State.logKeyEmpty]
  split <;> rfl

@[simp] theorem State.countDenied_fab : (s.countDenied ch).fab = s.fab := rfl

@[simp] theorem State.gate_fab (m : MasterId) (a access : Nat) (inside : Bool) : (s.gate m a access inside).1.fab = s.fab := by
  simp only [State.gate]
  repeat' split
  all_goals rfl

@[simp] theorem State.pageCheckWith_fab (m : MasterId) (a access : Nat) (write : Bool) (e : W32) (held : Bool) :
    (s.pageCheckWith m ch a access write e held).1.fab = s.fab := by
  simp only [State.pageCheckWith]
  repeat' split
  all_goals simp

/-! Offline channels and parity (R49, R53, R55). -/

@[simp] theorem State.failHeld_fab (st : CStatus) : (s.failHeld ch st).fab = s.fab := by
  simp only [State.failHeld]
  rw [foldl_keeps State.fab (by simp)]
  rfl

@[simp] theorem State.goOffline_fab (cause : Nat) : (s.goOffline ch cause).fab = s.fab := by
  simp only [State.goOffline]
  split
  · rfl
  · split <;> simp

@[simp] theorem State.clockFault_fab : (s.clockFault ch).fab = s.fab := by
  simp only [State.clockFault]
  split <;> simp

@[simp] theorem State.parityCheck_fab (layer : Nat) (write : Bool) (mis : BitVec 20) :
    (s.parityCheck ch layer write mis).fab = s.fab := by
  simp only [State.parityCheck]
  rw [apply_ite State.fab, State.clockFault_fab, ite_self]
  split
  · exact foldl_keeps State.fab (by simp) _ _
  · rfl

@[simp] theorem State.crossRead_fab (layer : Nat) (wrong : BitVec 10240) (par : BitVec 20) :
    (s.crossRead ch layer wrong par).1.fab = s.fab := by
  simp [State.crossRead, State.crossBits]

/-! A row read within a command (R44, R76, R95). -/

theorem State.activate_fab {t : State} {layer k w : Nat} (h : s.activate ch layer k w = some t) : t.fab = s.fab := by
  simp only [State.activate] at h
  split at h
  · cases h
    rfl
  · cases h

@[simp] theorem State.takeSlot_fab (row cls : Nat) : (s.takeSlot ch row cls).fab = s.fab := by
  unfold State.takeSlot
  split
  · rfl
  · split
    · rfl
    · rename_i h
      simp [State.noteSlot, s.activate_fab ch h]

@[simp] theorem State.issueRa_fab : (s.issueRa ch).1.fab = s.fab := rfl

@[simp] theorem State.retireReason_fab (page reason : Nat) : (s.retireReason page reason).fab = s.fab := by
  simp only [State.retireReason]
  split <;> split <;> rfl

@[simp] theorem State.noteCorrected_fab (key t e : Nat) (m : MasterId) (access : Nat) :
    (s.noteCorrected ch key t e m access).fab = s.fab := by
  simp only [State.noteCorrected, apply_ite State.fab, State.log_fab, State.modEcc_fab, ite_self]

@[simp] theorem State.receiveLine_fab (key : Nat) (wrong : SLine) (inj : Nat) (m : MasterId) (access : Nat) :
    (s.receiveLine ch key wrong inj m access).1.fab = s.fab := by
  simp only [State.receiveLine]
  split
  · rfl
  · split <;> simp [State.noteUncorrectable]

@[simp] theorem State.receiveRow_fab (row : Nat) (wrong : BitVec 10240) (n named : Nat) (m : MasterId) (access : Nat) :
    (s.receiveRow ch row wrong n named m access).1.fab = s.fab := by
  simp only [State.receiveRow]
  exact foldl_keeps (fun x : State × List (SLine × DecodeOut) => x.1.fab) (by simp) _ _

@[simp] theorem State.cacheRow_fab (row : Nat) (ls : List (SLine × DecodeOut)) (stream : Bool) :
    (s.cacheRow ch row ls stream).fab = s.fab := rfl

@[simp] theorem State.rowNow_fab (key : Nat) (m : MasterId) (access cls : Nat) (stream : Bool) :
    (s.rowNow ch key m access cls stream).1.fab = s.fab := by
  simp [State.rowNow]

@[simp] theorem State.countHit_fab (row : Nat) (cached : Bool) : (s.countHit ch row cached).fab = s.fab := rfl

@[simp] theorem State.lineNow_fab (key : Nat) (m : MasterId) (access cls : Nat) (stream : Bool) :
    (s.lineNow ch key m access cls stream).1.fab = s.fab := by
  simp only [State.lineNow]
  repeat' split
  all_goals simp

/-! Counter lines and tags (R140-R147). -/

@[simp] theorem State.walkFail_fab (k i : Nat) (st : CStatus) (kind : Nat) : (s.walkFail k i st kind).fab = s.fab := rfl

@[simp] theorem State.evictCtr_fab (keep : Nat) : (s.evictCtr keep).fab = s.fab := by
  simp only [State.evictCtr]
  repeat' split
  all_goals rfl

@[simp] theorem State.fetchCtr_fab (k i : Nat) : (s.fetchCtr k i).1.fab = s.fab := by
  simp only [State.fetchCtr]
  repeat' split
  all_goals simp [State.setCtr]

@[simp] theorem State.walkNow_fab (fuel k i : Nat) : (s.walkNow fuel k i).1.fab = s.fab := by
  induction fuel generalizing s with
  | zero => rfl
  | succ fuel ih =>
    simp only [State.walkNow]
    repeat' split
    all_goals simp [ih]

@[simp] theorem State.tagFail_fab (e : W32) (a key : Nat) (m : MasterId) (access : Nat) (pw : Bool) :
    (s.tagFail ch e a key m access pw).fab = s.fab := by
  simp only [State.tagFail]
  repeat' split
  all_goals simp

@[simp] theorem State.openLine_fab (m : MasterId) (access : Nat) (e : W32) (a : Nat) (ln : SLine × DecodeOut) (pw : Bool) :
    (s.openLine ch m access e a ln pw).1.fab = s.fab := by
  simp only [State.openLine]
  repeat' split
  all_goals simp

@[simp] theorem State.bumpCtr_fab (i x : Nat) : (s.bumpCtr i x).1.fab = s.fab := by
  simp only [State.bumpCtr]
  repeat' split
  all_goals rfl

@[simp] theorem State.writeCtr_fab (e : W32) (a key : Nat) : (s.writeCtr ch e a key).1.fab = s.fab := by
  simp only [State.writeCtr]
  repeat' split
  all_goals simp

@[simp] theorem State.storedForm_fab (m : MasterId) (access : Nat) (e : W32) (a key : Nat) (d : BitVec 512) (p : Bool) (cls : BitVec 4) :
    (s.storedForm ch m access e a key d p cls).1.fab = s.fab := by
  simp only [State.storedForm]
  repeat' split
  all_goals simp

@[simp] theorem State.countSealed_fab : (s.countSealed ch).fab = s.fab := rfl

@[simp] theorem State.enqueue_fab (w : WqLine) (r : Option Req) : (s.enqueue ch w r).1.fab = s.fab := by
  simp only [State.enqueue]
  split <;> rfl

/-! Requests at their slice (R71-R74, R141, R143). -/

@[simp] theorem State.pushWalk_fab (r : Req) (e : W32) (got : HeldLines) (bad : List (Nat × CStatus)) (idx : Nat) :
    (s.pushWalk ch r e got bad idx).fab = s.fab := by
  simp only [State.pushWalk]
  repeat' split
  all_goals simp

@[simp] theorem State.readOne_fab (r : Req) (e : W32) (got : HeldLines) (bad : List (Nat × CStatus)) (a : Nat) :
    (s.readOne ch r e got bad a).1.fab = s.fab := by
  simp only [State.readOne]
  split <;> simp

@[simp] theorem State.holdSource_fab (r : Req) : (s.holdSource ch r).fab = s.fab := by
  simp only [State.holdSource]
  split <;> rfl

@[simp] theorem State.serveLine_fab (r : Req) (e : W32) (got : HeldLines) (bad : List (Nat × CStatus)) :
    (s.serveLine ch r e got bad).fab = s.fab := by
  simp [State.serveLine]

@[simp] theorem State.serveRow_fab (r : Req) (e : W32) (got : HeldLines) (bad : List (Nat × CStatus)) :
    (s.serveRow ch r e got bad).fab = s.fab := by
  simp only [State.serveRow, State.holdSource_fab, State.complete_fab]
  exact foldl_keeps (fun x : State × List (CStatus × BitVec 512 × Bool) => x.1.fab) (by simp) _ _

@[simp] theorem State.storeFor_fab (r : Req) (e : W32) (a : Nat) (d : BitVec 512) (p : Bool) :
    (s.storeFor ch r e a d p).fab = s.fab := by
  simp only [State.storeFor]
  split <;> simp

@[simp] theorem State.servePartial_fab (r : Req) (e : W32) (got : HeldLines) (d : BitVec 512) (m : BitVec 64) :
    (s.servePartial ch r e got d m).fab = s.fab := by
  simp only [State.servePartial]
  repeat' split
  all_goals simp

@[simp] theorem State.serveWrite_fab (r : Req) (e : W32) (d : BitVec 512) (p : Bool) : (s.serveWrite ch r e d p).fab = s.fab := by
  simp only [State.serveWrite]
  split <;> simp

@[simp] theorem State.serveRowWrite_fab (r : Req) (e : W32) (d : List (BitVec 512)) (p : BitVec 16) :
    (s.serveRowWrite ch r e d p).fab = s.fab := by
  simp only [State.serveRowWrite]
  rw [apply_ite State.fab, State.completeAt_fab, State.modCtl_fab, ite_self]
  refine foldl_keeps (fun x : State × CStatus × Bool => x.1.fab) (fun acc i => ?_) _ _
  split <;> simp

@[simp] theorem State.serve_fab (r : Req) (e : W32) (got : HeldLines) (bad : List (Nat × CStatus)) :
    (s.serve ch r e got bad).fab = s.fab := by
  simp only [State.serve]
  repeat' split
  all_goals simp

@[simp] theorem State.pushRq_fab (r : Req) (e : W32) : (s.pushRq ch r e).fab = s.fab := rfl

/-- A write has entered its slice: the scrubber's rewrites of its lines are dropped (R104). -/
def State.noteWrites (s : State) (r : Req) : State :=
  if isWrite r.kind then (s.reqKeys r).foldl (fun u k => u.modCh (s.decodeAddr r.addr.toNat).ch (fun c => c.noteWrite k)) s else s

@[simp] theorem State.noteWrites_fab (r : Req) : (s.noteWrites r).fab = s.fab := by
  unfold State.noteWrites
  split
  · exact foldl_keeps State.fab (by simp) _ _
  · rfl

@[simp] theorem State.atSlice_fab (r : Req) : (s.atSlice r).fab = s.fab := by
  rw [← s.noteWrites_fab r]
  simp only [State.atSlice, ← State.noteWrites.eq_def s r]
  repeat' split
  all_goals simp

@[simp] theorem State.drainWaiting_fab : (s.drainWaiting ch).fab = s.fab := by
  simp only [State.drainWaiting]
  exact foldl_keeps State.fab (by simp) _ _

@[simp] theorem State.endWalk_fab (w : Walk) (st : CStatus) : (s.endWalk w st).fab = s.fab := by
  simp only [State.endWalk]
  rw [foldl_keeps State.fab (by simp)]
  refine (foldl_keeps State.fab (fun u x => ?_) _ _).trans rfl
  repeat' split
  all_goals simp

/-! Accesses within one command (log entry 8). -/

@[simp] theorem State.ensureCtr_fab (e : W32) (a : Nat) : (s.ensureCtr ch e a).1.fab = s.fab := by
  simp only [State.ensureCtr]
  repeat' split
  all_goals simp

@[simp] theorem State.admitWith_fab (m : MasterId) (a access : Nat) (write : Bool) (e : W32) (inside : Bool) :
    (s.admitWith m a access write e inside).1.fab = s.fab := by
  have hg := s.started.gate_fab m a access inside
  simp only [State.admitWith]
  split
  · simp_all
  · rename_i u hu
    have hc := u.pageCheckWith_fab (u.decodeAddr a).ch m a access write e false
    split <;> simp_all

@[simp] theorem State.openNow_fab (m : MasterId) (a access : Nat) (e : W32) (ln : SLine × DecodeOut) (pw : Bool) :
    (s.openNow m a access e ln pw).1.fab = s.fab := by
  have hc := s.ensureCtr_fab (s.decodeAddr a).ch e a
  simp only [State.openNow]
  repeat' split
  all_goals simp_all

@[simp] theorem State.storeFullNow_fab (m : MasterId) (a access : Nat) (cls : BitVec 4) (d : BitVec 512) (p : Bool) :
    (s.storeFullNow m a access cls d p).1.fab = s.fab := by
  simp only [State.storeFullNow]
  split <;> simp

@[simp] theorem State.storePartNow_fab (m : MasterId) (a access : Nat) (cls : BitVec 4) (d : BitVec 512) (mask : BitVec 64) :
    (s.storePartNow m a access cls d mask).1.fab = s.fab := by
  generalize hr : s.lineNow (s.decodeAddr a).ch (s.decodeAddr a).key m access cls.toNat false = r
  have hl : r.1.fab = s.fab := by simp [← hr]
  have ho := r.1.openNow_fab m a access (s.pageEntry (a / 131072)) r.2 true
  simp only [State.storePartNow, hr]
  repeat' split
  all_goals simp_all

@[simp] theorem State.writeNow_fab (m : MasterId) (a access : Nat) (cls : BitVec 4) (d : BitVec 512) (mask : BitVec 64) (p inside : Bool) :
    (s.writeNow m a access cls d mask p inside).1.fab = s.fab := by
  have ha := s.admitWith_fab m (a / 64 * 64) access true (s.pageEntry (a / 64 * 64 / 131072)) inside
  simp only [State.writeNow]
  split
  · rename_i u hu
    have hc := u.ensureCtr_fab (u.decodeAddr (a / 64 * 64)).ch (s.pageEntry (a / 64 * 64 / 131072)) (a / 64 * 64)
    repeat' split
    all_goals simp_all [State.parkWrite]
  · simp_all

@[simp] theorem State.writeBytesNow_fab (m : MasterId) (a access : Nat) (cls : BitVec 4) (bs : List Byte) (inside : Bool) :
    (s.writeBytesNow m a access cls bs inside).1.fab = s.fab := by
  simp only [State.writeBytesNow]
  exact foldl_keeps (fun x : State × CStatus => x.1.fab) (by simp) _ _

end Sys2Proof.Machine
end

section
/-! PROOFS. Interrupts and completions (R58, R187, R188, R356, R357, R359). -/

namespace Sys2Proof.Machine

/-! Interrupts (R359). -/

variable {s : State}

/-- Nothing bars vector `v` of host port `h`: link, enable and masks (R359). -/
def State.msixFree (s : State) (h : Fin 8) (v : BitVec 8) : Prop :=
  (s.hosts[h]).linkUp = true ∧ (s.hosts[h]).msixEn = true ∧ (s.hosts[h]).msixMask = false ∧
    (smGetD (s.hosts[h]).msix v.toNat {}).masked = false

section Msix

variable {h : Fin 8} {v : BitVec 8}

theorem msixFree_iff : s.msixFree h v ↔ ((s.hosts[h]).linkUp && (s.hosts[h]).msixEn && !(s.hosts[h]).msixMask &&
    !(smGetD (s.hosts[h]).msix v.toNat {}).masked) = true := by
  simp [-Fin.getElem_fin, State.msixFree, and_assoc]

theorem msix_of_free (hf : s.msixFree h v) : s.msix h v =
    s.emit (.msix h v (smGetD (s.hosts[h]).msix v.toNat {}).addr (smGetD (s.hosts[h]).msix v.toNat {}).data) :=
  if_pos (msixFree_iff.mp hf)

theorem msix_of_not_free (hf : ¬s.msixFree h v) :
    s.msix h v = s.modHost h (fun p => { p with pba := setBit p.pba v.toNat true }) :=
  if_neg (mt msixFree_iff.mpr hf)

theorem exec_msixPendingRelease_sends (hf : s.msixFree h v) (hb : (s.hosts[h]).pba.getLsbD v.toNat = true) :
    exec (.msixPendingRelease h v) s =
      .next ((s.modHost h (fun p => { p with pba := setBit p.pba v.toNat false })).emit
        (.msix h v (smGetD (s.hosts[h]).msix v.toNat {}).addr (smGetD (s.hosts[h]).msix v.toNat {}).data)) := by
  obtain ⟨hl, he, hm, hk⟩ := hf
  simp only [exec, execMsixPendingRelease, bit, hb, hl, he, hm, hk]
  rfl

theorem exec_msixPendingRelease_waits (hw : ¬s.msixFree h v ∨ (s.hosts[h]).pba.getLsbD v.toNat = false) :
    exec (.msixPendingRelease h v) s = .next s := by
  have hc : (bit (s.hosts[h]).pba v.toNat && (s.hosts[h]).linkUp && (s.hosts[h]).msixEn && !(s.hosts[h]).msixMask &&
      !(smGetD (s.hosts[h]).msix v.toNat {}).masked) = false := by
    obtain hw | hw := hw
    · rw [msixFree_iff, Bool.not_eq_true] at hw
      simp only [Bool.and_assoc] at hw ⊢
      rw [hw, Bool.and_false]
    · simp only [bit, hw, Bool.false_and]
  simp only [exec, execMsixPendingRelease, hc]
  rfl

end Msix

theorem interruptsPendOrGo : Part.PendingInterrupts := fun _ _ _ =>
  ⟨msix_of_free, msix_of_not_free, exec_msixPendingRelease_sends, exec_msixPendingRelease_waits⟩

/-! Completions of work queues (R356, R357). -/

/-- An OWNER field names a master by this node's ID (R335). -/
theorem ownerId_congr {t : State} (h : t.fab = s.fab) (o : MasterId) : t.ownerId o = s.ownerId o := by
  simp only [State.ownerId, h]

section WriteCmpl

variable {u : State} {q : Nat} {x : Queue} {r : CmplRec} {st : CStatus}
  (hx : s.wq q = some x)
  (hw : s.writeBytesNow (s.ownerId x.owner) (x.cmplBase.toNat + 32 * (x.done.toNat % 2 ^ x.log2)) acPartial x.cls
    (r.bytes (x.done.toNat / 2 ^ x.log2 % 2 == 0)) = (u, st))
  (hu : u.wq q = some x)
include hx hw hu

/-- The slot takes the record, and DONE rises. -/
theorem writeCmpl_ok (irq : Bool) (hst : st = .ok) : s.writeCmpl q r irq =
    if irq && x.vector ≠ 0 then
      ({ u with cmd := { u.cmd with queues := smPut u.cmd.queues q { x with done := x.done + 1 } } }).msix x.hostPort x.vector
    else { u with cmd := { u.cmd with queues := smPut u.cmd.queues q { x with done := x.done + 1 } } } := by
  subst hst
  simp only [State.writeCmpl, hx, Queue.cmplSlot, hw, State.modWq, hu]
  rfl

/-- A refused write puts an ACTIVE queue in ERROR and is logged. -/
theorem writeCmpl_refused (irq : Bool) (hst : st ≠ .ok) (ha : x.st = .active) : s.writeCmpl q r irq =
    ({ u with cmd := { u.cmd with queues := smPut u.cmd.queues q { x with done := x.done + 1, st := .error } } }).log
      evWqCmplFail (detail 0 q) acPartial (s.ownerId x.owner) st.code := by
  have ho : ∀ c : Cmd, State.ownerId { u with cmd := c } x.owner = s.ownerId x.owner := fun c => ownerId_congr (by
    rw [← s.writeBytesNow_fab (s.ownerId x.owner) (x.cmplBase.toNat + 32 * (x.done.toNat % 2 ^ x.log2)) acPartial x.cls
      (r.bytes (x.done.toNat / 2 ^ x.log2 % 2 == 0)) false, hw]) x.owner
  simp only [State.writeCmpl, hx, Queue.cmplSlot, hw, State.modWq, hu, hst, ha, decide_false, decide_true, Bool.not_false,
    Bool.and_self, if_true, Bool.false_eq_true, if_false, ho]

end WriteCmpl

/-! Completions of jobs (R58, R187, R188). -/

theorem jobOf_dropJob (s : State) (n : Nat) : (s.dropJob n).jobOf n = none := by
  simp [State.jobOf, State.dropJob]

section JobCompletion

variable {n q : Nat} {j : Job} (hj : s.jobOf n = some j) (hq : j.queue = some q)
include hj hq

theorem exec_jobCompletionWrite_waits (hw : j.ended = false ∨ s.cmplHeld q = true) :
    exec (.jobCompletionWrite n) s = .next s := by
  obtain hw | hw := hw <;> simp [exec, execJobCompletionWrite, hj, hq, hw]

theorem exec_jobCompletionWrite_writes (hd : s.dieUp = true) (he : j.ended = true) (hh : s.cmplHeld q = false) {r : CmplRec}
    (hr : r = jobRecord j (s.engs.eng[lowEngine j.set]).gen) {u : State} (hu : u = (s.dropJob n).writeCmpl q r (dIrq j.desc) (some j)) :
    exec (.jobCompletionWrite n) s =
      .next (if r.data = CStatus.internal.code then u.log (evEngInternal r.engine) (detail r.engine r.tag.toNat) else u) := by
  subst hu hr
  simp only [exec, execJobCompletionWrite, hj, hq, he, hd, hh]
  rfl

end JobCompletion

theorem completionsAreWritten : Part.CompletionsAreWritten := by
  refine ⟨fun s n q j hj hq hd => ⟨exec_jobCompletionWrite_waits hj hq, fun he hh => ?_⟩, fun s q x r irq u st hx hw hu => ?_⟩
  · have hexec := exec_jobCompletionWrite_writes hj hq hd he hh rfl rfl
    exact ⟨fun hi => by rw [hexec, if_neg hi], fun hi => by rw [hexec, if_pos hi], jobOf_dropJob s n⟩
  · refine ⟨fun hst hirq => ?_, fun hst hirq hv => ?_, writeCmpl_refused hx hw hu irq⟩
    · rw [writeCmpl_ok hx hw hu irq hst, hirq]
      rfl
    · rw [writeCmpl_ok hx hw hu irq hst, hirq, if_pos (by simpa using hv)]

/-- Settles O19: pending interrupts, then the completions of queues and jobs. -/
theorem completionsAndInterruptsAreDelivered : Obligations.CompletionsAndInterruptsAreDelivered :=
  ⟨interruptsPendOrGo, completionsAreWritten⟩

end Sys2Proof.Machine
end

section
/-! PROOFS. The commands on channels: SCRUB_CONFIG, REMAP_MODE_SET, TSV_REPAIR_STATUS and RETRAIN (R56, R102, R108, R114, R349, R360). -/

namespace Sys2Proof.Machine

variable {s t : State} {c : CmdCtx}

/-! The named channels whose District is ON. -/

/-- Update the ECC unit of every named channel whose District is ON. -/
def State.modEccOn (s : State) (m : W64) (f : Ecc → Ecc) : State :=
  ((maskList m).filter (fun n => s.distOn (distOf n))).foldl (fun s n => s.modEcc n f) s

theorem modEccOn_chs (s : State) (m : W64) (f : Ecc → Ecc) : s.modEccOn m f =
    { s with
      chs := ((maskList m).filter (fun n => s.distOn (distOf n))).foldl (fun v n => vmod v n (fun c => { c with ecc := f c.ecc })) s.chs } :=
  List.foldl_hom (fun v => ({ s with chs := v } : State)) (init := s.chs) fun _ _ => rfl

theorem modEccOn_frame (s : State) (m : W64) (f : Ecc → Ecc) : s.modEccOn m f = { s with chs := (s.modEccOn m f).chs } := by
  rw [modEccOn_chs]

theorem modEccOn_ch (s : State) (m : W64) (f : Ecc → Ecc) (n : Fin 64) : (s.modEccOn m f).chs[n] =
    if m.getLsbD n.val ∧ s.distOn (distOf n) then { s.chs[n] with ecc := f (s.chs[n]).ecc } else s.chs[n] := by
  rw [modEccOn_chs]
  dsimp only
  rw [foldl_vmod _ ((nodup_maskList m).filter _)]
  simp only [List.mem_filter, mem_maskList]

/-! SCRUB_CONFIG (R102, R349, R360). -/

section ScrubConfig

variable {m : W64} {flags rows fix : BitVec 8} {ce : BitVec 16}

theorem res64_toNat (x : BitVec 16) : res64 x.toNat = x.setWidth 64 := BitVec.ofNat_toNat 64 x

/-- ECC_CFG with the rows, fixes and log interval of SCRUB_CONFIG. -/
def Ecc.scrubCfg (e : Ecc) (rows fix : BitVec 8) (ce : BitVec 16) : Ecc :=
  { e with cfg := (e.cfg &&& 0xF00F0000#32) ||| at32 24 rows.toNat ||| at32 20 fix.toNat ||| at32 0 ce.toNat }

theorem scrubConfig_bad (hb : flags.getLsbD 2 = true) (h : 8 < rows.toNat ∨ 4 < fix.toNat) :
    cmdScrubConfig m flags rows fix ce t = t.refuse .badParam := by
  unfold cmdScrubConfig
  refine checked_fail (if_pos ?_)
  simp [bit, hb, h]

variable (hm : m ≠ 0)
include hm

theorem scrubConfig_sets (hr : rows.toNat ≤ 8) (hf : fix.toNat ≤ 4) : cmdScrubConfig m 4 rows fix ce t =
    (t.modEccOn m (fun e => e.scrubCfg rows fix ce), .done .ok (t.scrub.gen.setWidth 64)) := by
  have hs : (t.modEccOn m (fun e => e.scrubCfg rows fix ce)).scrub = t.scrub := by rw [modEccOn_chs]
  unfold cmdScrubConfig
  refine (checked_pass ?_).trans ?_
  · simpa [firstFail, hr, hf] using hm
  · rw [← hs, ← res64_toNat]
    rfl

theorem scrubConfig_reads : cmdScrubConfig m 0 rows fix ce t = (t, .done .ok (t.scrub.gen.setWidth 64)) := by
  unfold cmdScrubConfig
  refine (checked_pass ?_).trans ?_
  · simpa [firstFail, bit] using hm
  · rw [← res64_toNat]
    rfl

theorem scrubConfig_stops (hon : t.scrub.fn.st = .on) : cmdScrubConfig m 2 rows fix ce t =
    ({ t with scrub := { t.scrub with fn := ⟨.stopping, none⟩ } }, .done .ok (t.scrub.gen.setWidth 64)) := by
  unfold cmdScrubConfig
  refine (checked_pass ?_).trans ?_
  · simpa [firstFail, bit] using hm
  · simp [bit, fnAsk_disable_on hon, fnBegins, res64_toNat]

theorem scrubConfig_starts (hoff : t.scrub.fn.st = .off) : cmdScrubConfig m 3 rows fix ce t =
    (({ t with scrub := { t.scrub with fn := { st := .starting } } } : State).startScrub, .done .ok (t.scrub.gen.setWidth 64)) := by
  unfold cmdScrubConfig
  refine (checked_pass ?_).trans ?_
  · simpa [firstFail, bit] using hm
  · simp [bit, fnAsk_enable_off hoff, fnBegins, hoff, res64_toNat, State.startScrub]

end ScrubConfig

/-! REMAP_MODE_SET (R108, R114, R349). -/

section RemapModeSet

variable {m : W64} {mode ce act sets : BitVec 8}

/-- ECC_REMAP_CFG with the mode and limit of REMAP_MODE_SET. -/
def Ecc.withRemapMode (e : Ecc) (mode ce : BitVec 8) : Ecc :=
  { e with remapCfg := (e.remapCfg &&& 0x07FFFFFF#32) ||| at32 30 mode.toNat ||| at32 27 ce.toNat }

/-- What REMAP_MODE_SET leaves. -/
def State.remapSet (s : State) (m : W64) (mode ce act sets : BitVec 8) : State :=
  let u := if sets.getLsbD 0 then s.modEccOn m (fun e => e.withRemapMode mode ce) else s
  if sets.getLsbD 1 then { u with retire := { u.retire with action := act.toNat } } else u

theorem remapModeSet_bad (h : sets = 0 ∨ 4 ≤ sets.toNat ∨ sets.getLsbD 0 = true ∧ (2 < mode.toNat ∨ ce = 0 ∨ 4 < ce.toNat) ∨
    sets.getLsbD 1 = true ∧ 2 < act.toNat) : cmdRemapModeSet m mode ce act sets t = t.refuse .badParam := by
  unfold cmdRemapModeSet
  refine checked_fail (if_pos ?_)
  simp only [bit, Bool.or_eq_true, Bool.and_eq_true, decide_eq_true_eq, or_assoc]
  exact Or.inr h

theorem remapModeSet_sets (hm : m ≠ 0) (h0 : sets ≠ 0) (h4 : sets.toNat < 4)
    (hmode : sets.getLsbD 0 = true → mode.toNat ≤ 2 ∧ 1 ≤ ce.toNat ∧ ce.toNat ≤ 4) (hact : sets.getLsbD 1 = true → act.toNat ≤ 2) :
    cmdRemapModeSet m mode ce act sets t = (t.remapSet m mode ce act sets, .done .ok 0) := by
  unfold cmdRemapModeSet
  refine (checked_pass ?_).trans rfl
  have hmode' : (bit sets 0 && (decide (2 < mode.toNat) || ce = 0 || decide (4 < ce.toNat))) = false := by
    rw [Bool.and_eq_false_imp]
    intro hs
    obtain ⟨h1, h2, h3⟩ := hmode hs
    have hce : ce ≠ 0 := fun e => by simp [e] at h2
    simpa [Nat.not_lt.mpr h1, Nat.not_lt.mpr h3] using hce
  have hact' : (bit sets 1 && decide (2 < act.toNat)) = false := by
    rw [Bool.and_eq_false_imp]
    exact fun hs => decide_eq_false (Nat.not_lt.mpr (hact hs))
  simp only [firstFail, hmode', hact', hm, h0, Nat.not_le.mpr h4]
  rfl

theorem remapSet_frame (s : State) (m : W64) (mode ce act sets : BitVec 8) : s.remapSet m mode ce act sets =
    { s with chs := (s.remapSet m mode ce act sets).chs,
             retire := { s.retire with action := if sets.getLsbD 1 then act.toNat else s.retire.action } } := by
  simp only [State.remapSet, modEccOn_chs]
  split <;> split <;> rfl

theorem remapSet_ch (s : State) (m : W64) (mode ce act sets : BitVec 8) (n : Fin 64) : (s.remapSet m mode ce act sets).chs[n] =
    if sets.getLsbD 0 ∧ m.getLsbD n.val ∧ s.distOn (distOf n) then { s.chs[n] with ecc := (s.chs[n]).ecc.withRemapMode mode ce }
    else s.chs[n] := by
  have hchs : (s.remapSet m mode ce act sets).chs =
      (if sets.getLsbD 0 then s.modEccOn m (fun e => e.withRemapMode mode ce) else s).chs := by
    simp only [State.remapSet]
    split <;> rfl
  rw [hchs]
  by_cases h0 : sets.getLsbD 0 = true
  · simp only [h0, if_true, modEccOn_ch, true_and]
  · simp only [h0, false_and, if_false, Bool.false_eq_true]

end RemapModeSet

theorem scrubAndRemapSettings : Part.ScrubAndRemapSettings := by
  refine fun s t c m hm => ⟨fun h rows fix ce => ⟨fun flags hb hbad => h.replies (scrubConfig_bad hb hbad), fun hr hf => ?_,
    h.replies (scrubConfig_reads hm), fun hon => h.replies (scrubConfig_stops hm hon), fun hoff => ?_⟩,
    fun h mode ce act sets => ⟨fun hbad => h.replies (remapModeSet_bad hbad), fun h0 h4 hmode hact => ?_⟩⟩
  · exact ⟨_, h.replies (scrubConfig_sets hm hr hf), modEccOn_frame .., modEccOn_ch t m _⟩
  · refine ⟨_, h.replies (scrubConfig_starts hm hoff), rfl, rfl, fun n => ?_⟩
    simp [State.startScrub]
  · exact ⟨_, h.replies (remapModeSet_sets hm h0 h4 hmode hact), remapSet_frame .., remapSet_ch t m mode ce act sets⟩

/-! TSV_REPAIR_STATUS and RETRAIN (R56, R349). -/

section Channel

variable {n : Fin 64}

theorem channel_inRange (n : Fin 64) : decide (64 ≤ (BitVec.ofNat 8 n.val).toNat) = false := by
  rw [toNat_ofNat8 n (by decide)]
  exact decide_eq_false (Nat.not_le.mpr n.isLt)

theorem tsvRepairStatus_down (hd : t.distOn (distOf n) = false) :
    cmdTsvRepairStatus (BitVec.ofNat 8 n.val) t = t.refuse .domainDown := by
  unfold cmdTsvRepairStatus
  refine checked_fail ?_
  simp only [toNat_ofNat8 n (show 64 ≤ 256 by decide), fin_mk_mod, firstFail, hd, Nat.not_le.mpr n.isLt]
  rfl

theorem tsvRepairStatus_reports (hd : t.distOn (distOf n) = true) : cmdTsvRepairStatus (BitVec.ofNat 8 n.val) t =
    (t, .done .ok (at64 0 ((t.chs[n]).sparesFree 0 160) ||| at64 8 ((t.chs[n]).sparesFree 160 2) ||| at64 10 ((t.chs[n]).sparesFree 162 2) |||
          at64 12 t.chs[n].tsv.erasedCount ||| at64 18 (t.chs[n]).tsvState ||| at64 20 (b2n t.chs[n].tsv.clkSpare) |||
          at64 21 (countIf t.chs[n].tsv.spares (fun kv => kv.2.used && !kv.2.inService)) |||
          at64 29 (countIf t.chs[n].tsv.spares (fun kv => kv.2.used && kv.2.inService)))) := by
  unfold cmdTsvRepairStatus
  simp only [toNat_ofNat8 n (show 64 ≤ 256 by decide), fin_mk_mod]
  refine checked_pass ?_
  simp only [firstFail, hd, Nat.not_le.mpr n.isLt]
  rfl

variable {kind : BitVec 8}

/-- The checks of RETRAIN, in their order. -/
def State.retrainChecks (s : State) (n : Fin 64) (kind : BitVec 8) : List (Bool × CmdStatus) :=
  [(decide (1 < kind.toNat), .badParam), ((s.chs[n]).tsv.offline, .notPermitted), (!s.distOn (distOf n), .domainDown)]

theorem cmdRetrain_eq (t : State) (n : Fin 64) (kind : BitVec 8) : cmdRetrain (BitVec.ofNat 8 n.val) kind t =
    checked (t.retrainChecks n kind) (fun s =>
      (s.modTsv n (fun x => x.askRetrain (if kind = 0 then .incremental else .full)), .wait (.retrain n false))) t := by
  simp only [cmdRetrain, toNat_ofNat8 n (show 64 ≤ 256 by decide), fin_mk_mod, Nat.not_le.mpr n.isLt, decide_false, Bool.false_or]
  rfl

end Channel

/-- An online channel asks for the retrain; one that is due in full stays full (R56). -/
theorem askRetrain_online {x : Tsv} (h : x.offline = false) (k : RetrainKind) :
    x.askRetrain k = { x with retrainDue := some (if k = .full ∨ x.retrainDue = some .full then .full else .incremental) } := by
  simp only [Tsv.askRetrain, h, Bool.false_eq_true, if_false]
  cases x.retrainDue with
  | none => cases k <;> rfl
  | some r => cases r <;> cases k <;> rfl

theorem channelCommands : Part.ChannelCommands := by
  refine fun s t c n => ⟨fun h => ⟨fun hd => h.replies (tsvRepairStatus_down hd), fun hd => h.replies (tsvRepairStatus_reports hd)⟩,
    fun h kind => ⟨fun hk => h.refuses (cmdRetrain_eq t n kind) ?_, fun hk => ⟨fun ho => h.refuses (cmdRetrain_eq t n kind) ?_,
      fun ho => ⟨fun hd => h.refuses (cmdRetrain_eq t n kind) ?_, fun hd => ?_⟩⟩⟩⟩
  · simp [State.retrainChecks, firstFail, hk]
  · simp [-Fin.getElem_fin, State.retrainChecks, firstFail, hk, ho]
  · simp [-Fin.getElem_fin, State.retrainChecks, firstFail, hk, ho, hd]
  · have hf : firstFail (t.retrainChecks n kind) = none := by
      simp [-Fin.getElem_fin, State.retrainChecks, firstFail, hk, ho, hd]
    refine ⟨_, h.defers ((cmdRetrain_eq t n kind).trans (checked_pass hf)), ?_⟩
    have hkind : (if kind = 0 then RetrainKind.incremental else .full) = .full ↔ kind = 1 := by
      obtain rfl | rfl : kind = 0 ∨ kind = 1 := by bv_omega
      · decide
      · decide
    simp only [State.modTsv, State.modCh]
    rw [vmod_congr]
    simp only [askRetrain_online ho, hkind]

/-- Settles O22: the settings of named channels, then the commands on one channel. -/
theorem channelCommandsAct : Obligations.ChannelCommandsAct := ⟨scrubAndRemapSettings, channelCommands⟩

end Sys2Proof.Machine
end

section
/-! PROOFS. The integrity tree walker (R58, R141-R143, R154). -/

namespace Sys2Proof.Machine

variable {s : State}

/-! COUNTER_WALK_FETCH with no walk: it fetches ahead (R154). -/

theorem exec_counterWalkFetch_idle (hw : s.sec.walks = []) (ha : s.sec.ahead = []) : exec .counterWalkFetch s = .next s := by
  simp only [exec, execCounterWalkFetch, hw, ha]

section Ahead

variable {i : Nat} {rest : List Nat} (hw : s.sec.walks = []) (ha : s.sec.ahead = i :: rest)
include hw ha

theorem exec_counterWalkFetch_here (hm : s.highestMissing 8 1 i = none) :
    exec .counterWalkFetch s = .next { s with sec := { s.sec with ahead := rest } } := by
  simp only [exec, execCounterWalkFetch, hw, ha, hm]

variable {k x : Nat} (hm : s.highestMissing 8 1 i = some (k, x))
include hm

theorem exec_counterWalkFetch_aheadHeld (hh : s.heldAt (s.ctrAt k x) = true) : exec .counterWalkFetch s = .next s := by
  simp only [exec, execCounterWalkFetch, hw, ha, hm, hh, if_true]

/-- A line that cannot be obtained is left, and the level-1 line is the last. -/
theorem exec_counterWalkFetch_ahead (hh : s.heldAt (s.ctrAt k x) = false) {u : State} {st : CStatus} (hf : s.fetchCtr k x = (u, st)) :
    exec .counterWalkFetch s =
      .next (if st ≠ .ok || k = 1 then { u with sec := { u.sec with ahead := rest } } else u) := by
  simp only [exec, execCounterWalkFetch, hw, ha, hm, hh, hf]
  rfl

end Ahead

/-! COUNTER_WALK_FETCH for the oldest walk (R141, R143). -/

section Walking

variable {w : Walk} {rest : List Walk} (hw : s.sec.walks = w :: rest)
include hw

theorem exec_counterWalkFetch_ends (hm : s.highestMissing 8 1 w.idx = none) :
    exec .counterWalkFetch s = .next (s.endWalk w .ok) := by
  simp only [exec, execCounterWalkFetch, hw, hm]

variable {k i : Nat} (hm : s.highestMissing 8 1 w.idx = some (k, i))
include hm

theorem exec_counterWalkFetch_held (hh : s.heldAt (s.ctrAt k i) = true) : exec .counterWalkFetch s = .next s := by
  simp only [exec, execCounterWalkFetch, hw, hm, hh, if_true]

theorem exec_counterWalkFetch_fetches (hh : s.heldAt (s.ctrAt k i) = false) {u : State} {st : CStatus} (hf : s.fetchCtr k i = (u, st)) :
    exec .counterWalkFetch s =
      if st ≠ .ok then .next (u.failWalks k i st) else if k = 1 then .next (u.endWalk w .ok) else .next u := by
  simp only [exec, execCounterWalkFetch, hw, hm, hh, hf]
  rfl

end Walking

/-! COUNTER_WRITE_BACK (R142). -/

theorem exec_counterWriteBack_below (hd : s.sec.dirty.length ≤ s.sec.ctrCfg.toNat) (hc : s.sec.cache.length ≤ 262144) :
    exec .counterWriteBack s = .next s := by
  simp [exec, execCounterWriteBack, Nat.not_lt.mpr hd, Nat.not_lt.mpr hc]

theorem exec_counterWriteBack_above (h : s.sec.ctrCfg.toNat < s.sec.dirty.length ∨ 262144 < s.sec.cache.length) :
    exec .counterWriteBack s = .next ((s.sec.dirty.find? s.canWriteBack).elim s (fun k => (s.writeBack k).evictCtr k)) := by
  have h' : (decide (s.sec.ctrCfg.toNat < s.sec.dirty.length) || decide (262144 < s.sec.cache.length)) = true := by simpa using h
  simp only [exec, execCounterWriteBack, h', if_true]
  cases s.sec.dirty.find? s.canWriteBack <;> rfl

theorem enqueue_sec (s : State) (ch : Fin 64) (w : WqLine) (r : Option Req) : (s.enqueue ch w r).1.sec = s.sec := by
  simp only [State.enqueue]
  split <;> rfl

theorem bumpParent_root (s : State) (i : Nat) :
    smGetD (s.bumpParent s.levels i).1.sec.roots i 0 = smGetD s.sec.roots i 0 + 1 := by
  simp [State.bumpParent]

section WriteBack

variable {key k i : Nat} {c : CtrLine} (hk : ctrOfAddr s.glb.variant s.sec.capCode (key * 64) = some (k, i))
  (hc : smGet? s.sec.cache key = some c) (hseal : c.sealHeld = false)
  (hoff : (s.chs[(s.decodeAddr (key * 64)).ch]).tsv.offline = false)
  (hpow : s.distPowered (distOf (s.decodeAddr (key * 64)).ch) = true)
include hk hc hseal hoff hpow

/-- The parent counter rises, and the line is cached clean and is dirty no more. -/
theorem writeBack_sec : ∃ cache, (s.writeBack key).sec =
    { (s.bumpParent k i).1.sec with cache := cache, dirty := (s.bumpParent k i).1.sec.dirty.erase key } := by
  simp only [State.writeBack, hk, hc, hseal, hoff, hpow, Bool.false_eq_true, if_false, Bool.not_true, Bool.or_self, State.setCtr,
    enqueue_sec]
  exact ⟨_, rfl⟩

end WriteBack

/-- Settles O37: the walker without a walk, with one, and its write-backs. -/
theorem walkerFetchesAndWritesBack : Obligations.WalkerFetchesAndWritesBack := by
  refine ⟨fun s => exec_counterWalkFetch_idle, fun s i rest hw ha => ⟨exec_counterWalkFetch_here hw ha, fun k x hm =>
    ⟨exec_counterWalkFetch_aheadHeld hw ha hm, fun hh u st hf => ⟨fun h => ?_, fun hst hk => ?_⟩⟩⟩,
    fun s w rest hw => ⟨exec_counterWalkFetch_ends hw, fun k i hm => ⟨exec_counterWalkFetch_held hw hm,
      fun hh u st hf => ⟨fun hst => ?_, fun hst hk => ?_, fun hst hk => ?_⟩⟩⟩,
    fun s => exec_counterWriteBack_below, fun s h => ⟨fun hn => ?_, fun k hk => ?_⟩, fun s key k i c hk hc hseal hoff hpow => ?_⟩
  · rw [exec_counterWalkFetch_ahead hw ha hm hh hf, if_pos (by simpa using h)]
  · rw [exec_counterWalkFetch_ahead hw ha hm hh hf, if_neg (by simp [hst, hk])]
  · rw [exec_counterWalkFetch_fetches hw hm hh hf, if_pos hst]
    rfl
  · rw [exec_counterWalkFetch_fetches hw hm hh hf, if_neg (not_not.mpr hst), if_pos hk]
  · rw [exec_counterWalkFetch_fetches hw hm hh hf, if_neg (not_not.mpr hst), if_neg hk]
  · rw [exec_counterWriteBack_above h, hn]
    rfl
  · rw [exec_counterWriteBack_above h, hk]
    rfl
  · obtain ⟨cache, hsec⟩ := writeBack_sec hk hc hseal hoff hpow
    rw [hsec]
    refine ⟨rfl, fun hl => ?_⟩
    rw [hl]
    exact bumpParent_root s i

end Sys2Proof.Machine
end

section
/-! PROOFS. Ports, detectors, margining and the test access port (R59, R60, R255, R270, R272, R273, R504). -/

namespace Sys2Proof.Machine

variable {s : State}

/-! The port function (R255). -/

section PortFunction

variable {p : Fin 64}

theorem exec_portStartingEnd (s : State) (p : Fin 64) : exec (.portStartingEnd p) s =
    if (s.ports[p]).fn.st = .starting then
      .next ((s.modPort p (fun x => { x with fn := { x.fn with st := .on }, gen := x.gen + 1 })).liftKerb p)
    else .next s := rfl

/-- The host port that a link port carries owes a completion. -/
def State.owes (s : State) (p : Fin 64) : Bool :=
  match s.hostOn p with
  | some h => !(s.hosts[h]).pend.isEmpty
  | none => false

theorem owes_iff : s.owes p = true ↔ ∃ h, s.hostOn p = some h ∧ (s.hosts[h]).pend ≠ [] := by
  unfold State.owes
  split <;> simp_all [-Fin.getElem_fin]

theorem exec_portStoppingEnd (s : State) (p : Fin 64) : exec (.portStoppingEnd p) s =
    if ((s.ports[p]).fn.st = .stopping && !s.owes p) = true then .next (s.darkPort p) else .next s := rfl

/-- A port whose lanes are dark: OFF, in no mode, its links down. -/
def Port.Dark (x : Port) : Prop :=
  x.fn.st = .off ∧ x.mode = 0 ∧ ∀ i : Fin 4, (x.subs[i]).lstate = .down ∧ (x.subs[i]).ll = .down

/-- A port goes dark. -/
def Port.goDark (x : Port) : Port := { x with fn := { x.fn with st := .off }, mode := 0, subs := x.subs.map Sub.lost }

theorem goDark_dark (x : Port) : x.goDark.Dark := by
  refine ⟨rfl, rfl, fun i => ?_⟩
  simp [Port.goDark, Sub.lost]

theorem vmod_goDark_dark {v : Vector Port 64} {p : Fin 64} (q : Fin 64) (h : (v[p]).Dark) : ((vmod v q Port.goDark)[p]).Dark := by
  by_cases hq : p = q
  · subst hq
    rw [vmod_self]
    exact goDark_dark _
  · rwa [vmod_of_ne _ _ _ _ hq]

/-- The last updates of `darkPort` are those of its ports. -/
theorem darkPort_ports (s : State) (p : Fin 64) : ∃ v : Vector Port 64, (s.darkPort p).ports = vmod v p Port.goDark ∨
    (s.darkPort p).ports = vmod (vmod v p Port.goDark) (pairOf p) Port.goDark := by
  unfold State.darkPort
  dsimp only
  split <;> split
  exacts [⟨_, .inr rfl⟩, ⟨_, .inl rfl⟩, ⟨_, .inr rfl⟩, ⟨_, .inl rfl⟩]

theorem darkPort_dark (s : State) (p : Fin 64) : ((s.darkPort p).ports[p]).Dark := by
  obtain ⟨v, hv | hv⟩ := darkPort_ports s p
  · rw [hv, vmod_self]
    exact goDark_dark _
  · rw [hv]
    refine vmod_goDark_dark _ ?_
    rw [vmod_self]
    exact goDark_dark _

end PortFunction

/-! FORCE (R273). -/

section Force

variable {pa : Path} {m : MasterId} {p : Fin 64} {lane : Fin 8} (hw : Writable s pa m (offPort p 0x040))
include hw

theorem exec_force_other (hc : isCore pa m = false) : exec (.portForceRetrain pa m p) s = .next s ∧
    exec (.losInject pa m p lane) s = .next s ∧ exec (.lolInject pa m p lane) s = .next s := by
  simp only [exec, execPortForceRetrain, execLosInject, execLolInject, guardCore_other hw hc, and_self]

theorem exec_force_core (hc : isCore pa m = true) : exec (.portForceRetrain pa m p) s = .next (s.forceRetrain p) ∧
    exec (.losInject pa m p lane) s = .next (s.forceDetector p lane true) ∧
    exec (.lolInject pa m p lane) s = .next (s.forceDetector p lane false) := by
  simp only [exec, execPortForceRetrain, execLosInject, execLolInject, guardCore_ok hw hc, and_self]

end Force

theorem setBit_true_getLsbD {w : Nat} (a : BitVec w) (i j : Nat) :
    (setBit a i true).getLsbD j = (a.getLsbD j || (decide (i < w) && decide (i = j))) := by
  simp only [setBit, if_true, BitVec.getLsbD_or, BitVec.getLsbD_twoPow]

/-- Bits set one after the other stay set. -/
theorem foldl_setBit_keeps {α : Type} {w : Nat} (f : α → Nat) {j : Nat} (l : List α) {a : BitVec w} (h : a.getLsbD j = true) :
    (l.foldl (fun m x => setBit m (f x) true) a).getLsbD j = true := by
  induction l generalizing a with
  | nil => exact h
  | cons x xs ih => exact ih (by rw [setBit_true_getLsbD, h, Bool.true_or])

/-- The detector forced last is asserted. -/
theorem forced_head {x : Port} {lane : Fin 8} {los : Bool} {t : Nat} {l : List (Fin 8 × Bool × Nat)} (h : x.forces = (lane, los, t) :: l) :
    (x.forced los).getLsbD lane.val = true := by
  unfold Port.forced
  rw [h, List.filter_cons_of_pos (by simp), List.foldl_cons]
  refine foldl_setBit_keeps _ _ ?_
  rw [setBit_true_getLsbD]
  simp

/-! Margining (R270). -/

theorem exec_marginStart_other {pa : Path} {m : MasterId} {p : Fin 64} {lane : Fin 8} {v : W32}
    (hw : Writable s pa m (offPort p (0x108 + 16 * lane.val))) (hc : isCore pa m = false) :
    exec (.marginStart pa m p lane v) s = .next s := by
  simp only [exec, execMarginStart, guardCore_other hw hc]

theorem exec_marginStart_runs {pa : Path} {m : MasterId} {p : Fin 64} {lane : Fin 8} {v : W32}
    (hw : Writable s pa m (offPort p (0x108 + 16 * lane.val))) (hc : isCore pa m = true) (hv : v.getLsbD 31 = true)
    (ha : s.laneActive p lane = true) : exec (.marginStart pa m p lane v) s = .next
      (s.modPort p (fun q => { q with
        lane := vmod q.lane lane (fun x => { x with margin := v &&& 0xFFFF8000#32, result := 1, errors := 0 }) })) := by
  simp only [exec, execMarginStart, guardCore_ok hw hc, State.marginWrite, bit, hv, ha]
  rfl

/-- What MARGIN_END leaves of a lane. -/
def Lane.marginEnd (x : Lane) (e : BitVec 30) (a : Bool) : Lane :=
  if x.result = 1 then { x with result := if a then 3 else 2, errors := e, margin := setBit x.margin 31 false } else x

theorem exec_marginEnd (s : State) (p : Fin 64) (lane : Fin 8) (e : BitVec 30) (a : Bool) : exec (.marginEnd p lane e a) s =
    .next (s.modPort p (fun x => { x with lane := vmod x.lane lane (fun x => x.marginEnd e a) })) := rfl

theorem setBit_false_self {w : Nat} (a : BitVec w) (i : Nat) : (setBit a i false).getLsbD i = false := by
  simp [setBit]

/-! The test access port (R59, R272, R504). -/

theorem exec_boundaryScanLoad_down (c : TapScan) (h : s.sidebandUp = false) : exec (.boundaryScanLoad c) s = .next s := by
  simp only [exec, execBoundaryScanLoad, h, Bool.not_false, if_true]

/-- The instruction that a scan selects: debug disable leaves the bypass register of those of IEEE 1838 (R60, log entry 98). -/
def State.scanInstr (s : State) (c : TapScan) : TapInstr := if c.instr.stacked && s.debugDisable then .bypass else c.instr

theorem exec_boundaryScanLoad_up (c : TapScan) (h : s.sidebandUp = true) {u : State}
    (hu : u = if (s.scanInstr c).takesLanes then s.lanesLost else s) : exec (.boundaryScanLoad c) s = .next { u with
      tap := u.tap.update (s.scanInstr c) c.shift, slew := { u.slew with tdo := slewStep c.tck },
      outbox := .tdo ((s.tapCapture (s.scanInstr c) c.pins ++ c.shift).take c.shift.length) u.slew.tdo :: u.outbox } := by
  subst hu
  simp only [exec, execBoundaryScanLoad, h]
  rfl

theorem inChain_iff {i : Nat} : s.inChain i = true ↔ ∀ j, j ≤ i % s.glb.variant.layers →
    nth s.tap.chain (i / s.glb.variant.layers * s.glb.variant.layers + j) false = true := by
  simp only [State.inChain, List.all_eq_true, List.mem_range, Nat.lt_succ_iff]

theorem slewStep_iff (ps : Nat) : (slewStep ps = 0 ↔ 1000000 ≤ ps) ∧ (slewStep ps = 1 ↔ 250000 ≤ ps ∧ ps < 1000000) ∧
    (slewStep ps = 2 ↔ 125000 ≤ ps ∧ ps < 250000) ∧ (slewStep ps = 3 ↔ ps < 125000) := by
  unfold slewStep
  split_ifs <;> simp <;> omega

/-- Settles O47, unit by unit. -/
theorem portsMarginsAndScan : Obligations.PortsMarginsAndScan := by
  refine ⟨fun s p => ?_, fun s pa m p lane hw => ⟨exec_force_other hw, fun hc => ?_⟩,
    fun s pa m p lane v hw => ⟨exec_marginStart_other hw, exec_marginStart_runs hw⟩, fun s p lane e a => ?_,
    fun s c => exec_boundaryScanLoad_down c, fun s c h => ?_, fun s => rfl, fun s i => inChain_iff, slewStep_iff⟩
  · obtain ⟨hoff, hmode, hsubs⟩ := darkPort_dark s p
    refine ⟨fun h => ?_, fun h => ?_, fun h hown => ?_, fun h => ?_, hoff, hmode, hsubs⟩
    · rw [exec_portStartingEnd, if_pos h]
    · rw [exec_portStartingEnd, if_neg h]
    · rw [exec_portStoppingEnd, if_pos]
      have ho : s.owes p = false := by
        rw [← Bool.not_eq_true, owes_iff]
        rintro ⟨x, hx, hp⟩
        exact hp (hown x hx)
      rw [h, ho]
      rfl
    · rw [exec_portStoppingEnd, if_neg]
      obtain h | h := h
      · simp [-Fin.getElem_fin, h]
      · simp [owes_iff.mpr h]
  · obtain ⟨hr, hlos, hlol⟩ := exec_force_core (lane := lane) hw hc
    refine ⟨hr, fun u hu => ⟨?_, ?_⟩, fun u hu => ⟨?_, ?_⟩⟩
    · rw [hlos, hu]
      rfl
    · rw [hu, Port.losNow, BitVec.getLsbD_or, State.modPort_ports, vmod_self, forced_head rfl, Bool.or_true]
    · rw [hlol, hu]
      rfl
    · rw [hu, Port.lolNow, BitVec.getLsbD_or, State.modPort_ports, vmod_self, forced_head rfl, Bool.or_true]
  · refine ⟨_, exec_marginEnd .., rfl, fun q hq => vmod_of_ne _ _ _ _ hq, fun h => ?_, fun h => ?_⟩
    · rw [State.modPort_ports, vmod_self, vmod_self, Lane.marginEnd, if_pos h]
      exact ⟨rfl, rfl, setBit_false_self ..⟩
    · rw [State.modPort_ports, vmod_self, vmod_self, Lane.marginEnd, if_neg h]
  · have hi : s.scanInstr c = if c.instr.stacked = true ∧ s.debugDisable = true then TapInstr.bypass else c.instr := by
      simp only [State.scanInstr, Bool.and_eq_true]
    rw [← hi]
    exact exec_boundaryScanLoad_up c h rfl

end Sys2Proof.Machine
end

section
/-! PROOFS. Row commands beyond the layers of the part (R83-R85): a command word names a layer in four bits, so a row number whose
layer needs more of them spills into OP. -/

namespace Sys2Proof.Machine

namespace WideRow

/-- A row of layer 208: its bits above the four of LAYER turn OP 0x02 of a WM into 0x0F, which is no command (R84). -/
def row : Nat := 208 * 262144

theorem readInfo_wm : readInfo (RowCmd.wm row 0).info = none := by decide

/-- A WM of the row, chosen for slot 4. -/
def wm : SlotCmd := { slot := 4, cmd := .wm row 0 }

/-- The state after reset with that WM chosen on channel 0. -/
def chosen : State := State.reset.modCtl 0 (fun c => { c with chosen := [wm] })

theorem dueCmd_chosen : (chosen.chs[(0 : Fin 64)]).ctl.dueCmd chosen.strobe = some wm := by decide

theorem exec_chosen : exec (.rowCommandIssue 0 0) chosen = .next (chosen.issueCmd 0 wm 0) := by
  simp only [exec, execRowCommandIssue, dueCmd_chosen]

/-- No layer takes the word, though none was locked out before it: the WM drives no line. -/
theorem issued_lines : ((chosen.issueCmd 0 wm 0).chs[(0 : Fin 64)]).ctl.issued.map (fun x => x.lines) = [[]] := by decide

theorem unlocked : ((chosen.chs[(0 : Fin 64)]).ctl.layer (rowOfKey row).layer).lockout = false := by decide

theorem rowLines_length (c : Ctl) (r : Nat) : (c.rowLines r).length = 16 := by simp [Ctl.rowLines]

end WideRow

open WideRow in
/-- Refutes O33: a WM whose row number lies beyond the layers that a command word can name goes out as a word that no layer can read
(R84), so that it drives no line although its layer was not locked out, and the statement has it drive the row's 16. -/
theorem not_rowsCross : ¬ Obligations.RowsCross := by
  rintro ⟨⟨-, hout, -⟩, -, -⟩
  obtain ⟨t, hexec, -, -, -, -, hwm, -⟩ := hout chosen 0 wm dueCmd_chosen rfl rfl
  obtain rfl : chosen.issueCmd 0 wm 0 = t := Host.Outcome.next.inj (exec_chosen.symm.trans hexec)
  obtain ⟨-, -, hissued, -⟩ := hwm row 0 rfl
  have hlines := congrArg (List.map (fun x : SlotCmd => x.lines)) hissued
  rw [issued_lines, unlocked] at hlines
  have hlen := congrArg List.length (List.head_eq_of_cons_eq hlines)
  rw [if_neg (by decide), rowLines_length] at hlen
  exact absurd hlen (by decide)

end Sys2Proof.Machine
end

section
/-! PROOFS. Updates of one channel slice, its layers, and the commands that are taken back. -/

namespace Sys2Proof.Machine

variable {s : State} {n m : Fin 64}

/-! What an update of channel `n` leaves of it and of the others. -/

theorem modCh_ch (s : State) (n : Fin 64) (f : Channel → Channel) : (s.modCh n f).chs[n] = f s.chs[n] := vmod_self ..

theorem modCh_ch_of_ne (f : Channel → Channel) (h : m ≠ n) : (s.modCh n f).chs[m] = s.chs[m] := vmod_of_ne _ _ _ _ h

theorem modCtl_ch (s : State) (n : Fin 64) (f : Ctl → Ctl) :
    (s.modCtl n f).chs[n] = { s.chs[n] with ctl := f (s.chs[n]).ctl } := vmod_self ..

theorem modCtl_ch_of_ne (f : Ctl → Ctl) (h : m ≠ n) : (s.modCtl n f).chs[m] = s.chs[m] := vmod_of_ne _ _ _ _ h

theorem modTsv_ch (s : State) (n : Fin 64) (f : Tsv → Tsv) :
    (s.modTsv n f).chs[n] = { s.chs[n] with tsv := f (s.chs[n]).tsv } := vmod_self ..

theorem modTsv_ch_of_ne (f : Tsv → Tsv) (h : m ≠ n) : (s.modTsv n f).chs[m] = s.chs[m] := vmod_of_ne _ _ _ _ h

theorem modEcc_ch (s : State) (n : Fin 64) (f : Ecc → Ecc) :
    (s.modEcc n f).chs[n] = { s.chs[n] with ecc := f (s.chs[n]).ecc } := vmod_self ..

theorem modEcc_ch_of_ne (f : Ecc → Ecc) (h : m ≠ n) : (s.modEcc n f).chs[m] = s.chs[m] := vmod_of_ne _ _ _ _ h

theorem modRbt_ch (s : State) (n : Fin 64) (f : Rbt → Rbt) :
    (s.modRbt n f).chs[n] = { s.chs[n] with rbt := f (s.chs[n]).rbt } := vmod_self ..

theorem bumpEpoch_ch (s : State) (n : Fin 64) :
    (s.bumpEpoch n).chs[n] = { s.chs[n] with ctl := { (s.chs[n]).ctl with epoch := (s.chs[n]).ctl.epoch + 1 } } := vmod_self ..

theorem bumpEpoch_ch_of_ne (h : m ≠ n) : (s.bumpEpoch n).chs[m] = s.chs[m] := vmod_of_ne _ _ _ _ h

/-! Two updates of one channel are one, and an update acts on what the channel holds. -/

theorem modCh_modCh (s : State) (n : Fin 64) (f g : Channel → Channel) :
    (s.modCh n f).modCh n g = s.modCh n (fun c => g (f c)) := by
  simp only [State.modCh, vmod_vmod]

theorem modCtl_modCtl (s : State) (n : Fin 64) (f g : Ctl → Ctl) : (s.modCtl n f).modCtl n g = s.modCtl n (fun c => g (f c)) :=
  modCh_modCh ..

theorem modTsv_modTsv (s : State) (n : Fin 64) (f g : Tsv → Tsv) : (s.modTsv n f).modTsv n g = s.modTsv n (fun t => g (f t)) :=
  modCh_modCh ..

theorem modCh_congr {f g : Channel → Channel} (h : f s.chs[n] = g s.chs[n]) : s.modCh n f = s.modCh n g := by
  rw [State.modCh, State.modCh, vmod_congr h]

theorem modCtl_congr {f g : Ctl → Ctl} (h : f (s.chs[n]).ctl = g (s.chs[n]).ctl) : s.modCtl n f = s.modCtl n g :=
  modCh_congr (by rw [h])

theorem modTsv_congr {f g : Tsv → Tsv} (h : f (s.chs[n]).tsv = g (s.chs[n]).tsv) : s.modTsv n f = s.modTsv n g :=
  modCh_congr (by rw [h])

theorem modCh_id {f : Channel → Channel} (h : f s.chs[n] = s.chs[n]) : s.modCh n f = s := by
  rw [State.modCh, vmod_id h]

theorem modCtl_id {f : Ctl → Ctl} (h : f (s.chs[n]).ctl = (s.chs[n]).ctl) : s.modCtl n f = s := modCh_id (by rw [h])

theorem modTsv_id {f : Tsv → Tsv} (h : f (s.chs[n]).tsv = (s.chs[n]).tsv) : s.modTsv n f = s := modCh_id (by rw [h])

theorem modEcc_id {f : Ecc → Ecc} (h : f (s.chs[n]).ecc = (s.chs[n]).ecc) : s.modEcc n f = s := modCh_id (by rw [h])

/-! The layers of a channel (R84, R85). -/

variable {c : Ctl} {k l : Nat}

theorem layer_modLayer_self (c : Ctl) (l : Nat) (f : LayerSt → LayerSt) : (c.modLayer l f).layer l = f (c.layer l) :=
  smGetD_put_self ..

theorem layer_modLayer_of_ne (f : LayerSt → LayerSt) (h : k ≠ l) : (c.modLayer l f).layer k = c.layer k :=
  smGetD_put_of_ne _ _ _ h

/-- What a command does at the layers changes them alone. -/
theorem layerDo_eq (c : Ctl) (k : Nat) (cmd : RowCmd) : ∃ ls, c.layerDo k cmd = { c with layers := ls } := by
  simp only [Ctl.layerDo]
  repeat' split
  all_goals exact ⟨_, rfl⟩

theorem allLayers_eq (c : Ctl) (k : Nat) (cmd : Nat → RowCmd) : ∃ ls, c.allLayers k cmd = { c with layers := ls } := by
  unfold Ctl.allLayers
  generalize List.range k = is
  induction is generalizing c with
  | nil => exact ⟨c.layers, rfl⟩
  | cons i is ih =>
    obtain ⟨ls, hls⟩ := layerDo_eq c k (cmd i)
    obtain ⟨ls', hls'⟩ := ih { c with layers := ls }
    exact ⟨ls', by rw [List.foldl_cons, hls, hls']⟩

theorem layerDo_sre_layer (c : Ctl) (k l i : Nat) : (c.layerDo k (.sre l)).layer i =
    if i = l ∧ (c.layer l).lockout = false then { c.layer i with selfRefresh := true } else c.layer i := by
  cases hl : (c.layer l).lockout with
  | true => simp [Ctl.layerDo, hl]
  | false =>
    by_cases hi : i = l
    · subst hi
      simp [Ctl.layerDo, hl, layer_modLayer_self]
    · simp [Ctl.layerDo, hl, layer_modLayer_of_ne _ hi, hi]

/-- SRE to every layer leaves those in self-refresh that are not locked out. -/
theorem allLayers_sre_layer (c : Ctl) (k i : Nat) : (c.allLayers k .sre).layer i =
    if i < k ∧ (c.layer i).lockout = false then { c.layer i with selfRefresh := true } else c.layer i := by
  have h : ∀ j, ((List.range j).foldl (fun c l => c.layerDo k (.sre l)) c).layer i =
      if i < j ∧ (c.layer i).lockout = false then { c.layer i with selfRefresh := true } else c.layer i := by
    intro j
    induction j with
    | zero => simp
    | succ j ih =>
      rw [List.range_succ, List.foldl_append, List.foldl_cons, List.foldl_nil, layerDo_sre_layer, ih]
      by_cases hij : i = j
      · subst hij
        simp [ih]
      · have : i < j + 1 ↔ i < j := by omega
        simp [hij, this]
  exact h k

/-! Commands that are taken back (R48, R58, R87). -/

/-- What the cancellation of a chosen command leaves of the controller. -/
def Ctl.kept (c : Ctl) : Ctl :=
  { c with
    chosen := [], outs := [], rq := c.rq.map (fun q => { q with sched := false }), refDue := [], nextBank := 0, nextGroup := 0,
    recSts := 0, stsNext := 0, recAln := false }

theorem unsched_kept (c : Ctl) (row : Nat) : (c.unsched row).kept = c.kept := by
  simp only [Ctl.kept, Ctl.unsched, List.map_map]
  congr 1
  refine List.map_congr_left fun q _ => ?_
  dsimp only [Function.comp]
  split <;> rfl

theorem cancel_kept (c : Channel) (k : Nat) (x : SlotCmd) : (c.cancel k x).ctl.kept = c.ctl.kept := by
  simp only [Channel.cancel]
  split
  case h_1 => exact unsched_kept _ _
  case h_4 => split <;> rfl
  all_goals rfl

theorem cancel_chosen (c : Channel) (k : Nat) (x : SlotCmd) : (c.cancel k x).ctl.chosen = c.ctl.chosen.erase x := by
  simp only [Channel.cancel]
  split
  case h_4 => split <;> rfl
  all_goals rfl

theorem cancelAll_kept (c : Channel) (k : Nat) (p : SlotCmd → Bool) : (c.cancelAll k p).ctl.kept = c.ctl.kept :=
  foldl_keeps (fun c : Channel => c.ctl.kept) (fun c x => cancel_kept c k x) _ _

/-- Every chosen command that is to be cancelled is. -/
theorem cancelAll_chosen (c : Channel) (k : Nat) (p : SlotCmd → Bool) {x : SlotCmd} (hx : x ∈ (c.cancelAll k p).ctl.chosen) :
    x ∈ c.ctl.chosen ∧ p x = false := by
  have h : ∀ (l : List SlotCmd) (c : Channel), (l.foldl (fun c x => c.cancel k x) c).ctl.chosen = c.ctl.chosen.diff l := by
    intro l
    induction l with
    | nil => exact fun c => (List.diff_nil _).symm
    | cons y l ih =>
      intro c
      rw [List.foldl_cons, ih, cancel_chosen, List.diff_cons]
  rw [Channel.cancelAll, h] at hx
  refine ⟨List.diff_subset _ _ hx, ?_⟩
  by_contra hp
  have hc := List.count_pos_iff.mpr hx
  rw [List.count_diff, List.count_filter (by simpa using hp), Nat.sub_self] at hc
  exact absurd hc (by decide)

end Sys2Proof.Machine
end

section
/-! PROOFS. Retrains (R56-R58), and the injections that a register write arms (R62, R91, R120, R154, R211). -/

namespace Sys2Proof.Machine

variable {s : State} {ch : Fin 64}

/-! DRIFT_CHECK and STROBE_LIMIT_REACHED (R56). -/

/-- The word of the monitors' counts. -/
def ageWord (a : AgeCounts) : W32 := at32 16 a.stress.toNat ||| at32 0 a.ref.toNat

section Drift

variable {a : AgeCounts} (ho : (s.chs[ch]).tsv.offline = false) (ha : (s.chs[ch]).tsv.autoRetrain = true)
include ho ha

/-- The latest drift-triggered retrain is less than 2^20 strobes ago. -/
def State.driftRecent (s : State) (ch : Fin 64) : Bool :=
  match (s.chs[ch]).tsv.lastDrift with
  | some k => decide (s.strobe < k + 1048576)
  | none => false

omit ho ha in
theorem driftRecent_iff : s.driftRecent ch = true ↔ ∃ k, (s.chs[ch]).tsv.lastDrift = some k ∧ s.strobe < k + 1048576 := by
  unfold State.driftRecent
  split <;> simp_all

theorem exec_driftCheck : exec (.driftCheck ch a) s =
    if driftExceeds (s.chs[ch]).tsv.ageBase (ageWord a) (s.chs[ch]).tsv.driftLimit = false then
      .next (s.modTsv ch (fun t => { t with ageNow := ageWord a }))
    else if s.driftRecent ch then
      .next ((s.modTsv ch (fun t => { t with ageNow := ageWord a })).log (evTsvDrift ch.val)
        (detail ch.val (s.chs[ch]).tsv.deadLast.toNat) acSequencer)
    else .next ((s.modTsv ch (fun t => { t with ageNow := ageWord a })).modTsv ch (fun t => { t with
      retrainDue := some (t.retrainDue.getD .incremental), lastDrift := some s.strobe })) := by
  have h : exec (.driftCheck ch a) s = (let u := s.modTsv ch (fun t => { t with ageNow := ageWord a })
      if (s.chs[ch]).tsv.offline || !driftExceeds (s.chs[ch]).tsv.ageBase (ageWord a) (s.chs[ch]).tsv.driftLimit ||
        !(s.chs[ch]).tsv.autoRetrain then .next u
      else if s.driftRecent ch then .next (u.log (evTsvDrift ch.val) (detail ch.val (s.chs[ch]).tsv.deadLast.toNat) acSequencer)
      else .next (u.modTsv ch (fun t => { t with
        retrainDue := some (t.retrainDue.getD .incremental), lastDrift := some s.strobe }))) := by
    simp only [exec, execDriftCheck, modTsv_ch]
    rfl
  rw [h, ho, ha]
  cases driftExceeds (s.chs[ch]).tsv.ageBase (ageWord a) (s.chs[ch]).tsv.driftLimit <;> rfl

end Drift

theorem exec_strobeLimitReached (ho : (s.chs[ch]).tsv.offline = false) (hl : 1073741824 ≤ (s.chs[ch]).tsv.sinceTrain) :
    exec (.strobeLimitReached ch) s =
      .next (s.modTsv ch (fun t => { t with retrainDue := some (t.retrainDue.getD .incremental) })) := by
  simp [-Fin.getElem_fin, exec, execStrobeLimitReached, ho, hl]

/-! RETRAIN_HOLD_START (R56, R58). -/

/-- Another channel of the District is held. -/
def State.neighbourHeld (s : State) (ch : Fin 64) : Bool :=
  (fins 64).any (fun n => n ≠ ch && distOf n = distOf ch && ((s.chs[n]).tsv.hold).isSome)

theorem neighbourHeld_iff : s.neighbourHeld ch = true ↔
    ∃ n : Fin 64, n ≠ ch ∧ distOf n = distOf ch ∧ (s.chs[n]).tsv.hold ≠ none := by
  simp [-Fin.getElem_fin, State.neighbourHeld, fins, Option.isSome_iff_ne_none, and_assoc]

theorem exec_retrainHoldStart {k : RetrainKind} (hd : (s.chs[ch]).tsv.retrainDue = some k) (hr : (s.chs[ch]).ctl.state = .run)
    (hrec : (s.chs[ch]).ctl.recovery = false) (hf : (s.chs[ch]).ctl.fill = false) :
    exec (.retrainHoldStart ch) s = .next (if s.neighbourHeld ch then s else s.beginHold ch k) := by
  simp only [exec, execRetrainHoldStart, hd, Channel.mayRetrain, hr, hrec, hf, ← State.neighbourHeld.eq_def]
  cases s.neighbourHeld ch <;> rfl

/-- A hold begins no earlier than now, and after every row transfer that has gone out (R58). -/
theorem holdFrom_ge (c : Ctl) (now : Nat) : now ≤ c.holdFrom now ∧ ∀ x ∈ c.issued, x.moves = true → x.slot < c.holdFrom now := by
  have h : ∀ (l : List SlotCmd) (a : Nat), a ≤ l.foldl (fun a x => max a (x.slot + 1)) a ∧
      ∀ x ∈ l, x.slot < l.foldl (fun a x => max a (x.slot + 1)) a := by
    intro l
    induction l with
    | nil => simp
    | cons y l ih =>
      intro a
      obtain ⟨h1, h2⟩ := ih (max a (y.slot + 1))
      refine ⟨le_trans (le_max_left ..) h1, fun x hx => ?_⟩
      obtain rfl | hx := List.mem_cons.mp hx
      · exact lt_of_lt_of_le (Nat.lt_of_lt_of_le (Nat.lt_succ_self _) (le_max_right ..)) h1
      · exact h2 x hx
  obtain ⟨h1, h2⟩ := h (c.issued.filter SlotCmd.moves) now
  exact ⟨h1, fun x hx hm => h2 x (List.mem_filter.mpr ⟨hx, hm⟩)⟩

/-- The controller as the beginning of a hold leaves it: `c` after what was chosen has been taken back (R58). -/
def Ctl.toHold (c : Ctl) (n : Nat) (k : RetrainKind) : Ctl :=
  let c := { c with state := if c.state = .run then .hold else c.state }
  match k with
  | .full => c.allLayers n RowCmd.sre
  | .incremental => c

/-- The channel as the beginning of a hold leaves it. -/
theorem beginHold_ch (s : State) (ch : Fin 64) (k : RetrainKind) : ((s.beginHold ch k).chs[ch]) =
    let c := (s.chs[ch]).cancelAll s.glb.variant.layers (fun x => k = .full || !isRef x)
    { c with
      tsv := { c.tsv with retrainDue := none, hold := some { kind := k, start := c.ctl.holdFrom s.strobe } },
      ctl := c.ctl.toHold s.glb.variant.layers k } := by
  simp only [State.beginHold, modCtl_ch, modTsv_ch, modCh_ch, State.retrainBegun]
  rfl

theorem beginHold_frame (s : State) (ch : Fin 64) (k : RetrainKind) : (∀ n : Fin 64, n ≠ ch → (s.beginHold ch k).chs[n] = s.chs[n]) ∧
    (s.beginHold ch k).dram = s.dram ∧ (s.beginHold ch k).kerbs = s.kerbs := by
  refine ⟨fun n hn => ?_, rfl, rfl⟩
  simp only [State.beginHold, modCtl_ch_of_ne _ hn, State.retrainBegun, modTsv_ch_of_ne _ hn, modCh_ch_of_ne _ hn]

theorem toHold_eq (c : Ctl) (n : Nat) (k : RetrainKind) : ∃ ls, c.toHold n k = { c with
    state := if c.state = .run then .hold else c.state, layers := ls } := by
  cases k with
  | incremental => exact ⟨c.layers, rfl⟩
  | full => exact allLayers_eq { c with state := if c.state = .run then .hold else c.state } n RowCmd.sre

theorem toHold_full_layer {c : Ctl} {n l : Nat} (hl : l < n) (hc : (c.layer l).lockout = false) :
    ((c.toHold n .full).layer l).selfRefresh = true := by
  simp only [Ctl.toHold]
  rw [allLayers_sre_layer, if_pos ⟨hl, hc⟩]

theorem map_req_of_kept {c d : Ctl} (h : c.kept = d.kept) : c.rq.map (fun q => q.req) = d.rq.map (fun q => q.req) := by
  have h2 := congrArg (fun c => (Ctl.rq c).map (fun q => q.req)) h
  simpa only [Ctl.kept, List.map_map, Function.comp_def] using h2

theorem retrainHoldStarts {k : RetrainKind} (hr : (s.chs[ch]).ctl.state = .run) :
    let t := s.beginHold ch k
    (t.chs[ch]).ctl.state = .hold ∧ (t.chs[ch]).tsv.retrainDue = none ∧
    (∃ h : Hold, (t.chs[ch]).tsv.hold = some h ∧ h.kind = k ∧ s.strobe ≤ h.start ∧
      (∀ x ∈ (s.chs[ch]).ctl.issued, x.moves = true → x.slot < h.start)) ∧
    (∀ x ∈ (t.chs[ch]).ctl.chosen, k = .incremental ∧ isRef x = true) ∧ (t.chs[ch]).ctl.wq = (s.chs[ch]).ctl.wq ∧
    (t.chs[ch]).ctl.rq.map (fun q => q.req) = (s.chs[ch]).ctl.rq.map (fun q => q.req) ∧
    (t.chs[ch]).ctl.waiting = (s.chs[ch]).ctl.waiting ∧ (t.chs[ch]).ctl.issued = (s.chs[ch]).ctl.issued ∧
    (k = .full → ∀ l, l < s.glb.variant.layers → ((s.chs[ch]).ctl.layer l).lockout = false →
      ((t.chs[ch]).ctl.layer l).selfRefresh = true) ∧
    (∀ n : Fin 64, n ≠ ch → t.chs[n] = s.chs[n]) ∧ t.dram = s.dram ∧ t.kerbs = s.kerbs := by
  have hk := cancelAll_kept (s.chs[ch]) s.glb.variant.layers (fun x => k = .full || !isRef x)
  have hchosen := fun x => cancelAll_chosen (s.chs[ch]) s.glb.variant.layers (fun x => k = .full || !isRef x) (x := x)
  intro t
  obtain ⟨hothers, hdram, hkerbs⟩ := beginHold_frame s ch k
  have ht : (t.chs[ch]) = _ := beginHold_ch s ch k
  generalize (s.chs[ch]).cancelAll s.glb.variant.layers (fun x => k = .full || !isRef x) = c at hk ht hchosen
  have hissued : c.ctl.issued = (s.chs[ch]).ctl.issued := (congrArg Ctl.issued hk :)
  have hstate : c.ctl.state = (s.chs[ch]).ctl.state := (congrArg Ctl.state hk :)
  have hwq : c.ctl.wq = (s.chs[ch]).ctl.wq := (congrArg Ctl.wq hk :)
  have hwaiting : c.ctl.waiting = (s.chs[ch]).ctl.waiting := (congrArg Ctl.waiting hk :)
  have hreqs := map_req_of_kept hk
  have hlayer : ∀ l, c.ctl.layer l = (s.chs[ch]).ctl.layer l := fun l => (congrArg (Ctl.layer · l) hk :)
  obtain ⟨ls, hls⟩ := toHold_eq c.ctl s.glb.variant.layers k
  obtain ⟨h1, h2⟩ := holdFrom_ge c.ctl s.strobe
  simp only [ht]
  refine ⟨?_, trivial, ⟨_, rfl, rfl, h1, fun x hx => h2 x (?_)⟩, fun x hx => ?_, ?_, ?_, ?_, ?_, ?_, hothers, hdram, hkerbs⟩
  · rw [hls]
    exact if_pos (hstate.trans hr)
  · exact hissued ▸ hx
  · rw [hls] at hx
    obtain ⟨-, hp⟩ := hchosen x hx
    cases k <;> simp_all
  · rw [hls]
    exact hwq
  · rw [hls]
    exact hreqs
  · rw [hls]
    exact hwaiting
  · rw [hls]
    exact hissued
  · rintro rfl l hl hc
    exact toHold_full_layer hl (hlayer l ▸ hc)

/-! RETRAIN_HOLD_END (R55-R57). -/

theorem holdOver_none : s.holdOver ch = none ↔ ((s.chs[ch]).tsv.hold = none ∨ ∃ h, (s.chs[ch]).tsv.hold = some h ∧
    s.strobe < h.start + holdLength s.glb.variant h.kind) := by
  simp only [State.holdOver]
  cases (s.chs[ch]).tsv.hold with
  | none => simp
  | some h => simp [Option.filter]

theorem holdOver_some {h : Hold} (hh : (s.chs[ch]).tsv.hold = some h) (hl : h.start + holdLength s.glb.variant h.kind ≤ s.strobe) :
    s.holdOver ch = some h := by
  simp only [State.holdOver, hh, Option.filter, hl, decide_true, if_true]

theorem foldl_of_not_mem {α β : Type} {p : α → Prop} [DecidablePred p] {f : β → α → β} (l : List α) (b : β) (h : ∀ x ∈ l, ¬ p x) :
    l.foldl (fun b x => if p x then f b x else b) b = b := by
  induction l with
  | nil => rfl
  | cons x xs ih =>
    rw [List.foldl_cons, if_neg (h x (List.mem_cons_self ..))]
    exact ih fun y hy => h y (List.mem_cons_of_mem _ hy)

/-- Spares that are steered in change the table of the spares alone. -/
theorem foldl_steerIn_eq (t : Tsv) (l : List (Nat × Nat)) :
    ∃ sp, l.foldl (fun t x => t.steerIn (160 + x.1) x.2) t = { t with spares := sp } := by
  induction l generalizing t with
  | nil => exact ⟨_, rfl⟩
  | cons x xs ih =>
    obtain ⟨sp, h⟩ := ih (t.steerIn (160 + x.1) x.2)
    exact ⟨sp, h⟩

theorem orderDead_nil : orderDead [] = [] := by
  simp [orderDead]

theorem drainWaiting_of_nil (h : (s.chs[ch]).ctl.waiting = []) : s.drainWaiting ch = s := by
  simp only [State.drainWaiting, h, List.foldl_nil]
  exact modCtl_id (by rw [← h])

/-- The monitors' part of the channel after a hold of kind `k` (R57): the spares that waited for a full retrain are steered in. -/
def Tsv.afterHold (t : Tsv) (k : RetrainKind) (w : W32) : Tsv :=
  let full := k = .full
  { (if full then t.caPending.foldl (fun t x => t.steerIn (160 + x.1) x.2) t else t) with
    hold := none, sinceTrain := 0, ageNow := w, ageBase := if full then w else t.ageBase, deferred := [],
    caPending := if full then [] else t.caPending, aligned := t.aligned || full }

/-- The controller after a hold of kind `k`. -/
def Ctl.afterHold (c : Ctl) (k : RetrainKind) (n now : Nat) : Ctl :=
  let full := k = .full
  { (if full then (c.layerDo n .aln).allLayers n RowCmd.srx else c) with
    state := if c.state = .hold && !c.fill && !c.recovery then .run else c.state,
    rowFrom := if full then now + 64 else c.rowFrom }

/-- The channel's records after a hold of kind `k`; a full retrain takes the next epoch. -/
def State.afterHold (s : State) (ch : Fin 64) (k : RetrainKind) (w : W32) : State :=
  let u := (s.modTsv ch (·.afterHold k w)).modCtl ch (·.afterHold k s.glb.variant.layers s.strobe)
  if k = .full then u.bumpEpoch ch else u

theorem layersAfterHold_eq (c : Ctl) (n : Nat) : ∃ ls, (c.layerDo n .aln).allLayers n RowCmd.srx = { c with layers := ls } := by
  obtain ⟨l1, h1⟩ := layerDo_eq c n .aln
  obtain ⟨l2, h2⟩ := allLayers_eq (c.layerDo n .aln) n RowCmd.srx
  exact ⟨l2, by rw [h2, h1]⟩

theorem afterHold_eq (c : Ctl) (k : RetrainKind) (n now : Nat) : ∃ ls, c.afterHold k n now = { c with
    layers := ls, state := if c.state = .hold && !c.fill && !c.recovery then .run else c.state,
    rowFrom := if k = .full then now + 64 else c.rowFrom } := by
  cases k with
  | incremental => exact ⟨c.layers, rfl⟩
  | full =>
    obtain ⟨ls, h⟩ := layersAfterHold_eq c n
    exact ⟨ls, by simp only [Ctl.afterHold, if_true, h]⟩

theorem afterHold_ch (s : State) (ch : Fin 64) (k : RetrainKind) (w : W32) : (s.afterHold ch k w).chs[ch] =
    { s.chs[ch] with
      tsv := (s.chs[ch]).tsv.afterHold k w,
      ctl := { (s.chs[ch]).ctl.afterHold k s.glb.variant.layers s.strobe with
        epoch := if k = .full then ((s.chs[ch]).ctl.afterHold k s.glb.variant.layers s.strobe).epoch + 1
          else ((s.chs[ch]).ctl.afterHold k s.glb.variant.layers s.strobe).epoch } } := by
  cases k with
  | incremental => simp only [State.afterHold, reduceCtorEq, if_false, modCtl_ch, modTsv_ch]
  | full => simp only [State.afterHold, if_true, bumpEpoch_ch, modCtl_ch, modTsv_ch]

theorem afterHold_cmd (s : State) (ch : Fin 64) (k : RetrainKind) (w : W32) : (s.afterHold ch k w).cmd = s.cmd := by
  cases k <;> rfl

section HoldEnd

variable {h : Hold} {age : AgeCounts} (hd : (s.chs[ch]).tsv.deferred = []) (hrec : (s.chs[ch]).ctl.recovery = false)
  (hw : (s.chs[ch]).ctl.waiting = [])
include hd hrec hw

/-- With no connection to handle, no recovery and no request waiting, the end of a hold does no more than that. -/
theorem endHold_eq : s.endHold ch h false [] age = s.afterHold ch h.kind (ageWord age) := by
  have e : s.endHold ch h false [] age = (let u := s.afterHold ch h.kind (ageWord age)
      let u := (orderDead ((s.chs[ch]).tsv.deferred ++ [])).foldl (fun s c => s.declareDead ch false c) u
      if (u.chs[ch]).ctl.recovery && h.kind = .full && !(u.chs[ch]).tsv.offline && (u.chs[ch]).tsv.retrainDue ≠ some .full then
        u.endRecovery ch else u.drainWaiting ch) := rfl
  obtain ⟨ls, hc⟩ := afterHold_eq (s.chs[ch]).ctl h.kind s.glb.variant.layers s.strobe
  have hr : ((s.afterHold ch h.kind (ageWord age)).chs[ch]).ctl.recovery = false := by
    rw [afterHold_ch, hc]
    exact hrec
  have hv : ((s.afterHold ch h.kind (ageWord age)).chs[ch]).ctl.waiting = [] := by
    rw [afterHold_ch, hc]
    exact hw
  simp only [e, hd, List.append_nil, orderDead_nil, List.foldl_nil, hr, Bool.false_and, Bool.false_eq_true, if_false]
  exact drainWaiting_of_nil hv

theorem exec_retrainHoldEnd (hh : (s.chs[ch]).tsv.hold = some h) (hl : h.start + holdLength s.glb.variant h.kind ≤ s.strobe)
    (hn : ∀ w ∈ s.cmd.waits, w.kind ≠ .retrain ch true) :
    exec (.retrainHoldEnd ch false [] age) s = .next (s.afterHold ch h.kind (ageWord age)) := by
  simp only [exec, execRetrainHoldEnd, holdOver_some hh hl, State.retrainEnds, endHold_eq hd hrec hw]
  rw [afterHold_cmd, foldl_of_not_mem _ _ hn]

end HoldEnd

theorem retrainHoldEnds (k : RetrainKind) (w : W32) (hs : (s.chs[ch]).ctl.state = .hold) (hrec : (s.chs[ch]).ctl.recovery = false)
    (hf : (s.chs[ch]).ctl.fill = false) : let t := s.afterHold ch k w
    (t.chs[ch]).tsv.hold = none ∧ (t.chs[ch]).tsv.sinceTrain = 0 ∧
    (t.chs[ch]).ctl.state = .run ∧ (t.chs[ch]).tsv.ageNow = w ∧
    (k = .full → (t.chs[ch]).tsv.ageBase = w ∧
      (t.chs[ch]).ctl.epoch = (s.chs[ch]).ctl.epoch + 1 ∧ (t.chs[ch]).ctl.rowFrom = s.strobe + 64) ∧
    (k = .incremental → (t.chs[ch]).tsv.ageBase = (s.chs[ch]).tsv.ageBase ∧ (t.chs[ch]).ctl.epoch = (s.chs[ch]).ctl.epoch) := by
  obtain ⟨ls, hc⟩ := afterHold_eq (s.chs[ch]).ctl k s.glb.variant.layers s.strobe
  simp only [afterHold_ch, hc, hs, hrec, hf]
  cases k with
  | incremental => exact ⟨rfl, rfl, rfl, rfl, nofun, fun _ => ⟨rfl, rfl⟩⟩
  | full => exact ⟨rfl, rfl, rfl, rfl, fun _ => ⟨rfl, rfl, rfl⟩, nofun⟩

theorem retrainsRun : Part.RetrainsRun := by
  refine ⟨fun s ch a ho ha => ⟨fun hx => ?_, fun hx hn => ?_, fun hx hr => ?_⟩, fun s ch ho hl => exec_strobeLimitReached ho hl,
    fun s ch k hd hr hrec hf => ⟨fun hn => ?_, fun hn => ?_⟩, fun s ch failed found age hn => ?_,
    fun s ch h age hh hl hd hs hrec hf hw hn => ?_⟩
  · exact (exec_driftCheck ho ha).trans (if_pos hx)
  · have hr : s.driftRecent ch = false := by
      rw [Bool.eq_false_iff, ne_eq, driftRecent_iff]
      rintro ⟨k, hk, hlt⟩
      exact absurd hlt (not_lt.mpr (hn k hk))
    rw [exec_driftCheck ho ha, ageWord, hx, hr]
    rfl
  · rw [exec_driftCheck ho ha, ageWord, hx, driftRecent_iff.mpr hr]
    rfl
  · rw [exec_retrainHoldStart hd hr hrec hf, neighbourHeld_iff.mpr hn, if_pos rfl]
  · have hnn : s.neighbourHeld ch = false := by
      rw [Bool.eq_false_iff, ne_eq, neighbourHeld_iff]
      rintro ⟨n, hne, hdist, hhold⟩
      exact hhold (hn n hne hdist)
    refine ⟨s.beginHold ch k, ?_, retrainHoldStarts hr⟩
    rw [exec_retrainHoldStart hd hr hrec hf, hnn]
    rfl
  · have hn : s.holdOver ch = none := by
      refine holdOver_none.mpr (hn.imp_right ?_)
      rintro ⟨⟨k, start⟩, hh, hl⟩
      exact ⟨_, hh, by cases k <;> exact hl⟩
    simp only [exec, execRetrainHoldEnd, hn]
  · have hl : h.start + holdLength s.glb.variant h.kind ≤ s.strobe := by
      obtain ⟨k, start⟩ := h
      cases k <;> exact hl
    exact ⟨_, exec_retrainHoldEnd hd hrec hw hh hl hn, retrainHoldEnds _ _ hs hrec hf⟩

/-! Injections and sweeps. -/

section Injections

variable {p : Path} {m : MasterId}

section Arm

variable {e : Ecc} {v : W32}

theorem arm_none (h : fieldN v 0 3 = 0 ∨ 5 < fieldN v 0 3) : e.arm v = e := if_pos (by simpa using h)

variable (h1 : 1 ≤ fieldN v 0 3) (h5 : fieldN v 0 3 ≤ 5)
include h1 h5

theorem arm_eq : e.arm v = if bit v 3 then { e with injScrub := fieldN v 0 3 } else { e with injReq := fieldN v 0 3 } :=
  if_neg (by simpa using ⟨Nat.ne_of_gt h1, h5⟩)

theorem arm_req (h3 : v.getLsbD 3 = false) : e.arm v = { e with injReq := fieldN v 0 3 } := by
  rw [arm_eq h1 h5, bit, h3]
  rfl

theorem arm_scrub (h3 : v.getLsbD 3 = true) : e.arm v = { e with injScrub := fieldN v 0 3 } := by
  rw [arm_eq h1 h5, bit, h3]
  rfl

end Arm

theorem injectionsAreArmed : Part.InjectionsAreArmed := by
  refine fun s p m ch => ⟨fun hw => ⟨?_, ?_, fun ho => ?_⟩, fun hw => ⟨?_, ?_⟩,
    fun hw v => ⟨fun h => ?_, fun h1 h5 h3 => ?_, fun h1 h5 h3 => ?_⟩, fun hw => ⟨?_, ?_⟩, fun hw => ⟨fun hc => ?_, fun hc => ?_⟩⟩
  · simp only [exec, execTsvParityInject, guardWrite_ok hw]
  · simp only [exec, execTsvWalkSweep, guardWrite_ok hw]
    rfl
  · simp only [exec, execTsvRetrainInc, guardWrite_ok hw]
    rw [modTsv_congr (g := fun t => { t with retrainDue := some (if t.retrainDue = some .full then .full else .incremental) })]
    simp only [askRetrain_online ho, reduceCtorEq, false_or]
  · simp only [exec, execCaUncorrInject, guardWrite_ok hw]
  · simp only [exec, execCaCorrInject, guardWrite_ok hw]
  · simp only [exec, execEccInject, guardWrite_ok hw]
    rw [modEcc_id (arm_none h)]
  · simp only [exec, execEccInject, guardWrite_ok hw, arm_req h1 h5 h3]
  · simp only [exec, execEccInject, guardWrite_ok hw, arm_scrub h1 h5 h3]
  · simp only [exec, execCtrTagInject, guardWrite_ok hw]
  · simp only [exec, execDataTagInject, guardWrite_ok hw]
  · simp only [exec, execRbtCommit, guardCore_ok hw hc]
  · simp only [exec, execRbtCommit, guardCore_other hw hc]

end Injections

/-- Settles O35: an incremental or full hold is `beginHold`, whose channel is `beginHold_ch`; its end is `afterHold`. -/
theorem retrainsAndInjections : Obligations.RetrainsAndInjections := ⟨retrainsRun, injectionsAreArmed⟩

end Sys2Proof.Machine
end

section
/-! PROOFS. The choice and the grant of a slot (R75-R77, R213), and the maintenance slots (R50, R76, R79-R82, R87, R89). -/

namespace Sys2Proof.Machine

variable {s : State} {ch : Fin 64} {k : Nat}

/-! Candidates (R75, R213). -/

section Candidates

variable {c : Ctl} {cls rev cmd : Nat}

/-- At the high mark the writes go first. -/
theorem ownCand_high (hq : c.wqHigh ≤ c.wq.length) (h : (c.wmCand (some cls) cmd).isSome = true) :
    c.ownCand cls rev cmd = c.wmCand (some cls) cmd := by
  rw [Ctl.ownCand, if_pos hq, Option.or_of_isSome h]

theorem ownCand_below (hq : c.wq.length < c.wqHigh) : c.ownCand cls rev cmd = (c.raCand cls rev cmd).or
    ((c.wmCand (some cls) cmd).or (if c.wqLow < c.wq.length then c.wmCand none cmd else none)) := by
  rw [Ctl.ownCand, if_neg (not_le.mpr hq), Option.none_or]

theorem ownCand_oldest (hr : c.raCand cls rev cmd = none) (hw : c.wmCand (some cls) cmd = none) (hq : c.wqLow < c.wq.length) :
    c.ownCand cls rev cmd = c.wmCand none cmd := by
  rw [Ctl.ownCand, hr, hw, if_pos hq, ite_self, Option.none_or, Option.none_or, Option.none_or]

theorem wmCand_logFull {o : Option Nat} (h : 512 ≤ c.log.length) : c.wmCand o cmd = none :=
  if_pos (le_trans h (Nat.le_add_right ..))

theorem raCand_bankReady {x : Cand} (h : c.raCand cls rev cmd = some x) : c.bankReady x.row cmd = true := by
  obtain ⟨q, hq, rfl⟩ := Option.map_eq_some_iff.mp h
  obtain hq | ⟨-, hq⟩ := Option.or_eq_some_iff.mp hq <;>
  · have hp := List.find?_some hq
    simp only [Bool.and_eq_true] at hp
    tauto

theorem borrow_shared {r : Rbt} {x : Cand} (h : c.lendCand 15 rev cmd = some x) : c.borrow r rev cmd = some (15, x) := by
  simp only [Ctl.borrow, h]

theorem borrow_off {r : Rbt} (h : c.lendCand 15 rev cmd = none) (hr : r.borrowOff = true) : c.borrow r rev cmd = none := by
  simp only [Ctl.borrow, h, hr, if_true]

end Candidates

/-! The arbiters (R76). -/

theorem windowSum_append (a b : List (Nat × Nat)) (u : Nat) : windowSum (a ++ b) u = windowSum a u + windowSum b u := by
  simp only [windowSum, List.filter_append, List.map_append, List.sum_append]

theorem grants_iff {l : List (Nat × Nat)} {t w : Nat} : grants l t w = true ↔ ∀ i, i < 10 → windowSum l (t - i) + w ≤ 16 := by
  simp only [grants, List.all_eq_true, List.mem_range, decide_eq_true_eq]

section Activate

variable {layer t w : Nat}

theorem activate_some (h : ∀ i, i < 10 → windowSum (s.refRoom ch layer t ++ smGetD s.acts (arbKey ch layer) []) (t - i) + w ≤ 16) :
    s.activate ch layer t w = some { s with
      acts := smPut s.acts (arbKey ch layer) (((t, w) :: smGetD s.acts (arbKey ch layer) []).filter (fun x => s.strobe < x.1 + 20)),
      arb := smPut s.arb (arbKey ch layer) ch.val } :=
  if_pos (grants_iff.mpr h)

theorem activate_bound {u : State} (h : s.activate ch layer t w = some u) :
    ∀ i, i < 10 → windowSum (smGetD s.acts (arbKey ch layer) []) (t - i) + w ≤ 16 := by
  intro i hi
  simp only [State.activate, Option.ite_none_right_eq_some, grants_iff] at h
  have hsum := h.1 i hi
  rw [windowSum_append] at hsum
  omega

theorem activate_frame {u : State} (h : s.activate ch layer t w = some u) : u = { s with acts := u.acts, arb := u.arb } := by
  simp only [State.activate, Option.ite_none_right_eq_some, Option.some.injEq] at h
  rw [← h.2]

end Activate

/-! The decision for one channel's slot (R75). -/

section Decide

variable {p : Proposal} {x : Cand}

theorem noteBorrower_ctl (s : State) (p : Proposal) : ((s.noteBorrower p).chs[p.ch]).ctl = (s.chs[p.ch]).ctl := by
  unfold State.noteBorrower
  split
  · rw [modRbt_ch]
  · rfl

theorem decideSlot_denied (hc : p.cand = some x) (ha : (s.noteBorrower p).activate p.ch (rowOfKey x.row).layer (k - 4) 1 = none) :
    s.decideSlot k p = (s.noteBorrower p).modCtl p.ch (fun c => { c with
      outs := c.outs ++ [{ slot := k, denied := true }],
      denyGuar := if p.guar then satAdd c.denyGuar 1 else c.denyGuar,
      denyOther := if p.guar then c.denyOther else satAdd c.denyOther 1 }) := by
  simp only [State.decideSlot, hc, ha, State.noteSlot, modCtl_modCtl]
  cases p.guar <;> rfl

/-- What a granted candidate's slot is noted as. -/
def Cand.out (c : Ctl) (x : Cand) (k : Nat) : SlotOut :=
  { slot := k, cls := some x.cls, bytes := match x.cmd with
      | .ra _ _ => 1024
      | _ => 64 * countIf (List.range 16) (fun i => bit (c.rowMask x.row) i) }

theorem decideSlot_granted (hc : p.cand = some x) {u : State}
    (ha : (s.noteBorrower p).activate p.ch (rowOfKey x.row).layer (k - 4) 1 = some u) :
    s.decideSlot k p = u.modCtl p.ch (fun c => ({ c with outs := c.outs ++ [x.out (s.chs[p.ch]).ctl k] } : Ctl).choose k x) := by
  have hu : (u.chs[p.ch]).ctl = (s.chs[p.ch]).ctl := by
    rw [activate_frame ha]
    exact noteBorrower_ctl s p
  simp only [State.decideSlot, hc, ha, State.noteSlot, modCtl_modCtl, hu]
  rfl

/-- What the choice for a slot leaves as it is, of the parts that SLOT_SCHEDULE names. -/
def State.still (s : State) : Nat × Nat × Memory × Sec × Cmd := (s.slot, s.strobe, s.dram, s.sec, s.cmd)

theorem noteBorrower_still (s : State) (p : Proposal) : (s.noteBorrower p).still = s.still := by
  unfold State.noteBorrower
  split <;> rfl

theorem drainSts_still (s : State) (ch : Fin 64) (k : Nat) : (s.drainSts ch k).still = s.still := by
  unfold State.drainSts
  dsimp only
  split
  · split <;> rfl
  · rfl

theorem decideSlot_still (s : State) (p : Proposal) : (s.decideSlot k p).still = s.still := by
  cases hc : p.cand with
  | none =>
    simp only [State.decideSlot, hc]
    split
    · exact drainSts_still ..
    · rfl
  | some x =>
    cases ha : (s.noteBorrower p).activate p.ch (rowOfKey x.row).layer (k - 4) 1 with
    | none =>
      rw [decideSlot_denied hc ha]
      exact noteBorrower_still s p
    | some u =>
      rw [decideSlot_granted hc ha, activate_frame ha]
      exact noteBorrower_still s p

theorem schedule_still (s : State) (k : Nat) : (s.schedule k).still = (k, s.still.2) :=
  foldl_keeps State.still decideSlot_still ..

end Decide

theorem slotsAreChosenAndGranted : Part.SlotsAreChosenAndGranted := by
  refine ⟨fun c cls rev cmd => ⟨ownCand_high, fun hq hr => ?_, fun hq hr hw => ?_, ownCand_oldest, wmCand_logFull,
    fun x => raCand_bankReady⟩, fun c r rev cmd => ⟨fun x => borrow_shared, borrow_off⟩,
    fun s => ⟨fun h => if_pos h, fun h => ?_⟩, fun s ch layer t w => ⟨fun u => activate_bound, activate_some⟩,
    fun s k p x hc => ⟨decideSlot_denied hc, fun u hu => ?_⟩⟩
  · rw [ownCand_below hq, Option.or_of_isSome hr]
  · rw [ownCand_below hq, hr, Option.none_or, Option.or_of_isSome hw]
  · have hs := schedule_still s (s.strobe + 12)
    simp only [State.still, Prod.mk.injEq] at hs
    obtain ⟨hslot, hstrobe, hdram, hsec, hcmd⟩ := hs
    exact ⟨s.schedule (s.strobe + 12), if_neg (not_le.mpr h), hslot, hstrobe, hdram, hsec, hcmd, by rw [hslot]; rfl⟩
  · have hctl : (u.chs[p.ch]).ctl = (s.chs[p.ch]).ctl := by
      rw [activate_frame hu]
      exact noteBorrower_ctl s p
    simp only [decideSlot_granted hc hu, modCtl_ch, hctl]
    exact ⟨rfl, rfl, _, rfl, rfl, rfl, rfl⟩

/-! REFRESH_DUE (R79-R82). -/

theorem exec_refreshDue {l : Nat} (ho : (s.chs[ch]).tsv.offline = false) (hoff : (s.chs[ch]).ctl.state ≠ .off)
    (hsr : (s.chs[ch]).ctl.state ≠ .selfRefresh) (hl : (s.chs[ch]).ctl.lastRefDue = some l) :
    exec (.refreshDue ch) s = if l + s.refInterval ch ≤ s.strobe then
      .next (s.modCtl ch (fun c => { c with lastRefDue := some (l + s.refInterval ch), refDue := c.refDue ++ [l + s.refInterval ch] }))
    else .next s := by
  simp only [exec, execRefreshDue, ho, hoff, hsr, hl, decide_false, Bool.or_false, Bool.false_eq_true, if_false]

/-! The maintenance slot (R50, R79, R87, R89). -/

/-- The channel has come to its next maintenance slot. -/
def State.atMaint (s : State) (ch : Fin 64) : State := s.modCtl ch (fun x => { x with lastMaint := s.nextMaint ch })

theorem atMaint_ch (s : State) (ch : Fin 64) : (s.atMaint ch).chs[ch] =
    { s.chs[ch] with ctl := { (s.chs[ch]).ctl with lastMaint := s.nextMaint ch } } := modCtl_ch ..

theorem atMaint_nextRef (s : State) (ch : Fin 64) : (s.atMaint ch).nextRef ch = s.nextRef ch := by
  simp only [State.nextRef, atMaint_ch]
  rfl

theorem exec_maintenanceSlot (ho : (s.chs[ch]).tsv.offline = false) (hoff : (s.chs[ch]).ctl.state ≠ .off)
    (hsr : (s.chs[ch]).ctl.state ≠ .selfRefresh) (htr : (s.chs[ch]).ctl.state ≠ .training) : exec (.maintenanceSlot ch) s =
      .next ((s.atMaint ch).maintain ch (s.nextMaint ch)) := by
  simp only [exec, execMaintenanceSlot, ho, hoff, hsr, htr, decide_false, Bool.or_false, Bool.false_eq_true, if_false,
    State.atMaint]

theorem maintain_ref (hd : (s.chs[ch]).ctl.refDue ≠ []) (hr : (s.chs[ch]).refreshes = true)
    (ha : s.activateRef ch (s.nextRef ch).1 k ≠ none) : s.maintain ch k = s.issueRef ch k :=
  if_pos (by simp [-Fin.getElem_fin, hd, hr, Option.isSome_iff_ne_none, ha])

section NoRef

variable (hno : (s.chs[ch]).ctl.refDue = [] ∨ s.activateRef ch (s.nextRef ch).1 k = none) (hh : (s.chs[ch]).tsv.hold = none)
  (hf : (s.chs[ch]).ctl.cmdFrom + 4 ≤ k)
include hno

theorem noRef : (!(s.chs[ch]).ctl.refDue.isEmpty && (s.chs[ch]).refreshes && (s.activateRef ch (s.nextRef ch).1 k).isSome) = false := by
  obtain h | h := hno <;> simp [-Fin.getElem_fin, h]

include hh hf

theorem maintain_drain (hs : (s.chs[ch]).ctl.state = .draining) (hr : (s.chs[ch]).ctl.recovery = false) :
    s.maintain ch k = s.decideSlot k { ch := ch, cand := (s.chs[ch]).ctl.wmCand none (k - 4) } := by
  simp only [State.maintain, noRef hno, hh, hs, hr, not_lt.mpr hf, decide_false, decide_true, Bool.or_false, Bool.not_false, Bool.and_true,
    Bool.false_eq_true, if_false, if_true]

theorem maintain_recovery (hr : (s.chs[ch]).ctl.recovery = true) : s.maintain ch k = s.recoveryStep ch k := by
  simp only [State.maintain, noRef hno, hh, hr, not_lt.mpr hf, decide_false, Bool.or_false, Bool.not_true, Bool.and_false,
    Bool.false_eq_true, if_false, if_true]

variable (hs : (s.chs[ch]).ctl.state = .run) (hr : (s.chs[ch]).ctl.recovery = false) (hfill : (s.chs[ch]).ctl.fill = false)
include hs hr hfill

/-- A channel that runs gives the slot to its walking step. -/
theorem maintain_walk {w : WalkRun} (hw : (s.chs[ch]).tsv.nextWalk = some w) : s.maintain ch k =
    let v := s.modCtl ch (fun c => { c with polled := false })
    if (s.chs[ch]).tsv.walkReading then v.issueSts ch k else v.sweepStep ch k w := by
  simp only [State.maintain, noRef hno, Channel.holds, hh, hs, hr, hfill, hw, not_lt.mpr hf, reduceCtorEq, decide_false, Bool.or_false,
    Bool.false_and, Bool.false_eq_true, if_false]

/-- Without a walking step the slot goes to CA_CHECK, the scrubber or an STS, in that order. -/
theorem maintain_noWalk (hw : (s.chs[ch]).tsv.nextWalk = none) : s.maintain ch k =
    let v := s.modCtl ch (fun c => { c with polled := false })
    if (s.chs[ch]).ctl.caCheckDue && !(s.chs[ch]).ctl.caCheckRun then v.modCtl ch (fun c => { c with caCheckRun := true })
    else if (s.chs[ch]).ctl.polled && v.scrubReady ch then v.issueScrub ch k
    else v.issueSts ch k := by
  simp only [State.maintain, noRef hno, Channel.holds, hh, hs, hr, hfill, hw, not_lt.mpr hf, reduceCtorEq, decide_false, Bool.or_false,
    Bool.false_and, Bool.false_eq_true, if_false]

end NoRef

/-! What a maintenance slot issues. -/

theorem issueSts_eq (s : State) (ch : Fin 64) (k : Nat) : s.issueSts ch k = s.modCtl ch (fun x => { x with
    chosen := (s.chs[ch]).ctl.chosen ++ [{ slot := k, cmd := .sts (s.chs[ch]).ctl.stsNext }],
    stsNext := ((s.chs[ch]).ctl.stsNext + 1) % s.glb.variant.layers, polled := true }) := by
  simp only [State.issueSts, State.chooseCmd, modCtl_modCtl]
  exact modCtl_congr rfl

/-- A REF costs at least its four activations. -/
theorem activateRef_bound {layer : Nat} {u : State} (h : s.activateRef ch layer k = some u) :
    ∀ i, i < 10 → windowSum (smGetD s.acts (arbKey ch layer) []) (k - 4 - i) + 4 ≤ 16 := by
  intro i hi
  simp only [State.activateRef, Option.ite_none_right_eq_some, grants_iff] at h
  have hsum := h.1 i hi
  omega

theorem activateRef_chs {layer : Nat} {u : State} (h : s.activateRef ch layer k = some u) : u.chs = s.chs := by
  simp only [State.activateRef, Option.ite_none_right_eq_some, Option.some.injEq] at h
  rw [← h.2]

theorem issueRef_eq {u : State}
    (h : s.activateRef ch ((s.chs[ch]).ctl.nextBank % s.glb.variant.layers) k = some u) :
    let n := s.glb.variant.layers
    let layer := (s.chs[ch]).ctl.nextBank % n
    let bank := (s.chs[ch]).ctl.nextBank / n
    s.issueRef ch k = u.modCtl ch (fun c => { c with
      refDue := c.refDue.drop 1, chosen := c.chosen ++ [{ slot := k, cmd := .ref (layer * 4 + bank) c.nextGroup }],
      bankFree := smPut c.bankFree (layer * 4 + bank) (max (smGetD c.bankFree (layer * 4 + bank) 0) (k - 4) + 64),
      nextBank := (c.nextBank + 1) % (4 * n),
      nextGroup := if c.nextBank + 1 = 4 * n then (c.nextGroup + 1) % 128 else c.nextGroup }) := by
  simp only [State.issueRef, h]

/-- A channel that moves or refreshes rows comes to its maintenance slots. -/
theorem exec_maintenanceSlot_moving (ho : (s.chs[ch]).tsv.offline = false)
    (hst : (s.chs[ch]).ctl.state = .run ∨ (s.chs[ch]).ctl.state = .hold ∨ (s.chs[ch]).ctl.state = .draining) :
    exec (.maintenanceSlot ch) s = .next ((s.atMaint ch).maintain ch (s.nextMaint ch)) := by
  obtain h | h | h := hst <;> exact exec_maintenanceSlot ho (by simp only [h]; decide) (by simp only [h]; decide) (by simp only [h]; decide)

theorem refreshes_of_noHold (ho : (s.chs[ch]).tsv.offline = false) (hh : (s.chs[ch]).tsv.hold = none)
    (hst : (s.chs[ch]).ctl.state = .run ∨ (s.chs[ch]).ctl.state = .hold ∨ (s.chs[ch]).ctl.state = .draining) :
    (s.atMaint ch).chs[ch].refreshes = true := by
  simp only [atMaint_ch, Channel.refreshes, ho, hh]
  obtain h | h | h := hst <;> simp only [h] <;> rfl

theorem maintenanceSlotsCarryRefreshFirst : Part.MaintenanceSlotsCarryRefreshFirst := by
  refine ⟨fun s ch l ho hoff hsr hl => ⟨fun h => ?_, fun h => ?_⟩, fun s ch ho hh => ?_, issueSts_eq,
    fun s ch k u h => ⟨activateRef_bound h, issueRef_eq h⟩⟩
  · exact (exec_refreshDue ho hoff hsr hl).trans (if_pos h)
  · exact (exec_refreshDue ho hoff hsr hl).trans (if_neg (not_le.mpr h))
  have hu : (s.atMaint ch).chs[ch] = _ := atMaint_ch s ch
  refine ⟨fun hst hd ha => ?_, fun hno hf => ?_⟩
  · rw [exec_maintenanceSlot_moving ho hst, maintain_ref (by rwa [hu]) (refreshes_of_noHold ho hh hst) (by rwa [atMaint_nextRef])]
    rfl
  have hno' : ((s.atMaint ch).chs[ch]).ctl.refDue = [] ∨
      (s.atMaint ch).activateRef ch ((s.atMaint ch).nextRef ch).1 (s.nextMaint ch) = none := by
    rwa [atMaint_nextRef, hu]
  have hh' : ((s.atMaint ch).chs[ch]).tsv.hold = none := by rwa [hu]
  have hf' : ((s.atMaint ch).chs[ch]).ctl.cmdFrom + 4 ≤ s.nextMaint ch := by rwa [hu]
  refine ⟨fun hst hr => ?_, fun hst hr => ?_, fun hst hr hfill => ?_⟩
  · rw [exec_maintenanceSlot_moving ho (.inr (.inr hst)), maintain_drain hno' hh' hf' (by rwa [hu]) (by rwa [hu])]
    rfl
  · rw [exec_maintenanceSlot_moving ho (.inr hst), maintain_recovery hno' hh' hf' (by rwa [hu])]
    rfl
  have hst' : ((s.atMaint ch).chs[ch]).ctl.state = .run := by rwa [hu]
  have hr' : ((s.atMaint ch).chs[ch]).ctl.recovery = false := by rwa [hu]
  have hfill' : ((s.atMaint ch).chs[ch]).ctl.fill = false := by rwa [hu]
  rw [exec_maintenanceSlot_moving ho (.inl hst)]
  refine ⟨fun w hw => ?_, fun hw => ?_⟩
  · rw [maintain_walk hno' hh' hf' hst' hr' hfill' (by rwa [hu]), hu]
    exact ⟨fun hrd => congrArg _ (if_pos hrd), fun hrd => congrArg _ (if_neg (Bool.eq_false_iff.mp hrd))⟩
  · rw [maintain_noWalk hno' hh' hf' hst' hr' hfill' (by rwa [hu]), hu]
    refine ⟨fun hca hrun => ?_, fun hca => ?_⟩
    · simp only [hca, hrun]
      rfl
    have hca' : ((s.chs[ch]).ctl.caCheckDue && !(s.chs[ch]).ctl.caCheckRun) = false := by
      obtain h | h := hca <;> simp [-Fin.getElem_fin, h]
    simp only [hca', Bool.false_eq_true, if_false]
    refine ⟨fun hp hs => congrArg _ (if_pos ?_), fun hps => congrArg _ (if_neg ?_)⟩
    · rw [hp]
      exact hs
    · rw [Bool.and_eq_true, not_and_or, Bool.not_eq_true, Bool.not_eq_true]
      exact hps

/-- Settles O32: the candidates by their order, the arbiters by the sum of each window of ten strobes, the maintenance slot by the branches
of `State.maintain`. -/
theorem slotsAreScheduled : Obligations.SlotsAreScheduled := ⟨slotsAreChosenAndGranted, maintenanceSlotsCarryRefreshFirst⟩

end Sys2Proof.Machine
end

section
/-! PROOFS. Failures of the row path: dead connections (R52-R55), status reads and CA_CHECK (R84, R86, R87), walking steps (R50, R51, R62). -/

namespace Sys2Proof.Machine

variable {s : State} {ch : Fin 64}

/-! Dead data connections (R52-R54). -/

/-- A data spare that is steered in takes no other spare out: those that can be steered out are of the command and parity groups. -/
theorem steerIn_data {t : Tsv} {k : Nat} (hk : k < 160) (pos : Nat) :
    t.steerIn k pos = { t with spares := smPut t.spares k { used := true, inService := true, pos := pos } } := by
  have hmap : t.spares.map (fun x => if 160 ≤ x.1 && x.1 < 164 && x.1 / 2 = k / 2 && x.2.failed && x.2.pos = pos
      then (x.1, { x.2 with used := false }) else x) = t.spares := by
    refine List.map_id'' (fun x => if_neg ?_) _
    simp only [Bool.and_eq_true, decide_eq_true_eq]
    omega
  rw [Tsv.steerIn, hmap]

section DeadData

variable {auto : Bool} {c : Conn} (hk : c.kind = .data) (ho : (s.chs[ch]).tsv.offline = false) (hn : (s.chs[ch]).tsv.known c = false)
include hk ho hn

theorem declareDead_spare (hi : c.idx < 10240) (hf : (s.chs[ch]).tsv.spareFree (c.idx / 64) = true)
    (ha : auto = true ∨ (s.chs[ch]).tsv.autoSpare = true) :
    s.declareDead ch auto c = (((s.modTsv ch (fun t => { t with deadLast := deadWord c })).modTsv ch (fun t => { t with
      spares := smPut t.spares (c.idx / 64) { used := true, inService := true, pos := c.idx % 64 } })).bumpEpoch ch).log
      (evTsvSpareUsed ch.val) (detail ch.val (deadWord c).toNat) acSequencer := by
  have hsp : ((s.chs[ch]).tsv.spareFree (c.idx / 64) && (auto || (s.chs[ch]).tsv.autoSpare)) = true := by
    simp only [hf, Bool.true_and, Bool.or_eq_true, ha]
  simp only [State.declareDead, ho, hn, hk, hsp, Bool.or_false, Bool.false_eq_true, if_false, if_true, State.steer,
    steerIn_data (show c.idx / 64 < 160 by omega), bumpEpoch_ch, modTsv_ch]

theorem declareDead_erase (hsp : ¬((s.chs[ch]).tsv.spareFree (c.idx / 64) = true ∧ (auto = true ∨ (s.chs[ch]).tsv.autoSpare = true))) :
    s.declareDead ch auto c = (s.modTsv ch (fun t => { t with deadLast := deadWord c })).erase ch c.idx := by
  have hsp : ((s.chs[ch]).tsv.spareFree (c.idx / 64) && (auto || (s.chs[ch]).tsv.autoSpare)) = false := by
    simpa only [Bool.eq_false_iff, ne_eq, Bool.and_eq_true, Bool.or_eq_true] using hsp
  simp only [State.declareDead, ho, hn, hk, hsp, Bool.or_false, Bool.false_eq_true, if_false]

end DeadData

section Erase

variable {c : Nat}

/-- A position that is not erased yet, of a line with fewer than three, is erased. -/
theorem erase_symbol (hs : c / 8 % 80 ∉ (s.chs[ch]).tsv.erased (c / 8 / 80)) (hl : ((s.chs[ch]).tsv.erased (c / 8 / 80)).length < 3)
    (hz : (s.chs[ch]).tsv.erasedCount ≠ 0) :
    s.erase ch c = ((s.modTsv ch (fun t => { t with
      dead := c :: t.dead,
      erase := smPut t.erase (c / 8 / 80) ((s.chs[ch]).tsv.erased (c / 8 / 80) ++ [c / 8 % 80]) })).bumpEpoch ch).log
      (evTsvErasure ch.val) (detail ch.val (s.chs[ch]).tsv.deadLast.toNat) acSequencer := by
  have hc : ((s.chs[ch]).tsv.erased (c / 8 / 80)).contains (c / 8 % 80) = false := by simpa [-Fin.getElem_fin] using hs
  simp only [State.erase, hc, not_le.mpr hl, Bool.false_eq_true, if_false, modTsv_modTsv, bumpEpoch_ch, modTsv_ch]
  exact if_neg hz

theorem erase_offline (h : c / 8 % 80 ∈ (s.chs[ch]).tsv.erased (c / 8 / 80) ∨ 3 ≤ ((s.chs[ch]).tsv.erased (c / 8 / 80)).length) :
    ∃ cause, s.erase ch c = (s.modTsv ch (fun t => { t with dead := c :: t.dead })).goOffline ch cause := by
  by_cases hs : c / 8 % 80 ∈ (s.chs[ch]).tsv.erased (c / 8 / 80)
  · exact ⟨1, if_pos (List.contains_iff_mem.mpr hs)⟩
  · exact ⟨2, (if_neg (mt List.contains_iff_mem.mp hs)).trans (if_pos (h.resolve_left hs))⟩

end Erase

/-! A channel goes offline (R55). -/

/-- The layers enter self-refresh where a stop of this cause reaches them. -/
def Ctl.stopLayers (c : Ctl) (n cause : Nat) : Ctl := if stopReaches cause then c.allLayers n RowCmd.sre else c

theorem stopLayers_eq (c : Ctl) (n cause : Nat) : ∃ ls, c.stopLayers n cause = { c with layers := ls } := by
  unfold Ctl.stopLayers
  split
  · exact allLayers_eq ..
  · exact ⟨c.layers, rfl⟩

theorem stopLayers_layer {c : Ctl} {n cause l : Nat} (hs : stopReaches cause = true) (hl : l < n) (hc : (c.layer l).lockout = false) :
    ((c.stopLayers n cause).layer l).selfRefresh = true := by
  rw [Ctl.stopLayers, if_pos hs, allLayers_sre_layer, if_pos ⟨hl, hc⟩]

/-- The row path's part of a channel that goes offline while `held` lines are queued. -/
def Tsv.stopped (t : Tsv) (held : Nat) : Tsv :=
  { t with
    offline := true, hold := none, retrainDue := none, targeted := [], walkDue := false, walk := none, deferred := [], caPending := [],
    clk := false, aligned := false, lostWrites := satAdd t.lostWrites held }

/-- The controller of a channel that goes offline. -/
def Ctl.stopped (c : Ctl) (n cause : Nat) : Ctl :=
  { c.stopLayers n cause with
    state := .offline, wq := [], rc := [], chosen := [], issued := [], recovery := false, program := 0xC, fill := false,
    caCheckDue := false, caCheckRun := false, log := [] }

/-- The channel has gone offline; the requests it held are still to be completed. -/
def State.stopped (s : State) (ch : Fin 64) (cause : Nat) : State :=
  ((s.bumpEpoch ch).modCh ch (fun c => { c with
    tsv := c.tsv.stopped c.ctl.wq.length,
    ctl := c.ctl.stopped s.glb.variant.layers cause,
    ecc := { c.ecc with reads := [], again := [], due := 0 } })).log (evChannelOffline ch.val) (detail ch.val cause) acSequencer

theorem goOffline_eq {cause : Nat} (ho : (s.chs[ch]).tsv.offline = false) :
    s.goOffline ch cause = (s.stopped ch cause).failHeld ch .channelOffline := by
  simp only [State.goOffline, ho, Bool.false_eq_true, if_false, State.stopped]
  congr 2
  cases hc : stopReaches cause
  all_goals
    simp only [Bool.false_eq_true, if_false, if_true, State.modTsv, State.modCtl, State.modEcc, modCh_modCh]
    exact modCh_congr (by simp only [Ctl.stopped, Ctl.stopLayers, hc, Bool.false_eq_true, if_false, if_true]; rfl)


/-- The controller after its requests have been completed. -/
def Ctl.freed (c : Ctl) : Ctl :=
  Ctl.trim { c with rq := [], waiting := [], wqWait := [], rc := c.rc.map (fun r => { r with pins := 0 }) }

theorem freed_of_noRows {c : Ctl} (h : c.rc = []) : c.freed = { c with rq := [], waiting := [], wqWait := [] } := by
  simp only [Ctl.freed, Ctl.trim, h, List.map_nil, List.filter_nil, ite_self]

theorem failHeld_of_none (h : s.heldRequests ch = []) (st : CStatus) : (s.failHeld ch st).chs = (s.modCtl ch Ctl.freed).chs ∧
    (s.failHeld ch st).glb = s.glb ∧ (s.failHeld ch st).dram = s.dram := by
  simp only [State.failHeld, h, List.foldl_nil]
  exact ⟨rfl, rfl, rfl⟩

theorem stopped_ch (s : State) (ch : Fin 64) (cause : Nat) : (s.stopped ch cause).chs[ch] = { s.chs[ch] with
    tsv := (s.chs[ch]).tsv.stopped (s.chs[ch]).ctl.wq.length,
    ctl := ({ (s.chs[ch]).ctl with epoch := (s.chs[ch]).ctl.epoch + 1 } : Ctl).stopped s.glb.variant.layers cause,
    ecc := { (s.chs[ch]).ecc with reads := [], again := [], due := 0 } } := by
  simp only [State.stopped, State.log_chs, modCh_ch, bumpEpoch_ch]

theorem stopped_ch_of_ne {n : Fin 64} (cause : Nat) (h : n ≠ ch) : (s.stopped ch cause).chs[n] = s.chs[n] := by
  simp only [State.stopped, State.log_chs, modCh_ch_of_ne _ h, bumpEpoch_ch_of_ne h]

theorem ctlStopped_eq (c : Ctl) (n cause : Nat) : ∃ ls, c.stopped n cause = { c with
    layers := ls, state := .offline, wq := [], rc := [], chosen := [], issued := [], recovery := false, program := 0xC, fill := false,
    caCheckDue := false, caCheckRun := false, log := [] } := by
  obtain ⟨ls, h⟩ := stopLayers_eq c n cause
  exact ⟨ls, by rw [Ctl.stopped, h]⟩

theorem heldRequests_stopped (s : State) (ch : Fin 64) (cause : Nat) : (s.stopped ch cause).heldRequests ch = s.heldRequests ch := by
  obtain ⟨ls, h⟩ := ctlStopped_eq ({ (s.chs[ch]).ctl with epoch := (s.chs[ch]).ctl.epoch + 1 }) s.glb.variant.layers cause
  simp only [State.heldRequests, stopped_ch, h]
  rfl

theorem channelGoesOffline {cause : Nat} (ho : (s.chs[ch]).tsv.offline = false) (hh : s.heldRequests ch = []) :
    let t := s.goOffline ch cause
    (t.chs[ch]).tsv.offline = true ∧ (t.chs[ch]).tsv.clk = false ∧ (t.chs[ch]).ctl.state = .offline ∧ (t.chs[ch]).ctl.wq = [] ∧
    (t.chs[ch]).ctl.rc = [] ∧ (t.chs[ch]).ctl.epoch = (s.chs[ch]).ctl.epoch + 1 ∧ t.glb.nodeEpoch = s.glb.nodeEpoch + 1 ∧
    (t.chs[ch]).tsv.lostWrites = satAdd (s.chs[ch]).tsv.lostWrites (s.chs[ch]).ctl.wq.length ∧
    (cause = 1 ∨ cause = 2 → ∀ l, l < s.glb.variant.layers → ((s.chs[ch]).ctl.layer l).lockout = false →
      ((t.chs[ch]).ctl.layer l).selfRefresh = true) ∧
    (∀ n : Fin 64, n ≠ ch → t.chs[n] = s.chs[n]) ∧ t.dram = s.dram := by
  intro t
  have ht : t = (s.stopped ch cause).failHeld ch .channelOffline := goOffline_eq ho
  obtain ⟨hchs, hglb, hdram⟩ := failHeld_of_none (by rw [heldRequests_stopped, hh] : (s.stopped ch cause).heldRequests ch = []) .channelOffline
  rw [← ht] at hchs hglb hdram
  obtain ⟨ls, hc⟩ := ctlStopped_eq ({ (s.chs[ch]).ctl with epoch := (s.chs[ch]).ctl.epoch + 1 }) s.glb.variant.layers cause
  have hrc : ((s.stopped ch cause).chs[ch]).ctl.rc = [] := by rw [stopped_ch, hc]
  have hch : t.chs[ch] = { (s.stopped ch cause).chs[ch] with
      ctl := { ((s.stopped ch cause).chs[ch]).ctl with rq := [], waiting := [], wqWait := [] } } := by
    rw [← freed_of_noRows hrc, ← modCtl_ch]
    exact congrArg (·[ch]) hchs
  have hlayers : ∀ l, (t.chs[ch]).ctl.layer l =
      Ctl.layer (({ (s.chs[ch]).ctl with epoch := (s.chs[ch]).ctl.epoch + 1 } : Ctl).stopLayers s.glb.variant.layers cause) l := by
    intro l
    rw [hch, stopped_ch]
    rfl
  have hothers : ∀ n : Fin 64, n ≠ ch → t.chs[n] = s.chs[n] := fun n hn =>
    (congrArg (·[n]) hchs).trans ((modCtl_ch_of_ne _ hn).trans (stopped_ch_of_ne cause hn))
  refine ⟨?_, ?_, ?_, ?_, ?_, ?_, ?_, ?_, fun hcause l hl hlock => ?_, hothers, hdram⟩
  · rw [hch, stopped_ch]
    rfl
  · rw [hch, stopped_ch]
    rfl
  · rw [hch, stopped_ch, hc]
  · rw [hch, stopped_ch, hc]
  · rw [hch, stopped_ch, hc]
  · rw [hch, stopped_ch, hc]
  · rw [hglb]
    rfl
  · rw [hch, stopped_ch]
    rfl
  · rw [hlayers]
    refine stopLayers_layer ?_ hl hlock
    obtain rfl | rfl := hcause <;> rfl

theorem deadConnectionsAreHandled : Part.DeadConnectionsAreHandled := by
  refine ⟨fun s ch auto c hk hi ho hn => ⟨fun hsp => declareDead_spare hk ho hn hi hsp.1 hsp.2, fun hsp hs hl hz => ?_, fun hsp hs => ?_⟩,
    fun s ch cause ho hh => channelGoesOffline ho hh⟩
  · rw [declareDead_erase hk ho hn hsp]
    refine (erase_symbol ?_ ?_ ?_).trans ?_
    · rw [modTsv_ch]
      exact hs
    · rw [modTsv_ch]
      exact hl
    · rw [modTsv_ch]
      exact hz
    · simp only [modTsv_ch, modTsv_modTsv]
      rfl
  · rw [declareDead_erase hk ho hn hsp]
    exact erase_offline (by simp only [modTsv_ch]; exact hs)

/-! Status reads (R84-R87). -/

theorem undriven_iff {layer : Nat} {mid : BitVec 14} : s.undriven ch layer mid = true ↔
    ((s.chs[ch]).ctl.layer layer).lockout = true ∨ 1024 < mid.toNat := by
  simp only [State.undriven, Bool.or_eq_true, decide_eq_true_eq]

theorem crossed_ch (s : State) (ch : Fin 64) (x : SlotCmd) : (s.crossed ch x).chs[ch] =
    { s.chs[ch] with ctl := { (s.chs[ch]).ctl with issued := (s.chs[ch]).ctl.issued.erase x } } := modCtl_ch ..

theorem crossed_undriven (s : State) (ch : Fin 64) (x : SlotCmd) (layer : Nat) (mid : BitVec 14) :
    (s.crossed ch x).undriven ch layer mid = s.undriven ch layer mid := by
  simp only [State.undriven, crossed_ch]
  rfl

/-- Without a mismatch there is nothing to handle. -/
theorem parityCheck_zero (s : State) (ch : Fin 64) (layer : Nat) (write : Bool) : s.parityCheck ch layer write 0 = s := by
  have he : (s.chs[ch]).tsv.parityErrors 0 = [] := by
    simp [-Fin.getElem_fin, Tsv.parityErrors, bit]
  simp only [State.parityCheck, he, List.foldl_nil, ite_self]
  rfl

/-- What an STS reads of a layer without a write-parity latch. -/
def Ctl.statusTaken (c : Ctl) (layer slot : Nat) : Ctl :=
  let l := c.layer layer
  { c with
    layers := smPut c.layers layer { l with corrected := 0, wparity := 0 }, caCount := satAdd c.caCount l.corrected.toNat,
    caLastConn := if l.corrected.toNat = 0 then c.caLastConn else BitVec.ofNat 6 l.lastConn.toNat,
    caLastLayer := if l.corrected.toNat = 0 then c.caLastLayer else BitVec.ofNat 4 layer,
    lastStsConn := if l.corrected.toNat = 0 then none else some l.lastConn.toNat,
    caCheckDue := c.caCheckDue || decide (l.corrected.toNat ≠ 0 ∧ c.lastStsConn = some l.lastConn.toNat),
    log := c.log.filter (fun w => (rowOfKey w.row).layer != layer || decide (slot ≤ w.slot)) }

theorem takeStatus_eq {layer : Nat} (slot : Nat) (hw : ((s.chs[ch]).ctl.layer layer).wparity = 0) :
    s.takeStatus ch layer slot = s.modCtl ch (·.statusTaken layer slot) := by
  simp only [State.takeStatus, hw, parityCheck_zero]
  refine modCtl_congr ?_
  simp only [Ctl.statusTaken, Ctl.modLayer, Bool.decide_and]

section Status

variable {layer slot : Nat} {mid : BitVec 14} {par : BitVec 20}

theorem statusReturns_eq (hr : (s.chs[ch]).ctl.recovery = false) : s.statusReturns ch layer slot mid par =
    if s.undriven ch layer mid then s.startRecovery ch
    else
      let u := s.takeStatus ch layer slot
      if (u.chs[ch]).tsv.offline then u else u.parityCheck ch layer false par := by
  have hid : s.modCtl ch (fun c => { c with recGot := if (s.chs[ch]).ctl.recovery then c.recGot + 1 else c.recGot }) = s :=
    modCtl_id (by rw [if_neg (by simp [-Fin.getElem_fin, hr])])
  simp only [State.statusReturns, hid]
  simp only [hr, Bool.false_eq_true, if_false]

theorem statusReturns_undriven (hu : s.undriven ch layer mid = true) (hr : (s.chs[ch]).ctl.recovery = false) :
    s.statusReturns ch layer slot mid par = s.startRecovery ch :=
  (statusReturns_eq hr).trans (if_pos hu)

theorem statusReturns_locked (hu : s.undriven ch layer mid = true) (hr : (s.chs[ch]).ctl.recovery = true) :
    s.statusReturns ch layer slot mid par =
      s.modCtl ch (fun c => { c with recGot := c.recGot + 1, locked := c.locked ++ [layer] }) := by
  have hu' : (s.modCtl ch (fun c => { c with recGot := c.recGot + 1 })).undriven ch layer mid = true := by
    rw [undriven_iff, modCtl_ch]
    exact undriven_iff.mp hu
  simp only [State.statusReturns, hr, if_true, hu', modCtl_modCtl]

theorem statusReturns_taken (hu : s.undriven ch layer mid = false) (hr : (s.chs[ch]).ctl.recovery = false)
    (hw : ((s.chs[ch]).ctl.layer layer).wparity = 0) :
    s.statusReturns ch layer slot mid 0 = s.modCtl ch (·.statusTaken layer slot) := by
  rw [statusReturns_eq hr, hu, ← takeStatus_eq slot hw]
  simp only [Bool.false_eq_true, if_false, parityCheck_zero, ite_self]

theorem exec_stsResult {x : SlotCmd} (h : (s.chs[ch]).ctl.crossing s.strobe isSts = some x) (hx : x.cmd = .sts layer) :
    exec (.stsResult ch mid par) s = .next ((s.crossed ch x).statusReturns ch layer x.slot mid par) := by
  simp only [exec, execStsResult, h, hx]

end Status

/-! CA_CHECK and the end of a recovery (R87). -/

theorem mayCheck_afterAln {c : Ctl} {now : Nat} (hr : c.recovery = true) (ha : c.recAln = true) (hc : c.recChecked = false)
    (hf : c.cmdFrom ≤ now) : c.mayCheck now = true := by
  simp only [Ctl.mayCheck, hr, ha, hc, hf, if_true, Bool.not_false, Bool.and_self, decide_true]

theorem exec_caCheck_none (ho : (s.chs[ch]).tsv.offline = false) (hm : (s.chs[ch]).ctl.mayCheck s.strobe = true) :
    exec (.caCheck ch []) s =
      let u := s.modCtl ch (fun c => { c with caCheckDue := false, caCheckRun := false, lastStsConn := none })
      if (s.chs[ch]).ctl.recovery = false then .next u
      else if (s.chs[ch]).tsv.retrainDue = some .full then .next (u.modCtl ch (fun c => { c with recChecked := true }))
      else .next (u.endRecovery ch) := by
  simp only [exec, execCaCheck, ho, hm, List.map_nil, orderDead_nil, List.foldl_nil, modCtl_ch]
  cases (s.chs[ch]).ctl.recovery <;> rfl

theorem poisonLost_of_noLog (h : (s.chs[ch]).ctl.log = []) :
    s.poisonLost ch = s.modCtl ch (fun c => { c with log := [], locked := [] }) := by
  simp only [State.poisonLost, h, List.filter_nil, logRows, List.foldl_nil]
  exact modCtl_congr (by rw [h, List.filter_nil])

/-- A recovery without logged WMs or waiting requests ends by its flags alone. -/
theorem endRecovery_of_noLog (hl : (s.chs[ch]).ctl.log = []) (hw : (s.chs[ch]).ctl.waiting = []) :
    s.endRecovery ch = s.modCtl ch (fun c => { c with
      log := [], locked := [], recovery := false, recChecked := false, state := if c.state = .hold && !c.fill then .run else c.state }) := by
  simp only [State.endRecovery, poisonLost_of_noLog hl, modCtl_modCtl]
  exact drainWaiting_of_nil (by rw [modCtl_ch]; exact hw)

theorem statusReadsAct : Part.StatusReadsAct := by
  refine ⟨fun s ch mid par h => ?_, fun s ch mid par x layer h hx ho => ⟨fun hu hr => ?_, fun hu hr => ?_, fun hu hr hw => ?_⟩,
    fun s ch ho hd hrun hr => ?_, fun s ch ho hr ha hck hf => ⟨fun hd => ?_, fun hd => ?_⟩, fun s ch hl hw => ?_⟩
  · simp only [exec, execStsResult, h]
  · have hu' := undriven_iff.mpr hu
    rw [exec_stsResult h hx, statusReturns_undriven (by rwa [crossed_undriven]) (by rwa [crossed_ch])]
  · have hu' := undriven_iff.mpr hu
    rw [exec_stsResult h hx, statusReturns_locked (by rwa [crossed_undriven]) (by rwa [crossed_ch])]
  · have hu' := Bool.eq_false_iff.mpr (mt undriven_iff.mp hu)
    rw [exec_stsResult h hx, statusReturns_taken (by rwa [crossed_undriven]) (by rwa [crossed_ch]) (by rw [crossed_ch]; exact hw)]
    refine congrArg _ (modCtl_congr ?_)
    rw [crossed_ch]
    rfl
  · rw [exec_caCheck_none ho (by simp only [Ctl.mayCheck, hr, hd, hrun]; rfl), hr]
    rfl
  · rw [exec_caCheck_none ho (mayCheck_afterAln hr ha hck hf), hr, hd]
    rfl
  · rw [exec_caCheck_none ho (mayCheck_afterAln hr ha hck hf), hr]
    exact if_neg hd
  · simp only [endRecovery_of_noLog hl hw, modCtl_ch]
    refine ⟨trivial, trivial, ?_, fun n hn => modCtl_ch_of_ne _ hn, rfl⟩
    cases (s.chs[ch]).ctl.fill <;> simp

/-! Walking steps (R50, R51). -/

theorem exec_walkStepDue (ho : (s.chs[ch]).tsv.offline = false) : exec (.walkStepDue ch) s =
    if ((s.chs[ch]).tsv.walkEn = true ∨ (s.chs[ch]).tsv.sweepForced = true) ∧ (s.chs[ch]).tsv.walkInterval ≤ (s.chs[ch]).tsv.walkRevs then
      .next (s.modTsv ch (fun t => { t with walkDue := true, walkRevs := 0 }))
    else .next s := by
  simp only [exec, execWalkStepDue, ho, Bool.not_false, Bool.and_true, Bool.and_eq_true, Bool.or_eq_true, decide_eq_true_eq]

section WalkRead

variable {misses : List Conn} {mid : BitVec 14} {x : SlotCmd} {layer : Nat}
  (h : (s.chs[ch]).ctl.crossing s.strobe isTlr = some x) (hx : x.cmd = .tlr layer)
include h hx

theorem exec_walkStep : exec (.walkStep ch misses mid) s = .next (if s.undriven ch layer mid then
      ((s.crossed ch x).modTsv ch (fun t => { t with walk := t.walk.map (fun w => { w with tlw := none, tlr := none }) })).startRecovery ch
    else (s.crossed ch x).walkCompare ch misses) := by
  simp only [exec, execWalkStep, h, hx, State.latchReturns, crossed_undriven]

end WalkRead

/-- One connection that mismatched is counted. -/
def addMiss (ms : List WalkMiss) (c : Conn) : List WalkMiss :=
  if ms.any (fun m => m.conn.kind = c.kind && m.conn.idx = c.idx) then
    ms.map (fun m => if m.conn.kind = c.kind && m.conn.idx = c.idx then { m with runs := m.runs + 1 } else m)
  else ms ++ [{ conn := c, runs := 1 }]

theorem addMiss_ne_nil (ms : List WalkMiss) (c : Conn) : addMiss ms c ≠ [] := by
  unfold addMiss
  split
  next h =>
    rw [ne_eq, List.map_eq_nil_iff]
    rintro rfl
    simp at h
  next => simp

theorem foldl_addMiss_ne_nil {ms : List WalkMiss} (cs : List Conn) (h : ms ≠ []) : cs.foldl addMiss ms ≠ [] := by
  induction cs generalizing ms with
  | nil => exact h
  | cons c cs ih => exact ih (addMiss_ne_nil ms c)

theorem addMisses_ne_nil (ms : List WalkMiss) (c : Conn) (cs : List Conn) : addMisses ms (c :: cs) ≠ [] := by
  have h : addMisses ms (c :: cs) = (c :: cs).eraseDups.foldl addMiss ms := rfl
  rw [h, List.eraseDups_cons]
  exact foldl_addMiss_ne_nil (ms := addMiss ms c) _ (addMiss_ne_nil ms c)

theorem satAdd_zero {w : Nat} (a : BitVec w) : satAdd a 0 = a := by
  simp [satAdd, a.isLt]

theorem declareAll_nil (auto : Bool) (h : (s.chs[ch]).tsv.hold = none) : s.declareAll ch auto [] = s := by
  simp only [State.declareAll, h, orderDead_nil, List.foldl_nil]

/-- Misses in one run of three are transients and no more (R51). -/
theorem walkOutcome_transients {misses : List WalkMiss} (hm : ∀ m ∈ misses, m.runs < 2) (hh : (s.chs[ch]).tsv.hold = none) :
    s.walkOutcome ch misses =
      s.modTsv ch (fun t => { t with transients := satAdd t.transients (countIf misses (fun m => m.runs == 1)) }) := by
  have hf : misses.filter (fun m => 2 ≤ m.runs) = [] :=
    List.filter_eq_nil_iff.mpr fun m hmem => by simpa using hm m hmem
  simp only [State.walkOutcome, hf, List.map_nil]
  exact declareAll_nil false (by rw [modTsv_ch]; exact hh)

section Compare

variable {w : WalkRun} (hw : (s.chs[ch]).tsv.walk = some w)
include hw

theorem walkCompare_clean (hh : (s.chs[ch]).tsv.hold = none) (hm : w.misses = []) :
    s.walkCompare ch [] = s.modTsv ch (fun t => t.walkEnds w s.glb.variant.layers) := by
  have hh' : ((s.modTsv ch (fun t => t.walkEnds w s.glb.variant.layers)).chs[ch]).tsv.hold = none := by
    rw [modTsv_ch, ← hh]
    simp only [Tsv.walkEnds]
    split <;> rfl
  have hms : addMisses w.misses [] = [] := by rw [hm]; rfl
  simp only [State.walkCompare, hw, hms, List.isEmpty_nil, Bool.true_or, if_true]
  rw [walkOutcome_transients (by simp) hh']
  refine modTsv_id ?_
  simp only [countIf, List.filter_nil, List.length_nil, satAdd_zero]

theorem walkCompare_again (c : Conn) (cs : List Conn) (hr : w.run < 2) : s.walkCompare ch (c :: cs) = s.modTsv ch (fun t => { t with
    walk := some { w with run := w.run + 1, tlw := none, tlr := none, misses := addMisses w.misses (c :: cs) } }) := by
  have he : (addMisses w.misses (c :: cs)).isEmpty = false := by
    simpa using addMisses_ne_nil w.misses c cs
  simp only [State.walkCompare, hw, he, not_le.mpr hr, decide_false, Bool.or_self, Bool.false_eq_true, if_false]

end Compare

theorem walkEnds_background {t : Tsv} {w : WalkRun} (n : Nat) (hw : w.targeted = false) : t.walkEnds w n = { t with
    walk := none, sweepPos := (t.sweepPos + 1) % (16 * n), sweepForced := t.sweepForced && decide (t.sweepPos + 1 ≠ 16 * n),
    sweeps := if t.sweepPos + 1 = 16 * n then t.sweeps + 1 else t.sweeps } := by
  simp only [Tsv.walkEnds, hw, Bool.false_eq_true, if_false]

theorem walkEnds_targeted {t : Tsv} {w : WalkRun} {layer p : Nat} {rest : List (Nat × Nat)} (n : Nat) (hw : w.targeted = true)
    (ht : t.targeted = (layer, p) :: rest) :
    t.walkEnds w n = { t with walk := none, targeted := if p = 15 then rest else (layer, p + 1) :: rest } := by
  simp only [Tsv.walkEnds, hw, ht, if_true]

theorem walkEnds_keeps (t : Tsv) (w : WalkRun) (n : Nat) : (t.walkEnds w n).walk = none ∧ (t.walkEnds w n).transients = t.transients := by
  unfold Tsv.walkEnds
  split <;> exact ⟨rfl, rfl⟩

theorem sweepsAct : Part.SweepsAct := by
  refine ⟨fun s ch ho => ⟨fun he hi => ?_, fun hno => ?_⟩, fun s ch k w => ⟨fun a ha hk => ?_, fun hn hk => ?_, fun hn hk => ?_⟩,
    fun s ch misses mid h => ?_, fun s ch misses mid x layer h hx => ⟨fun hu => ?_, fun hu => ?_⟩,
    fun s ch w hw hh => ⟨fun hm => ?_, fun c cs hr => walkCompare_again hw c cs hr⟩, fun s ch misses hm hh => walkOutcome_transients hm hh⟩
  · exact (exec_walkStepDue ho).trans (if_pos ⟨he, hi⟩)
  · rw [exec_walkStepDue ho, if_neg]
    rintro ⟨he, hi⟩
    obtain ⟨h1, h2⟩ | h := hno
    · simp [-Fin.getElem_fin, h1, h2] at he
    · exact absurd hi (not_le.mpr h)
  · refine ⟨s.modTsv ch (fun t => { t with
      walk := some { w with tlr := some k }, walkDue := t.walkDue && (t.walk.isSome || w.targeted) }), ?_, ?_⟩
    · simp only [State.sweepStep, ha, hk, if_true]
    · rw [modTsv_ch]
  · refine ⟨s.modTsv ch (fun t => { t with
      walk := some { w with tlw := some k }, walkDue := t.walkDue && (t.walk.isSome || w.targeted) }), ?_, ?_⟩
    · simp only [State.sweepStep, hn, hk, if_true]
    · rw [modTsv_ch]
  · simp only [State.sweepStep, hn, not_lt.mpr hk, if_false]
  · simp only [exec, execWalkStep, h]
  · rw [exec_walkStep h hx, if_neg (mt undriven_iff.mp hu)]
  · rw [exec_walkStep h hx, if_pos (undriven_iff.mpr hu)]
  · obtain ⟨hnone, htrans⟩ := walkEnds_keeps (s.chs[ch]).tsv w s.glb.variant.layers
    refine ⟨_, walkCompare_clean hw hh hm, ?_⟩
    simp only [modTsv_ch, hnone, htrans]
    refine ⟨trivial, trivial, fun hb => ?_, fun ht layer p rest hl => ?_⟩
    · rw [walkEnds_background _ hb]
      exact ⟨rfl, rfl⟩
    · rw [walkEnds_targeted _ ht hl]

/-- Settles O34: each kind of dead connection by the branch of `declareDead` it takes, what an STS reads as `Ctl.statusTaken`, and a step
without a mismatch as `Tsv.walkEnds`. -/
theorem rowPathFailuresAreHandled : Obligations.RowPathFailuresAreHandled := ⟨deadConnectionsAreHandled, statusReadsAct, sweepsAct⟩

end Sys2Proof.Machine
end

section
/-! PROOFS. The address map (R63, R65-R67). -/

namespace Sys2Proof.Machine

/-- The fields of a page number: the channel at bit `c`, `ly` bits of layer at bit `l`, the bank at bit `b`, row bits [15:7] at bit `h`. -/
def pageFields (page c l ly b h : Nat) : Fin 64 × Nat × Nat × Nat :=
  (⟨(page >>> c) % 2 ^ 6, Nat.mod_lt _ (by decide)⟩, (page >>> l) % 2 ^ ly, (page >>> b) % 2 ^ 2, (page >>> h) % 2 ^ 9)

/-- A field of a page number lies 17 bits higher in the addresses of the page. -/
theorem page_field (a lo len : Nat) : (a / 131072) >>> lo % 2 ^ len = a / 2 ^ (lo + 17) % 2 ^ len := by
  rw [Nat.shiftRight_eq_div_pow, Nat.div_div_eq_div_mul, Nat.add_comm, Nat.pow_add]

theorem decodeAddr_fields {s : State} {a c l ly b h : Nat}
    (hd : decodePage s.glb.variant s.glb.mapOrder (a / 131072) = pageFields (a / 131072) c l ly b h) :
    let d := s.decodeAddr a
    let f := fun (lo len : Nat) => a / 2 ^ lo % 2 ^ len
    d.ch.val = f (c + 17) 6 ∧ d.row.layer = f (l + 17) ly ∧ d.row.bank = f (b + 17) 2 ∧
      d.row.row = f (h + 17) 9 * 128 + f 10 7 ∧ d.line = f 6 4 := by
  simp only [State.decodeAddr, hd, pageFields, page_field, Nat.mul_comm 128, true_and]
  exact ⟨rfl, rfl⟩

section Page

variable {v : Variant} {o : BitVec 2} {ch : Fin 64} {p l b h : Nat}

theorem order_cases : ∀ o : BitVec 2, o = 0 ∨ o = 1 ∨ o = 2 ∨ o = 3 := by decide

theorem decodePage_ranges (v : Variant) (o : BitVec 2) (p : Nat) :
    (decodePage v o p).2.1 < v.layers ∧ (decodePage v o p).2.2.1 < 4 ∧ (decodePage v o p).2.2.2 < 512 := by
  obtain rfl | rfl | rfl | rfl := order_cases o <;> cases v <;>
    exact ⟨Nat.mod_lt _ (by decide), Nat.mod_lt _ (by decide), Nat.mod_lt _ (by decide)⟩

theorem encodePage_lt (hl : l < v.layers) (hb : b < 4) (hh : h < 512) : encodePage v o ch.val l b h < v.pages := by
  obtain rfl | rfl | rfl | rfl := order_cases o <;> cases v <;>
    simp only [encodePage, BitVec.reduceToNat, Variant.pages, Variant.layers] at hl ⊢ <;> omega

/-- In each order the four fields lie side by side and fill the page number. -/
theorem decodePage_eq_iff (hp : p < v.pages) (hl : l < v.layers) (hb : b < 4) (hh : h < 512) :
    decodePage v o p = (ch, l, b, h) ↔ encodePage v o ch.val l b h = p := by
  obtain rfl | rfl | rfl | rfl := order_cases o <;> cases v <;>
    simp only [decodePage, encodePage, BitVec.reduceToNat, Variant.pages, Variant.layers, Nat.shiftRight_eq_div_pow, Nat.reduceAdd,
      Nat.reducePow, Prod.mk.injEq, Fin.ext_iff] at hp hl ⊢ <;> omega

end Page

/-- Settles O5: the fields lie where each order puts them, and `encodePage` is the inverse of `decodePage`. -/
theorem addressMapIsABijection : Obligations.AddressMapIsABijection := by
  refine ⟨fun s a => ⟨fun hv => ⟨fun ho => ?_, fun ho => ?_, fun ho => ?_, fun ho => ?_⟩,
    fun hv => ⟨fun ho => ?_, fun ho => ?_, fun ho => ?_, fun ho => ?_⟩⟩, fun v o p hp => ?_,
    fun v o ch l b h hl hb hh => ?_, by decide, by decide⟩
  iterate 8 exact decodeAddr_fields (by rw [hv, ho]; rfl)
  · obtain ⟨hl, hb, hh⟩ := decodePage_ranges v o p
    exact ⟨hl, hb, hh, (decodePage_eq_iff hp hl hb hh).mp rfl⟩
  · have hp := encodePage_lt (o := o) (ch := ch) hl hb hh
    exact ⟨hp, (decodePage_eq_iff hp hl hb hh).mpr rfl⟩

end Sys2Proof.Machine
end

section
/-! PROOFS. Lines that a slice opens and stores, and the write queue (R72, R74, R127, R140, R145). -/

namespace Sys2Proof.Machine

variable {s : State} {ch : Fin 64}

/-! Opening a line (R127 steps 4-7). -/

section Open

variable {m : MasterId} {access a : Nat} {e : W32} {l : SLine} {o : DecodeOut} {pw : Bool}

theorem openLine_uncorrectable (ho : o = .uncorrectable) : s.openLine ch m access e a (l, o) pw = (s, .uncorrectable, 0) := if_pos ho

theorem openLine_poisoned (ho : o ≠ .uncorrectable) (hp : linePoison l = true) :
    s.openLine ch m access e a (l, o) pw = (s, .poisoned, 0) :=
  (if_neg ho).trans (if_pos hp)

/-- Past the line code and POISON, the tag decides where INT is set, and ENC whether the data are decrypted. -/
theorem openLine_checked (hm : s.isWalkerScrubber m = false) (hi : (s.chs[ch]).cry.injData = false) (ho : o ≠ .uncorrectable)
    (hp : linePoison l = false) :
    let k := s.keySlot (peSlot e)
    let c := s.lineCtr e a
    s.openLine ch m access e a (l, o) pw =
      if peInt e = true ∧ ¬(lineTagged l = true ∧ lineTag l = tagOf k.tagKey k.hashKey (lineData l) (a / 64) c (lineState l)) then
        (s.tagFail ch e a (s.decodeAddr a).key m access pw, .integrityFail, 0)
      else (s, .ok, if peEnc e then lineData l ^^^ keystream k.dataKey c (a / 64) else lineData l) := by
  have hmod : s.modCry ch (fun x => { x with injData := false }) = s := modCh_id (by rw [← hi])
  simp only [State.openLine, if_neg ho, hp, hm, hi, hmod, Bool.false_eq_true, if_false]
  cases peInt e with
  | true => simp only [if_true, true_and, not_and_or, Bool.or_eq_true, Bool.not_eq_true', Bool.not_eq_true, decide_eq_true_eq, ne_eq]
  | false =>
    simp only [Bool.false_eq_true, if_false, false_and]
    split <;> rfl

end Open

/-! The write queue (R72). -/

section Queue

variable {c : Ctl} {w : WqLine} {key : Nat}

theorem canEnter_iff : c.canEnter key = true ↔ c.lineWaits key = false ∧ (c.queued? key ≠ none ∨ c.wq.length < 128) := by
  simp only [Ctl.canEnter, Bool.and_eq_true, Bool.or_eq_true, Bool.not_eq_true', decide_eq_true_eq, Option.isSome_iff_ne_none]

theorem enter_queued (h : c.queued? w.key ≠ none) : c.enter w =
    { c with wq := c.wq.map (fun (x : WqLine) => if x.key = w.key then w else x), wqCoalesce := satAdd c.wqCoalesce 1 }.updateCached
      w.key w.line := by
  rw [Ctl.enter, if_pos (Option.isSome_iff_ne_none.mpr h)]

theorem enter_end (h : c.queued? w.key = none) : c.enter w = { c with wq := c.wq ++ [w] }.updateCached w.key w.line := by
  rw [Ctl.enter, h]
  rfl

variable {req : Option Req}

theorem enqueue_enters (h : (((s.modCh ch (fun c => c.noteWrite w.key)).chs[ch]).ctl).canEnter w.key = true) :
    s.enqueue ch w req = ((s.modCh ch (fun c => c.noteWrite w.key)).modCtl ch (fun c => c.enter w), true) := if_pos h

theorem enqueue_waits (h : (((s.modCh ch (fun c => c.noteWrite w.key)).chs[ch]).ctl).canEnter w.key = false) :
    s.enqueue ch w req = ((s.modCh ch (fun c => c.noteWrite w.key)).modCtl ch (fun c => { c with
      wqWait := c.wqWait ++ [{ wline := w, req := req }] }), false) := if_neg (Bool.eq_false_iff.mp h)

theorem exec_writeQueueAdmit_nil (h : (s.chs[ch]).ctl.wqWait = []) : exec (.writeQueueAdmit ch) s = .next s := by
  simp only [exec, execWriteQueueAdmit, State.admitOne, h]

theorem exec_writeQueueAdmit {w : WqWait} {rest : List WqWait} (h : (s.chs[ch]).ctl.wqWait = w :: rest) :
    exec (.writeQueueAdmit ch) s = .next (
      if (s.chs[ch]).ctl.queued? w.wline.key ≠ none ∨ (s.chs[ch]).ctl.wq.length < 128 then
        let u := s.modCtl ch (fun c => { c with wqWait := rest }.enter w.wline)
        w.req.elim u (u.completeAt ch · w.st)
      else s) := by
  simp only [exec, execWriteQueueAdmit, State.admitOne, h, Bool.or_eq_true, decide_eq_true_eq, Option.isSome_iff_ne_none]
  cases w.req <;> rfl

end Queue

/-- Settles O30: `openLine` checks line code, POISON and tag one after the other (`openLine_checked`), and a line enters the write queue
under `canEnter_iff`, in the place of a queued one or at its end. -/
theorem linesAreOpenedAndStored : Obligations.LinesAreOpenedAndStored := by
  refine ⟨fun s ch m access e a l o pw hm hi => ⟨openLine_uncorrectable, openLine_poisoned, fun ho hp hint hbad => ?_, fun ho hp hgood => ?_⟩,
    fun s ch r e d p => ⟨fun h => if_pos h, fun h => if_neg (Bool.eq_false_iff.mp h)⟩,
    fun s ch w req => ⟨fun hl hq => ?_, fun hl hq hlen => ?_, fun h => ?_⟩, fun s ch => exec_writeQueueAdmit_nil,
    fun s ch w rest hw => ⟨fun h u hu => ⟨fun hr => ?_, fun r hr => ?_⟩, fun hlen hq => ?_⟩⟩
  · rw [openLine_checked hm hi ho hp, if_pos ⟨hint, hbad⟩]
  · rw [openLine_checked hm hi ho hp, if_neg (not_and_not_right.mpr hgood)]
  · exact (enqueue_enters (canEnter_iff.mpr ⟨hl, .inl hq⟩)).trans (congrArg (·, true) (modCtl_congr (enter_queued hq)))
  · exact (enqueue_enters (canEnter_iff.mpr ⟨hl, .inr hlen⟩)).trans (congrArg (·, true) (modCtl_congr (enter_end hq)))
  · refine enqueue_waits ?_
    rw [Bool.eq_false_iff, ne_eq, canEnter_iff]
    rintro ⟨hl, hin⟩
    obtain h | ⟨hq, hlen⟩ := h
    · rw [hl] at h
      cases h
    · exact hin.elim (· hq) (not_lt.mpr hlen)
  · rw [exec_writeQueueAdmit hw, if_pos h.symm, hr, hu]
    rfl
  · rw [exec_writeQueueAdmit hw, if_pos h.symm, hr, hu]
    rfl
  · rw [exec_writeQueueAdmit hw, if_neg]
    rintro (h | h)
    · exact h hq
    · exact absurd h (not_lt.mpr hlen)

end Sys2Proof.Machine
end

section
/-! PROOFS. The lock of the address map, the initial fill, the scrubber's function and the rows it reads (R64, R86, R87, R101-R106). -/

namespace Sys2Proof.Machine

variable {s : State} {ch : Fin 64}

/-! The address map's lock (R64). -/

theorem reaches_of_writable {p : Path} {m : MasterId} {off : Nat} (hw : Writable s p m off) : s.reaches p off = true := by
  by_contra hr
  rw [Bool.not_eq_true] at hr
  simp [Writable, State.writeAccess, hr] at hw

theorem exec_addrMapLock {p : Path} {m : MasterId} (order : BitVec 2) (hw : Writable s p m 0x100) :
    exec (.addrMapLock p m order) s =
      .next { s with glb := s.glb.mapWrite (isCore p m) (0x80000000#32 ||| order.setWidth 32) } := by
  simp only [exec, execAddrMapLock, writeReg_ok (by decide) (reaches_of_writable hw) _ (by decide) hw]
  rfl

theorem mapWrite_unlocked {g : Glb} (core : Bool) (order : BitVec 2) (h : g.mapLock = false) :
    g.mapWrite core (0x80000000#32 ||| order.setWidth 32) = { g with mapOrder := order, mapLock := core } := by
  have ho : (0x80000000#32 ||| order.setWidth 32).setWidth 2 = order := by revert order; decide
  have hb : bit (0x80000000#32 ||| order.setWidth 32) 31 = true := by revert order; decide
  rw [Glb.mapWrite, h, ho, hb, Bool.and_true, Bool.false_or]
  rfl

theorem mapWrite_locked {g : Glb} (core : Bool) (v : W32) (h : g.mapLock = true) : g.mapWrite core v = g := by
  rw [Glb.mapWrite, if_pos h, h, Bool.true_or, ← h]

/-! The initial fill (R101). -/

/-- A key that a filter drops is not listed. -/
theorem smGet?_filter_none {α : Type} {p : Nat → Bool} {k : Nat} (hp : p k = false) (m : SMap α) :
    smGet? (m.filter (fun c => p c.1)) k = none := by
  induction m with
  | nil => rfl
  | cons c m ih =>
    rw [List.filter_cons]
    split
    case isTrue hc =>
      have hk : c.1 ≠ k := fun hk => by simp [hk, hp] at hc
      rw [smGet?, if_neg hk, ih, ite_self]
    case isFalse => exact ih

/-- A key that a filter keeps reads in a canonical table as before. -/
theorem smGet?_filter_kept {α : Type} {p : Nat → Bool} {k : Nat} (hp : p k = true) {m : SMap α} (hm : smWf m = true) :
    smGet? (m.filter (fun c => p c.1)) k = smGet? m k := by
  induction m with
  | nil => rfl
  | cons c m ih =>
    have ih := ih (smWf_of_above hm)
    rw [List.filter_cons]
    split
    case isTrue => simp only [smGet?, ih]
    case isFalse hc =>
      have hk : c.1 ≠ k := fun hk => hc (hk ▸ hp)
      rw [ih, smGet?, if_neg hk]
      split
      case isTrue hlt => exact smGet?_above hlt.le hm
      case isFalse => rfl

theorem memRead_filter {m : Memory} (hm : Memory.wf m = true) (p : Nat → Bool) (k : Nat) :
    memRead (m.filter (fun c => p c.1)) k = if p k then memRead m k else 0 := by
  simp only [Memory.wf, Bool.and_eq_true] at hm
  split
  case isTrue hp => rw [memRead, smGetD, smGet?_filter_kept hp hm.1, memRead, smGetD]
  case isFalse hp =>
    rw [memRead, smGetD, smGet?_filter_none (by simpa using hp)]
    rfl

/-- The channel of a cell of a line. -/
theorem cell_channel (c : Nat) {key i : Nat} (hk : key < 67108864) (hi : i < 80) : (lineCell c key + i) / 80 / 67108864 = c := by
  rw [lineCell]
  omega

theorem dramLine_congr {s t : State} {c key : Nat}
    (h : ∀ i < 80, memRead s.dram (lineCell c key + i) = memRead t.dram (lineCell c key + i)) : s.dramLine c key = t.dramLine c key := by
  simp only [State.dramLine]
  congr 1
  exact List.map_congr_left fun i hi => h i (List.mem_range.mp hi)

theorem ofBytes_zero {w : Nat} : ∀ {bs : List Byte}, (∀ b ∈ bs, b = 0) → ofBytes w bs = 0
  | [], _ => rfl
  | b :: bs, h => by
    obtain ⟨rfl, hbs⟩ := List.forall_mem_cons.mp h
    simp [ofBytes, ofBytes_zero hbs]

theorem dramLine_zero {c key : Nat} (h : ∀ i < 80, memRead s.dram (lineCell c key + i) = 0) : s.dramLine c key = 0 :=
  ofBytes_zero (List.forall_mem_map.mpr fun i hi => h i (List.mem_range.mp hi))

theorem eraseChannel_dramLine_self (hm : Memory.wf s.dram = true) {key : Nat} (hk : key < 67108864) :
    (s.eraseChannel ch).dramLine ch.val key = 0 := by
  refine dramLine_zero fun i hi => (memRead_filter hm (fun k => k / 80 / 67108864 != ch.val) _).trans ?_
  rw [cell_channel _ hk hi, bne_self_eq_false]
  rfl

theorem eraseChannel_dramLine_of_ne (hm : Memory.wf s.dram = true) {c : Fin 64} (hc : c ≠ ch) {key : Nat} (hk : key < 67108864) :
    (s.eraseChannel ch).dramLine c.val key = s.dramLine c.val key := by
  refine dramLine_congr fun i hi => (memRead_filter hm (fun k => k / 80 / 67108864 != ch.val) _).trans ?_
  rw [cell_channel _ hk hi, bne_iff_ne.mpr (Fin.val_ne_of_ne hc), if_pos rfl]

/-- The state in which an initial fill ends, before the requests that waited are handled. -/
def State.filledCh (s : State) (ch : Fin 64) : State :=
  ((s.eraseChannel ch).modEcc ch (fun e => { e with
      initDone := true, remap := e.remap.map (fun kv => (kv.1, { kv.2 with content := some 0 })) })).modCtl ch (fun c => { c with
    fill := false, rc := [], wq := [], log := [], issued := c.issued.filter (fun x => !isWm x),
    state := if c.state = .hold ∧ c.recovery = false ∧ (s.chs[ch]).tsv.hold = none then .run else c.state })

theorem exec_initialFillEnd (h : (s.chs[ch]).ctl.fill = true) :
    exec (.initialFillEnd ch) s = .next ((s.filledCh ch).drainWaiting ch) := by
  have hold : (((s.eraseChannel ch).modEcc ch (fun e => { e.fillAll with initDone := true })).chs[ch]).tsv = (s.chs[ch]).tsv := by
    rw [modEcc_ch]
    rfl
  simp only [exec, execInitialFillEnd, h, if_true, hold, Bool.and_eq_true, decide_eq_true_eq, Bool.not_eq_true', Option.isNone_iff_eq_none,
    and_assoc]
  rfl

theorem startFill_idle (h : (s.chs[ch]).tsv.offline = true ∨ s.distOn (distOf ch) = false) : s.startFill ch = s :=
  if_pos (by simpa [-Fin.getElem_fin] using h)

theorem startFill_holds (ho : (s.chs[ch]).tsv.offline = false) (hd : s.distOn (distOf ch) = true) :
    s.startFill ch = (s.modCh ch (fun c => c.cancelAll s.glb.variant.layers (fun x => !isRef x))).modCtl ch (fun c =>
      { c with fill := true, state := if c.state = .run then .hold else c.state }) :=
  if_neg (by simp [-Fin.getElem_fin, ho, hd])

theorem mapLockAndInitialFill : Part.MapLockAndInitialFill := by
  refine ⟨fun s p m order hw => ⟨fun h => ?_, fun h => ?_⟩, fun s p m ch hw => ⟨fun h => ?_, fun ho hd => ?_⟩, fun s ch h => ?_,
    fun s ch h u hu => ?_⟩
  · rw [exec_addrMapLock order hw, mapWrite_unlocked _ order h]
  · rw [exec_addrMapLock order hw, mapWrite_locked _ _ h]
  · simp only [exec, execInitialFillStart, guardWrite_ok hw, startFill_idle h]
  · simp only [exec, execInitialFillStart, guardWrite_ok hw, startFill_holds ho hd]
  · simp only [exec, execInitialFillEnd, h, Bool.false_eq_true, if_false]
  · obtain rfl : u = s.filledCh ch := hu
    exact ⟨exec_initialFillEnd h, fun hm _ hk => eraseChannel_dramLine_self hm hk, fun hm _ _ hc hk => eraseChannel_dramLine_of_ne hm hc hk⟩

/-! The scrubber's function (R102, R106, R361, R362). -/

theorem scrubIdle_iff : s.scrubIdle = true ↔ ∀ n : Fin 64, (s.chs[n]).ecc.reads = [] ∧ (∀ w ∈ (s.chs[n]).ctl.wq, w.rewrite = false) ∧
    (∀ w ∈ (s.chs[n]).ctl.wqWait, w.wline.rewrite = false) := by
  simp only [State.scrubIdle, toList_all, Bool.and_eq_true, List.isEmpty_iff, Bool.not_eq_true', List.any_eq_false, Bool.not_eq_true,
    and_assoc]

theorem exec_scrubberStopped (s : State) : exec .scrubberStopped s = .next (
    if s.scrub.fn.st = .stopping ∧ s.scrubIdle = true then { s with scrub := { s.scrub with fn := { s.scrub.fn with st := .off } } } else s) := by
  simp only [exec, execScrubberStopped, Bool.and_eq_true, decide_eq_true_eq]
  split <;> rfl

theorem exec_scrubReadDue (s : State) (ch : Fin 64) : exec (.scrubReadDue ch) s = .next (
    if s.scrub.fn.st = .on ∧ (s.chs[ch]).ctl.state = .run ∧ (s.chs[ch]).ecc.dueRev ≤ s.strobe / 256 then
      s.modEcc ch (fun e => { e with due := e.due + (e.cfg.extractLsb' 24 4).toNat, dueRev := s.strobe / 256 + 1 })
    else s) := by
  have hf : ∀ w : W32, fieldN w 24 4 = (w.extractLsb' 24 4).toNat := fun _ => rfl
  simp only [exec, execScrubReadDue, hf, Bool.and_eq_true, decide_eq_true_eq, and_assoc]
  split <;> rfl

theorem scrubberFunction : Part.ScrubberFunction := by
  refine ⟨fun s h => ?_, fun s h => ?_, fun s h hidle => ?_, fun s h => ?_, fun s ch => ⟨fun h1 h2 h3 => ?_, fun h => ?_⟩⟩
  · simp only [exec, execScrubberStartingEnd, h, if_true]
  · simp only [exec, execScrubberStartingEnd, h, if_false]
  · rw [exec_scrubberStopped, if_pos ⟨h, scrubIdle_iff.mpr hidle⟩]
  · rw [exec_scrubberStopped, if_neg]
    rintro ⟨hs, hidle⟩
    obtain hs' | ⟨n, hn⟩ := h
    · exact hs' hs
    · obtain ⟨hr, hq, hw⟩ := scrubIdle_iff.mp hidle n
      obtain hr' | ⟨w, hm, hw'⟩ | ⟨w, hm, hw'⟩ := hn
      · exact hr' hr
      · exact absurd (hq w hm) (by simp [hw'])
      · exact absurd (hw w hm) (by simp [hw'])
  · rw [exec_scrubReadDue, if_pos ⟨h1, h2, h3⟩]
  · rw [exec_scrubReadDue, if_neg]
    rintro ⟨h1, h2, h3⟩
    obtain h | h | h := h
    · exact h h1
    · exact h h2
    · exact absurd h3 (not_le.mpr h)

/-! A scrubbed row (R86, R87, R103-R106). -/

section Row

variable {x : SlotCmd} {row : Nat} {b : Bool} {wrong : BitVec 10240} {par : BitVec 20} {mid : BitVec 14}

theorem exec_scrubRowResult (hx : (s.chs[ch]).ctl.crossing s.strobe isScrubRa = some x) (hc : x.cmd = .ra row b) :
    exec (.scrubRowResult ch wrong par mid) s = .next (s.scrubArrives ch x row wrong par mid) := by
  simp only [exec, execScrubRowResult, hx, hc]

theorem scrubArrives_undriven (h : s.undriven ch (rowOfKey row).layer mid = true) :
    s.scrubArrives ch x row wrong par mid = ((s.crossed ch x).modEcc ch (fun e => e.readAgain row)).startRecovery ch :=
  if_pos ((crossed_undriven ..).trans h)

variable (hd : s.undriven ch (rowOfKey row).layer mid = false) {v : State} {w : BitVec 10240}
  (hv : ((s.crossed ch x).modEcc ch (fun e => { e with reads := e.reads.filter (fun r => r.row ≠ row) })).crossRead ch
    (rowOfKey row).layer wrong par = (v, w))
include hd hv

theorem scrubArrives_offline (ho : (v.chs[ch]).tsv.offline = true) : s.scrubArrives ch x row wrong par mid = v := by
  simp only [State.scrubArrives, crossed_undriven, hd, Bool.false_eq_true, if_false, hv, ho, if_true]

/-- The lines of a row that arrives in a channel in service are handled in the order 0 to 15. -/
theorem scrubArrives_lines (ho : (v.chs[ch]).tsv.offline = false) (hi : x.inj = 0) {ra : ScrubRa}
    (hra : (s.chs[ch]).ecc.reads.find? (fun r => r.row = row) = some ra) :
    s.scrubArrives ch x row wrong par mid = (List.range 16).foldl (fun (t : State) i =>
      t.scrubLine ch (row * 16 + i) (t.decodeAt ch (row * 16 + i) (w.extractLsb' (640 * i) 640) 0) (ra.written.contains i)
        ((ra.asked.toList ++ (s.chs[ch]).ecc.targeted).contains (row * 16 + i))) v := by
  have hecc : ((s.crossed ch x).chs[ch]).ecc = (s.chs[ch]).ecc := by rw [crossed_ch]
  simp only [State.scrubArrives, crossed_undriven, hd, Bool.false_eq_true, if_false, hv, ho, hecc, hra, hi, Option.getD_some, ite_self,
    Nat.add_zero]

end Row

section Line

variable {c : Channel} {key t e : Nat} {l : SLine} {asked : Bool}

theorem scrubRewrite_written (x : ScrubAct) : s.scrubRewrite ch key x true = (s, false) :=
  congrArg (·, false) (modEcc_id rfl)

/-- A line that the write queue held before the RA is left to its queued line: its decode is recorded, and nothing else. -/
theorem scrubLine_queued (h : (s.chs[ch]).ctl.queued? key ≠ none) (o : DecodeOut) :
    s.scrubLine ch key ((l, o), false) false asked = match o with
      | .clean => s
      | .corrected t e => s.noteCorrected ch key t e (s.self agentScrubber) acScrub
      | .uncorrectable => s.noteScrubUe ch key false := by
  have hq := Option.isSome_iff_ne_none.mpr h
  cases o <;> simp [-Fin.getElem_fin, State.scrubLine, hq]

theorem scrubAct_corrected_below (h : c.ecc.fixAt = 0 ∨ t < c.ecc.fixAt) : c.scrubAct key l (.corrected t e) = none :=
  if_pos (by simpa using h)

theorem scrubAct_corrected (h0 : c.ecc.fixAt ≠ 0) (ht : c.ecc.fixAt ≤ t) : c.scrubAct key l (.corrected t e) =
    some { line := refresh l, poison := false, insert := c.ecc.remapMode == 2 && decide (c.ecc.remapAt ≤ t), origin := true } :=
  if_neg (by simp [h0, ht])

theorem scrubAct_uncorrectable (h : c.ctl.cachedGood key = none) : c.scrubAct key l .uncorrectable =
    some { line := poisonLine, poison := true, insert := c.ecc.remapMode != 0, origin := false } := by
  simp only [Channel.scrubAct, h]

theorem scrubAct_uncorrectable_cached {g : SLine} (h : c.ctl.cachedGood key = some g) : c.scrubAct key l .uncorrectable =
    some { line := refresh g, poison := false, insert := c.ecc.remapMode == 2 && c.ecc.fixAt != 0 && decide (c.ecc.remapAt ≤ 4),
           origin := false } := by
  simp only [Channel.scrubAct, h]

end Line

theorem scrubRowsAreHandled : Part.ScrubRowsAreHandled := by
  refine ⟨fun s ch wrong par mid h => ?_, fun s ch wrong par mid x row b hx hc => ⟨fun hu => ?_, fun hu v w hv => ?_⟩,
    fun s ch key x => scrubRewrite_written x, fun s ch key l asked h => ⟨fun t e => scrubLine_queued h _, scrubLine_queued h _⟩,
    fun c key l => rfl, fun c key l t e => ⟨scrubAct_corrected_below, fun h0 ht => ⟨_, scrubAct_corrected h0 ht, rfl, rfl, ?_⟩⟩,
    fun c key l => ⟨fun h => ⟨_, scrubAct_uncorrectable h, rfl, rfl, bne_iff_ne⟩,
      fun g h => ⟨_, scrubAct_uncorrectable_cached h, rfl, rfl⟩⟩⟩
  · simp only [exec, execScrubRowResult, h]
  · rw [exec_scrubRowResult hx hc, scrubArrives_undriven (undriven_iff.mpr hu)]
    rfl
  · have hd := Bool.eq_false_iff.mpr (mt undriven_iff.mp hu)
    refine ⟨fun ho => ?_, fun ho hi ra hra => ?_⟩
    · rw [exec_scrubRowResult hx hc, scrubArrives_offline hd hv ho]
    · rw [exec_scrubRowResult hx hc, scrubArrives_lines hd hv ho hi hra]
  · simp only [Bool.and_eq_true, beq_iff_eq, decide_eq_true_eq]

/-- Settles O36: the fill ends in `State.filledCh`, whose content `memRead_filter` gives cell by cell; the scrubber's function by its two
guards; a scrubbed row by `scrubArrives_lines`, and the action on a line by the rows of `Channel.scrubAct`. -/
theorem fillAndScrub : Obligations.FillAndScrub := ⟨mapLockAndInitialFill, scrubberFunction, scrubRowsAreHandled⟩

end Sys2Proof.Machine
end

section
/-! PROOFS. The retirement service and its migrations (R113-R116, R514). -/

namespace Sys2Proof.Machine

/-! The proofs of this section are checked one after the other: many at once hold more memory than the check of the whole text has. -/

set_option Elab.async false

variable {s : State}

/-! Page entries: an entry written reads back, and leaves every other page alone. -/

theorem setEntry_wf (h : smWf s.sec.pat = true) (page : Nat) (e : W32) : smWf (s.setEntry page e).sec.pat = true := by
  simp only [State.setEntry]
  split
  · exact smWf_del h
  · exact smWf_put h

theorem patRaw_setEntry_self (h : smWf s.sec.pat = true) (page : Nat) (e : W32) : (s.setEntry page e).patRaw page = e := by
  simp only [State.patRaw, State.setEntry]
  split
  · rename_i he
    simp [smGetD, smGet?_del_self h, he]
  · simp

theorem patRaw_setEntry_of_ne (h : smWf s.sec.pat = true) {page q : Nat} (hq : q ≠ page) (e : W32) :
    (s.setEntry page e).patRaw q = s.patRaw q := by
  simp only [State.patRaw, State.setEntry]
  split
  · simp [smGetD, smGet?_del_of_ne hq h]
  · exact smGetD_put_of_ne _ _ _ hq

/-- The entries after the two writes of a migration. -/
theorem patRaw_setEntry_pair (h : smWf s.sec.pat = true) {page dst : Nat} (hne : page ≠ dst) (e f : W32) :
    ((s.setEntry page e).setEntry dst f).patRaw page = e ∧ ((s.setEntry page e).setEntry dst f).patRaw dst = f ∧
      ∀ q, q ≠ page → q ≠ dst → ((s.setEntry page e).setEntry dst f).patRaw q = s.patRaw q := by
  have h1 := setEntry_wf h page e
  refine ⟨?_, patRaw_setEntry_self h1 dst f, fun q hp hd => ?_⟩
  · rw [patRaw_setEntry_of_ne h1 hne, patRaw_setEntry_self h]
  · rw [patRaw_setEntry_of_ne h1 hd, patRaw_setEntry_of_ne h hp]

/-! The oldest reason (R113, R114, R116). -/

/-- The service may act: the stack is ready and DIE up, no migration runs, and the queue of records has room (R113, R116). -/
def State.RetireFree (s : State) : Prop :=
  s.boot.phase = .ready ∧ s.dieUp = true ∧ s.retire.migrating = none ∧ s.retire.records.length < 1024

theorem exec_retirementReason_none (h : s.retire.reasons = []) : exec .retirementReason s = .next s := by
  simp only [exec, execRetirementReason, h]

theorem exec_retirementReason_waits (h : ¬s.RetireFree) : exec .retirementReason s = .next s := by
  cases hr : s.retire.reasons with
  | nil => exact exec_retirementReason_none hr
  | cons x rest =>
    simp only [exec, execRetirementReason, hr]
    refine if_pos ?_
    by_contra hn
    simp only [Bool.or_eq_true, not_or, decide_eq_true_eq, not_not, Bool.not_eq_true', Bool.not_eq_false, Option.not_isSome_iff_eq_none,
      not_le] at hn
    obtain ⟨⟨⟨hp, hd⟩, hm⟩, hl⟩ := hn
    exact h ⟨hp, hd, hm, hl⟩

/-- The oldest reason leaves the queue with a record and counts as acted on; `nr`: no reserve page was free. -/
def State.retirePosted (s : State) (page reason : Nat) (rest : List (Nat × Nat)) (nr : Bool) : State :=
  { s with retire := { s.retire with
      reasons := rest, records := s.retire.records ++ [retireRecord false nr reason 0 page], acted := (page, reason) :: s.retire.acted } }

section Oldest

variable {page reason : Nat} {rest : List (Nat × Nat)} (hr : s.retire.reasons = (page, reason) :: rest) (hf : s.RetireFree)
include hr hf

/-- The service's choice, once it may act. -/
theorem exec_retirementReason : exec .retirementReason s =
    if s.retire.action = 0 || peRetired (s.patRaw page) || s.retire.acted.contains (page, reason) then
      .next { s with retire := { s.retire with reasons := rest, acted := (page, reason) :: s.retire.acted } }
    else if !peValid (s.patRaw page) then
      .next (if s.retire.action = 2 && s.retire.reserve.contains page then (s.retirePosted page reason rest false).setRetired page
        else s.retirePosted page reason rest false)
    else if s.retire.action = 1 || s.chs[(s.decodeAddr (page * 131072)).ch].tsv.offline then
      .next (s.retirePosted page reason rest false)
    else match s.freeReserve with
      | none => .next (s.retirePosted page reason rest true)
      | some dst =>
        if s.engs.eng[(s.decodeAddr (page * 131072)).ch].fn.st = .on then
          .next (({ s with retire := { s.retire with reasons := rest } }).beginMigration page reason dst)
        else .next s := by
  obtain ⟨hp, hd, hm, hl⟩ := hf
  have hw : (decide (s.boot.phase ≠ .ready) || !s.dieUp || s.retire.migrating.isSome || decide (1024 ≤ s.retire.records.length)) =
      false := by simp [hp, hd, hm, hl]
  simp only [exec, execRetirementReason, hr, hw]
  rfl

theorem exec_retirementReason_done
    (h : s.retire.action = 0 ∨ peRetired (s.patRaw page) = true ∨ (page, reason) ∈ s.retire.acted) : exec .retirementReason s =
      .next { s with retire := { s.retire with reasons := rest, acted := (page, reason) :: s.retire.acted } } := by
  rw [exec_retirementReason hr hf, if_pos (by simpa [or_assoc] using h)]

variable (ha : s.retire.action ≠ 0) (he : peRetired (s.patRaw page) = false) (hn : (page, reason) ∉ s.retire.acted)
include ha he hn

theorem exec_retirementReason_invalid (hv : peValid (s.patRaw page) = false) : exec .retirementReason s = .next
    (if s.retire.action = 2 ∧ page ∈ s.retire.reserve then (s.retirePosted page reason rest false).setRetired page
      else s.retirePosted page reason rest false) := by
  rw [exec_retirementReason hr hf, if_neg (by simp [ha, he, hn]), if_pos (by simp [hv])]
  simp

variable (hv : peValid (s.patRaw page) = true)
include hv

theorem exec_retirementReason_posts
    (h : s.retire.action = 1 ∨ (s.chs[(s.decodeAddr (page * 131072)).ch]).tsv.offline = true) :
    exec .retirementReason s = .next (s.retirePosted page reason rest false) := by
  rw [exec_retirementReason hr hf, if_neg (by simp [ha, he, hn]), if_neg (by simp [hv]), if_pos (by simpa using h)]

variable (h1 : s.retire.action ≠ 1) (ho : (s.chs[(s.decodeAddr (page * 131072)).ch]).tsv.offline = false)
include h1 ho

theorem exec_retirementReason_noReserve (hd : s.freeReserve = none) :
    exec .retirementReason s = .next (s.retirePosted page reason rest true) := by
  rw [exec_retirementReason hr hf, if_neg (by simp [ha, he, hn]), if_neg (by simp [hv]), if_neg (by simpa [h1] using ho), hd]

theorem exec_retirementReason_migrates {dst : Nat} (hd : s.freeReserve = some dst) : exec .retirementReason s =
    if (s.engs.eng[(s.decodeAddr (page * 131072)).ch]).fn.st = .on then
      .next (({ s with retire := { s.retire with reasons := rest } }).beginMigration page reason dst)
    else .next s := by
  rw [exec_retirementReason hr hf, if_neg (by simp [ha, he, hn]), if_neg (by simp [hv]), if_neg (by simpa [h1] using ho), hd]

end Oldest

theorem retirementReasonsAct : Part.RetirementReasonsAct := by
  refine fun s => ⟨exec_retirementReason_none, fun hw => exec_retirementReason_waits ?_, fun page reason rest hr hp hd hm hl => ?_⟩
  · rintro ⟨hp, hd, hm, hl⟩
    simp [hp, hd, hm, Nat.not_le.mpr hl] at hw
  · have hf : s.RetireFree := ⟨hp, hd, hm, hl⟩
    refine ⟨exec_retirementReason_done hr hf, fun ha he hn hv => ⟨fun h => ?_, fun h => ?_⟩,
      fun ha he hn hv => ⟨exec_retirementReason_posts hr hf ha he hn hv, fun h1 ho =>
        ⟨exec_retirementReason_noReserve hr hf ha he hn hv h1 ho, fun dst hdst => ⟨fun hon => ?_, fun hoff => ?_⟩⟩⟩⟩
    · rw [exec_retirementReason_invalid hr hf ha he hn hv, if_pos h]
      rfl
    · rw [exec_retirementReason_invalid hr hf ha he hn hv, if_neg h]
      rfl
    · rw [exec_retirementReason_migrates hr hf ha he hn hv h1 ho hdst, if_pos hon]
    · rw [exec_retirementReason_migrates hr hf ha he hn hv h1 ho hdst, if_neg hoff]

/-! A migration (R115, R514). -/

theorem exec_pageMigrate_waits {page : Nat} (h : s.retire.migrating = none ∨ (∃ x, s.retire.migrating = some x ∧ x.1 ≠ page) ∨
    s.boot.phase ≠ .ready ∨ s.dieUp = false) : exec (.pageMigrate page) s = .next s := by
  cases hm : s.retire.migrating with
  | none => simp only [exec, execPageMigrate, hm]
  | some x =>
    simp only [exec, execPageMigrate, hm]
    exact if_pos (by simpa [hm, or_assoc] using h)

section Migration

variable {src dst reason : Nat} {ro : Bool} (hm : s.retire.migrating = some (src, dst, reason, ro))
include hm

section Ready

variable (hp : s.boot.phase = .ready) (hd : s.dieUp = true)
include hp hd

/-- The COPY has yet to start: it is dispatched once no request looks either page up and its engine has room. -/
theorem exec_pageMigrate_noJob (hj : s.migrateJob = none) : exec (.pageMigrate src) s =
    if (s.lookups (fun q _ => q == src || q == dst)).isEmpty &&
        s.engRoom (BitVec.twoPow 64 (s.decodeAddr (src * 131072)).ch.val) then
      .next (s.dispatch none 0
        (migrateDesc (s.decodeAddr (src * 131072)).ch.val src (s.fab.nodeId.toNat * 1099511627776 + dst * 131072)) 0
        (BitVec.twoPow 64 (s.decodeAddr (src * 131072)).ch.val) 15 (some (s.self agentCC0)))
    else .next s := by
  have hw : (decide (src ≠ src) || decide (Phase.ready ≠ .ready) || !true) = false := by simp
  simp only [exec, execPageMigrate, hm, hp, hd, hj, hw]
  rfl

variable {j : Job} (hj : s.migrateJob = some j)
include hj

/-- The COPY has been dispatched: its end retires the source or undoes the migration. -/
theorem exec_pageMigrate_job : exec (.pageMigrate src) s =
    if !j.ended then .next s
    else if j.parts.any (fun p => p.failed) then
      let u := (s.dropJob j.id).undoMigration src dst ro (j.parts.any (fun p => p.refused))
      .next { u with retire := u.retire.post (retireRecord false false reason 0 src) src reason }
    else .next ((s.dropJob j.id).endMigration src dst reason ro) := by
  have hw : (decide (src ≠ src) || decide (Phase.ready ≠ .ready) || !true) = false := by simp
  simp only [exec, execPageMigrate, hm, hp, hd, hj, hw]
  rfl

end Ready

theorem exec_retirementRestart_undoes (hj : s.migrateJob = none) (hp : s.boot.phase = .starting) :
    exec .retirementRestart s = .next
      (let u := s.undoMigration src dst ro false
       { u with retire := { u.retire with reasons := (src, reason) :: u.retire.reasons } }) := by
  simp only [exec, execRetirementRestart, hm, hj, hp]
  rfl

end Migration

theorem exec_retirementRestart_idle (h : s.retire.migrating = none ∨ s.migrateJob ≠ none ∨ s.boot.phase ≠ .starting) :
    exec .retirementRestart s = .next s := by
  simp only [exec, execRetirementRestart]
  split
  · rename_i hm hj
    exact if_pos (by simpa [hm, hj] using h)
  · rfl

theorem beginMigration_entries (hs : smWf s.sec.pat = true) {page dst : Nat} (hne : page ≠ dst) (reason : Nat) :
    (s.beginMigration page reason dst).patRaw page = s.patRaw page ||| 0x08000000 ∧
    (s.beginMigration page reason dst).patRaw dst = s.patRaw page &&& 0x77FFFFFF ∧
    ∀ q, q ≠ page → q ≠ dst → (s.beginMigration page reason dst).patRaw q = s.patRaw q :=
  patRaw_setEntry_pair hs hne _ _

/-- The source takes its RO back; `ro`: it was there before the migration. -/
def State.roUndone (s : State) (page : Nat) (ro : Bool) : State :=
  if ro then s else s.setEntry page (s.patRaw page &&& 0xF7FFFFFF#32)

theorem roUndone_eq (s : State) (page : Nat) (ro : Bool) : ∃ pat, s.roUndone page ro = { s with sec := { s.sec with pat := pat } } := by
  cases ro <;> exact ⟨_, rfl⟩

theorem roUndone_entries (hs : smWf s.sec.pat = true) (page : Nat) (ro : Bool) :
    smWf (s.roUndone page ro).sec.pat = true ∧
    (s.roUndone page ro).patRaw page = (if ro then s.patRaw page else s.patRaw page &&& 0xF7FFFFFF#32) ∧
    ∀ q, q ≠ page → (s.roUndone page ro).patRaw q = s.patRaw q := by
  cases ro with
  | true => exact ⟨hs, rfl, fun _ _ => rfl⟩
  | false => exact ⟨setEntry_wf hs _ _, patRaw_setEntry_self hs _ _, fun _ hq => patRaw_setEntry_of_ne hs hq _⟩

theorem undoMigration_eq (s : State) (page dst : Nat) (ro : Bool) : s.undoMigration page dst ro false =
    { (s.roUndone page ro).setEntry dst ((s.roUndone page ro).patRaw dst &&& 0x04000000#32) with
      retire := { s.retire with
        migrating := none
        reserve := if peRetired ((s.roUndone page ro).patRaw dst) then s.retire.reserve else dst :: s.retire.reserve } } := by
  obtain ⟨pat, hu⟩ := roUndone_eq s page ro
  simp only [State.undoMigration, ← State.roUndone.eq_def]
  rw [hu]
  cases peRetired (State.patRaw { s with sec := { s.sec with pat := pat } } dst) <;> rfl

theorem undoMigration_entries (hs : smWf s.sec.pat = true) {page dst : Nat} (hne : page ≠ dst) (ro : Bool) :
    (s.undoMigration page dst ro false).patRaw dst = s.patRaw dst &&& 0x04000000 ∧
    (s.undoMigration page dst ro false).patRaw page = (if ro then s.patRaw page else s.patRaw page &&& 0xF7FFFFFF) ∧
    ∀ q, q ≠ page → q ≠ dst → (s.undoMigration page dst ro false).patRaw q = s.patRaw q := by
  obtain ⟨hwf, hpage, hrest⟩ := roUndone_entries hs page ro
  simp only [undoMigration_eq, hrest dst hne.symm]
  refine ⟨patRaw_setEntry_self hwf _ _, (patRaw_setEntry_of_ne hwf hne _).trans hpage, fun q hp hd => ?_⟩
  exact (patRaw_setEntry_of_ne hwf hd _).trans (hrest q hp)

theorem migrationCopiesThePage : Part.MigrationCopiesThePage := by
  refine ⟨fun s page => exec_pageMigrate_waits, fun s src dst reason ro hm hp hd => ⟨fun hj hl hr => ?_, fun hj hw => ?_, fun j hj =>
      ⟨fun he => ?_, fun he hf => ?_, fun he hf => ?_⟩⟩, fun s src dst reason ro hm hj hp => exec_retirementRestart_undoes hm hj hp,
    fun s => exec_retirementRestart_idle, fun s page reason dst hs hne => ?_, fun s page dst ro hs hne => ?_⟩
  · rw [exec_pageMigrate_noJob hm hp hd hj, if_pos (by simp [hl, hr])]
  · rw [exec_pageMigrate_noJob hm hp hd hj, if_neg (by simpa [imp_iff_not_or] using hw)]
  · rw [exec_pageMigrate_job hm hp hd hj, if_pos (by simp [he])]
  · rw [exec_pageMigrate_job hm hp hd hj, if_neg (by simp [he]), if_neg (by simpa using hf)]
  · rw [exec_pageMigrate_job hm hp hd hj, if_neg (by simp [he]), if_pos (by simpa using hf)]
  · obtain ⟨hpage, hdst, hrest⟩ := beginMigration_entries hs hne reason
    exact ⟨hpage, hdst, rfl, by simp [State.beginMigration], hrest⟩
  · obtain ⟨hdst, hpage, hrest⟩ := undoMigration_entries hs hne ro
    obtain ⟨_, _, hkept⟩ := roUndone_entries hs page ro
    refine ⟨hdst, hpage, ?_, ?_, hrest⟩ <;> rw [undoMigration_eq, hkept dst hne.symm]

/-- Settles O38: the service's choice for its oldest reason, then the migration's start, end and undoing. -/
theorem retirementAndMigration : Obligations.RetirementAndMigration := ⟨retirementReasonsAct, migrationCopiesThePage⟩

end Sys2Proof.Machine
end

section
/-! PROOFS. Accesses within one command (log entry 8), messages on sub-links and replies leave alone what start-up has set up: LOCK, the
scrubber, the boot registers and the service of the rings (R401). -/

namespace Sys2Proof.Machine

/-! The proofs of this section are checked one after the other: many at once hold more memory than the check of the whole text has. -/

set_option Elab.async false

/-- LOCK, the scrubber, the boot registers and the command interface are those of `s`. -/
@[simp] abbrev State.Keeps (t s : State) : Prop :=
  t.glb.mapLock = s.glb.mapLock ∧ t.scrub = s.scrub ∧ t.boot = s.boot ∧ t.cmd = s.cmd

theorem State.Keeps.trans {a b c : State} (h : a.Keeps b) (h' : b.Keeps c) : a.Keeps c := by
  simp_all

theorem State.Keeps.modCtl {u s : State} (h : u.Keeps s) (ch : Fin 64) (f : Ctl → Ctl) : (u.modCtl ch f).Keeps s := h

theorem State.Keeps.ite {a b s : State} {p : Prop} [Decidable p] (ha : a.Keeps s) (hb : b.Keeps s) :
    (if p then a else b).Keeps s := by
  split
  · exact ha
  · exact hb

theorem State.Keeps.foldl_fst {α β : Type} {f : State × β → α → State × β} (h : ∀ b x, (f b x).1.Keeps b.1) (l : List α)
    (b : State × β) : (l.foldl f b).1.Keeps b.1 := by
  induction l generalizing b with
  | nil => simp
  | cons x xs ih => exact (ih _).trans (h b x)

theorem State.Keeps.foldl {α : Type} {f : State → α → State} (h : ∀ s x, (f s x).Keeps s) (l : List α) (s : State) :
    (l.foldl f s).Keeps s := by
  induction l generalizing s with
  | nil => simp
  | cons x xs ih => exact (ih _).trans (h s x)

variable (s : State) (ch : Fin 64)

/-! Requests and completions. -/

@[simp] theorem State.started_keeps : s.started.Keeps s := by
  unfold State.started
  split <;> simp

@[simp] theorem State.bumpEpoch_keeps : (s.bumpEpoch ch).Keeps s := by
  simp [State.bumpEpoch]

@[simp] theorem State.complete_keeps (c : Completion) : (s.complete c).Keeps s := by
  unfold State.complete
  split <;> simp [State.giveCmp]

@[simp] theorem State.completeAt_keeps (r : Req) (st : CStatus) (d : List (BitVec 512)) (ls : BitVec 16) :
    (s.completeAt ch r st d ls).Keeps s := by
  simp [State.completeAt]

/-! The checks before the line (R64, R127). -/

@[simp] theorem State.block_keeps (page : Nat) : (s.block page).Keeps s := by
  simp only [State.block]
  repeat' split
  all_goals simp

@[simp] theorem State.logKeyEmpty_keeps (slot access : Nat) (m : MasterId) : (s.logKeyEmpty slot access m).Keeps s := by
  simp only [State.logKeyEmpty]
  split <;> simp

@[simp] theorem State.countDenied_keeps : (s.countDenied ch).Keeps s := by
  simp [State.countDenied]

@[simp] theorem State.gate_keeps (m : MasterId) (a access : Nat) (inside : Bool) : (s.gate m a access inside).1.Keeps s := by
  simp only [State.gate]
  repeat' split
  all_goals simp

@[simp] theorem State.pageCheckWith_keeps (m : MasterId) (a access : Nat) (write : Bool) (e : W32) (held : Bool) :
    (s.pageCheckWith m ch a access write e held).1.Keeps s := by
  simp only [State.pageCheckWith]
  repeat' split
  all_goals simp

/-! Offline channels and parity (R49, R53, R55). -/

@[simp] theorem State.failHeld_keeps (st : CStatus) : (s.failHeld ch st).Keeps s := by
  simp only [State.failHeld]
  exact (State.Keeps.foldl (by simp) _ _).trans (by simp)

@[simp] theorem State.goOffline_keeps (cause : Nat) : (s.goOffline ch cause).Keeps s := by
  simp only [State.goOffline]
  split
  · simp
  · split <;> simp

@[simp] theorem State.clockFault_keeps : (s.clockFault ch).Keeps s := by
  simp only [State.clockFault]
  split <;> simp

@[simp] theorem State.parityCheck_keeps (layer : Nat) (write : Bool) (mis : BitVec 20) :
    (s.parityCheck ch layer write mis).Keeps s := by
  simp only [State.parityCheck]
  refine State.Keeps.ite ((State.clockFault_keeps ..).trans ?_) ?_
  all_goals exact State.Keeps.ite (State.Keeps.foldl (by simp) _ _) (by simp)

@[simp] theorem State.crossRead_keeps (layer : Nat) (wrong : BitVec 10240) (par : BitVec 20) :
    (s.crossRead ch layer wrong par).1.Keeps s := by
  simp [State.crossRead, State.crossBits]

/-! A row read within a command (R44, R76, R95). -/

theorem State.activate_keeps {t : State} {layer k w : Nat} (h : s.activate ch layer k w = some t) : t.Keeps s := by
  simp only [State.activate] at h
  split at h
  · cases h
    simp
  · cases h

@[simp] theorem State.takeSlot_keeps (row cls : Nat) : (s.takeSlot ch row cls).Keeps s := by
  unfold State.takeSlot
  split
  · simp
  · split
    · simp
    · rename_i h
      simp [State.noteSlot, s.activate_keeps ch h]

@[simp] theorem State.issueRa_keeps : (s.issueRa ch).1.Keeps s := by
  simp [State.issueRa]

@[simp] theorem State.retireReason_keeps (page reason : Nat) : (s.retireReason page reason).Keeps s := by
  simp only [State.retireReason]
  split <;> split <;> simp

@[simp] theorem State.noteCorrected_keeps (key t e : Nat) (m : MasterId) (access : Nat) :
    (s.noteCorrected ch key t e m access).Keeps s := by
  exact State.Keeps.ite (by simp) (by simp)

@[simp] theorem State.receiveLine_keeps (key : Nat) (wrong : SLine) (inj : Nat) (m : MasterId) (access : Nat) :
    (s.receiveLine ch key wrong inj m access).1.Keeps s := by
  simp only [State.receiveLine]
  split
  · simp
  · split <;> simp [State.noteUncorrectable]

@[simp] theorem State.receiveRow_keeps (row : Nat) (wrong : BitVec 10240) (n named : Nat) (m : MasterId) (access : Nat) :
    (s.receiveRow ch row wrong n named m access).1.Keeps s := by
  simp only [State.receiveRow]
  generalize hr : List.foldl _ _ _ = r
  have hk : r.1.Keeps s := hr ▸ State.Keeps.foldl_fst (by simp) _ _
  simpa using hk

@[simp] theorem State.cacheRow_keeps (row : Nat) (ls : List (SLine × DecodeOut)) (stream : Bool) :
    (s.cacheRow ch row ls stream).Keeps s := by
  simp [State.cacheRow]

@[simp] theorem State.rowNow_keeps (key : Nat) (m : MasterId) (access cls : Nat) (stream : Bool) :
    (s.rowNow ch key m access cls stream).1.Keeps s := by
  simp [State.rowNow]

@[simp] theorem State.countHit_keeps (row : Nat) (cached : Bool) : (s.countHit ch row cached).Keeps s := by
  simp [State.countHit]

@[simp] theorem State.lineNow_keeps (key : Nat) (m : MasterId) (access cls : Nat) (stream : Bool) :
    (s.lineNow ch key m access cls stream).1.Keeps s := by
  have hrow := s.rowNow_keeps ch key m access cls stream
  unfold State.lineNow
  split
  · split
    · exact State.Keeps.ite (by simp) (by simp)
    · simp
  · dsimp only
    exact hrow.modCtl ch _

/-! Counter lines and tags (R140-R147). -/

@[simp] theorem State.walkFail_keeps (k i : Nat) (st : CStatus) (kind : Nat) : (s.walkFail k i st kind).Keeps s := by
  simp [State.walkFail]

@[simp] theorem State.evictCtr_keeps (keep : Nat) : (s.evictCtr keep).Keeps s := by
  simp only [State.evictCtr]
  repeat' split
  all_goals simp

@[simp] theorem State.setCtr_keeps (k i : Nat) (c : CtrLine) : (s.setCtr k i c).Keeps s := by
  simp [State.setCtr]

@[simp] theorem State.fetchCtr_keeps (k i : Nat) : (s.fetchCtr k i).1.Keeps s := by
  simp only [State.fetchCtr]
  repeat' split
  all_goals simp

@[simp] theorem State.walkNow_keeps (fuel k i : Nat) : (s.walkNow fuel k i).1.Keeps s := by
  induction fuel generalizing s with
  | zero => simp [State.walkNow]
  | succ fuel ih =>
    simp only [State.walkNow]
    repeat' split
    all_goals simp [ih]

@[simp] theorem State.tagFail_keeps (e : W32) (a key : Nat) (m : MasterId) (access : Nat) (pw : Bool) :
    (s.tagFail ch e a key m access pw).Keeps s := by
  simp only [State.tagFail]
  repeat' split
  all_goals simp

@[simp] theorem State.openLine_keeps (m : MasterId) (access : Nat) (e : W32) (a : Nat) (ln : SLine × DecodeOut) (pw : Bool) :
    (s.openLine ch m access e a ln pw).1.Keeps s := by
  simp only [State.openLine]
  repeat' split
  all_goals simp

@[simp] theorem State.bumpCtr_keeps (i x : Nat) : (s.bumpCtr i x).1.Keeps s := by
  simp only [State.bumpCtr]
  repeat' split
  all_goals simp

@[simp] theorem State.writeCtr_keeps (e : W32) (a key : Nat) : (s.writeCtr ch e a key).1.Keeps s := by
  simp only [State.writeCtr]
  repeat' split
  all_goals simp

@[simp] theorem State.storedForm_keeps (m : MasterId) (access : Nat) (e : W32) (a key : Nat) (d : BitVec 512) (p : Bool) (cls : BitVec 4) :
    (s.storedForm ch m access e a key d p cls).1.Keeps s := by
  simp only [State.storedForm]
  repeat' split
  all_goals simp

@[simp] theorem State.countSealed_keeps : (s.countSealed ch).Keeps s := by
  simp [State.countSealed]

@[simp] theorem State.enqueue_keeps (w : WqLine) (r : Option Req) : (s.enqueue ch w r).1.Keeps s := by
  simp only [State.enqueue]
  split <;> simp

/-! Requests at their slice (R71-R74, R141, R143). -/

@[simp] theorem State.pushWalk_keeps (r : Req) (e : W32) (got : HeldLines) (bad : List (Nat × CStatus)) (idx : Nat) :
    (s.pushWalk ch r e got bad idx).Keeps s := by
  simp only [State.pushWalk]
  repeat' split
  all_goals simp

@[simp] theorem State.readOne_keeps (r : Req) (e : W32) (got : HeldLines) (bad : List (Nat × CStatus)) (a : Nat) :
    (s.readOne ch r e got bad a).1.Keeps s := by
  simp only [State.readOne]
  split <;> simp

@[simp] theorem State.holdSource_keeps (r : Req) : (s.holdSource ch r).Keeps s := by
  simp only [State.holdSource]
  split <;> simp

@[simp] theorem State.serveLine_keeps (r : Req) (e : W32) (got : HeldLines) (bad : List (Nat × CStatus)) :
    (s.serveLine ch r e got bad).Keeps s := by
  simp [State.serveLine]

@[simp] theorem State.serveRow_keeps (r : Req) (e : W32) (got : HeldLines) (bad : List (Nat × CStatus)) :
    (s.serveRow ch r e got bad).Keeps s := by
  simp only [State.serveRow]
  refine (State.holdSource_keeps ..).trans ((State.complete_keeps ..).trans ?_)
  exact State.Keeps.foldl_fst (by simp) _ _

@[simp] theorem State.storeFor_keeps (r : Req) (e : W32) (a : Nat) (d : BitVec 512) (p : Bool) :
    (s.storeFor ch r e a d p).Keeps s := by
  simp only [State.storeFor]
  split <;> simp

@[simp] theorem State.servePartial_keeps (r : Req) (e : W32) (got : HeldLines) (d : BitVec 512) (m : BitVec 64) :
    (s.servePartial ch r e got d m).Keeps s := by
  simp only [State.servePartial]
  repeat' split
  all_goals simp

@[simp] theorem State.serveWrite_keeps (r : Req) (e : W32) (d : BitVec 512) (p : Bool) : (s.serveWrite ch r e d p).Keeps s := by
  simp only [State.serveWrite]
  split <;> simp

@[simp] theorem State.serveRowWrite_keeps (r : Req) (e : W32) (d : List (BitVec 512)) (p : BitVec 16) :
    (s.serveRowWrite ch r e d p).Keeps s := by
  simp only [State.serveRowWrite]
  have hk : ∀ acc : State × CStatus × Bool, acc.1.Keeps s →
      (if acc.2.2 then acc.1.modCtl ch (fun c => { c with wqWait := c.wqWait.dropLast ++
        (c.wqWait.getLast?.toList.map (fun w => { w with req := some r, st := acc.2.1 })) })
      else acc.1.completeAt ch r acc.2.1).Keeps s := by
    intro acc h
    split <;> simp [h]
  refine hk _ (State.Keeps.foldl_fst (fun acc i => ?_) _ _)
  split <;> simp

@[simp] theorem State.serve_keeps (r : Req) (e : W32) (got : HeldLines) (bad : List (Nat × CStatus)) :
    (s.serve ch r e got bad).Keeps s := by
  simp only [State.serve]
  repeat' split
  all_goals simp

@[simp] theorem State.pushRq_keeps (r : Req) (e : W32) : (s.pushRq ch r e).Keeps s := by
  simp [State.pushRq]

@[simp] theorem State.noteWrites_keeps (r : Req) : (s.noteWrites r).Keeps s := by
  unfold State.noteWrites
  split
  · exact State.Keeps.foldl (by simp) _ _
  · simp

@[simp] theorem State.atSlice_keeps (r : Req) : (s.atSlice r).Keeps s := by
  refine State.Keeps.trans ?_ (s.noteWrites_keeps r)
  simp only [State.atSlice, ← State.noteWrites.eq_def s r]
  repeat' split
  all_goals simp

@[simp] theorem State.drainWaiting_keeps : (s.drainWaiting ch).Keeps s := by
  simp only [State.drainWaiting]
  exact State.Keeps.foldl (by simp) _ _

@[simp] theorem State.endWalk_keeps (w : Walk) (st : CStatus) : (s.endWalk w st).Keeps s := by
  simp only [State.endWalk]
  refine (State.Keeps.foldl (by simp) _ _).trans ((State.Keeps.foldl (fun u x => ?_) _ _).trans (by simp))
  repeat' split
  all_goals simp

/-! Accesses within one command (log entry 8). -/

@[simp] theorem State.ensureCtr_keeps (e : W32) (a : Nat) : (s.ensureCtr ch e a).1.Keeps s := by
  simp only [State.ensureCtr]
  repeat' split
  all_goals simp

@[simp] theorem State.admitWith_keeps (m : MasterId) (a access : Nat) (write : Bool) (e : W32) (inside : Bool) :
    (s.admitWith m a access write e inside).1.Keeps s := by
  have hg := s.started.gate_keeps m a access inside
  simp only [State.admitWith]
  split
  · simp_all
  · rename_i u hu
    have hc := u.pageCheckWith_keeps (u.decodeAddr a).ch m a access write e false
    split <;> simp_all

@[simp] theorem State.openNow_keeps (m : MasterId) (a access : Nat) (e : W32) (ln : SLine × DecodeOut) (pw : Bool) :
    (s.openNow m a access e ln pw).1.Keeps s := by
  have hc := s.ensureCtr_keeps (s.decodeAddr a).ch e a
  simp only [State.openNow]
  repeat' split
  all_goals simp_all

@[simp] theorem State.storeFullNow_keeps (m : MasterId) (a access : Nat) (cls : BitVec 4) (d : BitVec 512) (p : Bool) :
    (s.storeFullNow m a access cls d p).1.Keeps s := by
  simp only [State.storeFullNow]
  split <;> simp

@[simp] theorem State.storePartNow_keeps (m : MasterId) (a access : Nat) (cls : BitVec 4) (d : BitVec 512) (mask : BitVec 64) :
    (s.storePartNow m a access cls d mask).1.Keeps s := by
  generalize hr : s.lineNow (s.decodeAddr a).ch (s.decodeAddr a).key m access cls.toNat false = r
  have hl : r.1.Keeps s := by simp [← hr]
  have ho := r.1.openNow_keeps m a access (s.pageEntry (a / 131072)) r.2 true
  simp only [State.storePartNow, hr]
  repeat' split
  all_goals simp_all

@[simp] theorem State.writeNow_keeps (m : MasterId) (a access : Nat) (cls : BitVec 4) (d : BitVec 512) (mask : BitVec 64)
    (p inside : Bool) : (s.writeNow m a access cls d mask p inside).1.Keeps s := by
  have ha := s.admitWith_keeps m (a / 64 * 64) access true (s.pageEntry (a / 64 * 64 / 131072)) inside
  simp only [State.writeNow]
  split
  · rename_i u hu
    have hc := u.ensureCtr_keeps (u.decodeAddr (a / 64 * 64)).ch (s.pageEntry (a / 64 * 64 / 131072)) (a / 64 * 64)
    repeat' split
    all_goals simp_all [State.parkWrite]
  · simp_all

@[simp] theorem State.writeBytesNow_keeps (m : MasterId) (a access : Nat) (cls : BitVec 4) (bs : List Byte) (inside : Bool) :
    (s.writeBytesNow m a access cls bs inside).1.Keeps s := by
  simp only [State.writeBytesNow]
  exact State.Keeps.foldl_fst (by simp) _ _

@[simp] theorem State.copyOut_keeps (a : Nat) (bs : List Byte) : (s.copyOut a bs).Keeps s := by
  refine State.Keeps.foldl (fun u i => ?_) _ _
  exact State.Keeps.ite (by simp) (State.Keeps.ite (by simp) (by simp))

variable (l : SubLink)

/-! Messages on sub-links (R275-R295). -/

@[simp] theorem State.sendMsgFlit_keeps (xs : List (BitVec 128)) : (s.sendMsgFlit l xs).Keeps s := by
  simp [State.sendMsgFlit, State.sendFlit]

@[simp] theorem State.sendSlots_keeps (xs : List (BitVec 128)) : (s.sendSlots l xs).Keeps s :=
  State.Keeps.foldl (by simp) _ _

@[simp] theorem State.pump_keeps (n : Nat) : (State.pump n s l).Keeps s := by
  induction n generalizing s with
  | zero => simp [State.pump]
  | succ n ih =>
    simp only [State.pump]
    repeat' split
    all_goals simp [ih]

@[simp] theorem State.sendOn_keeps (m : Msg) : (s.sendOn l m).Keeps s := by
  simp [State.sendOn, State.pumpAll]

@[simp] theorem State.deliverCmp_keeps (m : Msg) : (s.deliverCmp m).Keeps s := by
  simp only [State.deliverCmp]
  repeat' split
  all_goals simp [State.giveCmp, State.lateCmp, State.sealFail]

@[simp] theorem State.sendBack_keeps (m : Msg) : (s.sendBack l m).Keeps s := by
  unfold State.sendBack
  split <;> simp [State.lateCmp]

@[simp] theorem State.retrace_keeps (m : Msg) : (s.retrace m).Keeps s := by
  simp only [State.retrace]
  repeat' split
  all_goals simp [State.lateCmp, State.dropTransit]

@[simp] theorem State.route_keeps (d : BitVec 12) : (s.route d).1.Keeps s := by
  simp only [State.route]
  repeat' split
  all_goals simp

@[simp] theorem State.mgmtSend_keeps (use : MgmtUse) (ty : Nat) (d : Dest) (lo : Nat) (xs : List (BitVec 128)) :
    (s.mgmtSend use ty d lo xs).1.Keeps s := by
  simp only [State.mgmtSend]
  cases d <;> dsimp only <;> split <;> simp [State.addTransit, State.noRoute]

@[simp] theorem State.probe_keeps (e : EnumSt) (k : Nat) : (s.probe e k).1.Keeps s := by
  simp only [State.probe]
  split <;> simp [State.modEnum]

@[simp] theorem State.msix_keeps (h : Fin 8) (v : BitVec 8) : (s.msix h v).Keeps s := by
  obtain ⟨a, d, he⟩ | he := msix_cases s h v <;> simp [he]

/-! Replies (R340, R345): the command interface changes, but not what start-up has set up in it. -/

/-- LOCK, the scrubber, the boot registers, the service of the rings and their enables are those of `s`. -/
@[simp] abbrev State.KeepsSetUp (t s : State) : Prop :=
  t.glb.mapLock = s.glb.mapLock ∧ t.scrub = s.scrub ∧ t.boot = s.boot ∧ t.cmd.ringsReady = s.cmd.ringsReady ∧
    t.cmd.rings.map Ring.en = s.cmd.rings.map Ring.en

theorem map_vmod {α β : Type} {n : Nat} {g : α → β} {f : α → α} (h : ∀ x, g (f x) = g x) (v : Vector α n) (i : Fin n) :
    (vmod v i f).map g = v.map g := by
  have hself : (v.map g).set i.val (g v[i.val]) = v.map g := by
    rw [← Vector.getElem_map g (xs := v) (by simp), Vector.set_getElem_self]
  simpa [vmod, vput, Vector.map_set, h] using hself

theorem State.KeepsSetUp.trans {a b c : State} (h : a.KeepsSetUp b) (h' : b.KeepsSetUp c) : a.KeepsSetUp c := by
  simp_all

theorem State.Keeps.setUp {a b : State} (h : a.Keeps b) : a.KeepsSetUp b := by
  simp_all

@[simp] theorem State.ringFail_keepsSetUp (r : Fin 32) : (s.ringFail r).KeepsSetUp s := by
  unfold State.ringFail
  split
  · simp
  · simp [map_vmod]

/-- The end of a reply (R340): the ring stops where the write of its slot was refused, else DONE rises and the interrupt follows. -/
def State.ringAnswered (w : State × CStatus) (x : Ring) (r : Fin 32) (c : CmdCtx) : State :=
  if w.2 ≠ .ok then w.1.ringFail r
  else
    let s := w.1.modRing r (fun x => { x with done := x.done + 1, busy := false })
    if c.irq && x.vector ≠ 0 then s.msix x.hostPort x.vector else s

theorem State.ringAnswered_keepsSetUp (w : State × CStatus) (x : Ring) (r : Fin 32) (c : CmdCtx) :
    (State.ringAnswered w x r c).KeepsSetUp w.1 := by
  simp only [State.ringAnswered]
  repeat' split
  all_goals simp [map_vmod]

theorem State.ringReply_eq (r : Fin 32) (c : CmdCtx) (st : CmdStatus) (v : W64) : ∃ m a bs, s.ringReply r c st v =
    if (s.cmd.rings[r]).failed || (s.cmd.rings[r]).stale then s.modRing r (fun x => { x with stale := false })
    else State.ringAnswered (s.writeBytesNow m a acCommand 15 bs) (s.cmd.rings[r]) r c := ⟨_, _, _, rfl⟩

@[simp] theorem State.ringReply_keepsSetUp (r : Fin 32) (c : CmdCtx) (st : CmdStatus) (v : W64) : (s.ringReply r c st v).KeepsSetUp s := by
  obtain ⟨m, a, bs, heq⟩ := s.ringReply_eq r c st v
  rw [heq]
  split
  · simp [map_vmod]
  · exact (State.ringAnswered_keepsSetUp ..).trans (s.writeBytesNow_keeps m a acCommand 15 bs false).setUp

@[simp] theorem State.finish_keepsSetUp (w : CmdWait) (st : CmdStatus) (v : W64) : (s.finish w st v).KeepsSetUp s := by
  simp only [State.finish, State.reply, State.replyRaw]
  split <;> simp [State.directReply]

@[simp] theorem State.fabEnd_keepsSetUp (op : Nat) (st : CmdStatus) (v : W64) : (s.fabEnd op st v).KeepsSetUp s := by
  unfold State.fabEnd
  split <;> simp

@[simp] theorem State.enumStep_keepsSetUp (n : Nat) : (State.enumStep n s).KeepsSetUp s := by
  induction n generalizing s with
  | zero => simp [State.enumStep]
  | succ n ih =>
    simp only [State.enumStep]
    repeat' split
    all_goals simp [ih, State.modEnum, State.setRoute]

@[simp] theorem State.startEnum_keepsSetUp : s.startEnum.KeepsSetUp s := by
  simp [State.startEnum, State.enumGo]

end Sys2Proof.Machine
end

section
/-! PROOFS. From reset to the boot state (R117, R389-R392, R410). -/

namespace Sys2Proof.Machine

/-! The proofs of this section are checked one after the other: many at once hold more memory than the check of the whole text has. -/

set_option Elab.async false

variable {s : State}

/-! Straps (R389). -/

/-- Each bit of the straps is the majority of its three samples. -/
theorem majority_getLsbD (a b c : BitVec 6) (i : Nat) : (a &&& b ||| a &&& c ||| b &&& c).getLsbD i =
    (a.getLsbD i && b.getLsbD i || a.getLsbD i && c.getLsbD i || b.getLsbD i && c.getLsbD i) := by
  simp only [BitVec.getLsbD_or, BitVec.getLsbD_and]

theorem exec_strapSample (hp : s.boot.phase = .released) (a b c : BitVec 6) : exec (.strapSample a b c) s = .next
    { s with boot := { s.boot with straps := a &&& b ||| a &&& c ||| b &&& c, phase := .strapped } } := by
  simp only [exec, execStrapSample, hp]
  rfl

theorem exec_strapSample_early (hp : s.boot.phase ≠ .released) (a b c : BitVec 6) : exec (.strapSample a b c) s = .next s := by
  simp only [exec, execStrapSample]
  exact if_neg hp

/-! Fuses (R410). -/

/-- The events of several regions, one after the other, are logged and change nothing else. -/
theorem foldl_fuseLog_eq (p : Nat → Bool) (id : Nat) (l : List Nat) (s : State) :
    ∃ f, l.foldl (fun s r => if p r then s.fuseLog id r 0 else s) s = { s with flt := f } := by
  induction l generalizing s with
  | nil => exact ⟨_, rfl⟩
  | cons r l ih =>
    rw [List.foldl_cons]
    obtain ⟨f, hf⟩ := ih (if p r then s.fuseLog id r 0 else s)
    rw [hf]
    split <;> exact ⟨_, rfl⟩

theorem exec_fuseSensing (hp : s.boot.phase = .strapped) (rs : List FuseSense) : ∃ f c, exec (.fuseSensing rs) s = .next
    { s.loadShadows rs with
      fuse := { (s.loadShadows rs).fuse with crcBad := c }, boot := { s.boot with phase := .sensed }, flt := f } := by
  have hw : ¬ s.boot.phase ≠ .strapped := by simp [hp]
  simp only [exec, execFuseSensing, if_neg hw]
  split
  all_goals
    obtain ⟨f, hf⟩ := foldl_fuseLog_eq _ evFuseCrc (List.range 8) _
    exact ⟨f, _, congrArg _ hf⟩

theorem exec_fuseSensing_early (hp : s.boot.phase ≠ .strapped) (rs : List FuseSense) : exec (.fuseSensing rs) s = .next s := by
  simp only [exec, execFuseSensing]
  exact if_pos hp

theorem loadShadows_marginal (s : State) (rs : List FuseSense) (w : Nat) :
    w ∈ (s.loadShadows rs).fuse.marginal ↔ w < 2048 ∧ ∃ r ∈ rs, r.word = w ∧ r.low ≠ r.high := by
  simp only [State.loadShadows, List.mem_filter, List.mem_range, List.contains_iff_mem, List.mem_map, bne_iff_ne, decide_eq_true_eq]
  constructor
  · rintro ⟨hw, r, ⟨⟨hr, -⟩, hd⟩, rfl⟩
    exact ⟨hw, r, hr, rfl, hd⟩
  · rintro ⟨hw, r, hr, rfl, hd⟩
    exact ⟨hw, r, ⟨⟨hr, hw⟩, hd⟩, rfl⟩

theorem loadShadows_alarm (s : State) (rs : List FuseSense) :
    (s.loadShadows rs).fuse.alarm = true ↔ ∃ r ∈ rs, r.word < 2048 ∧ r.low ≠ r.high := by
  simp [State.loadShadows, and_assoc, and_comm (a := ¬_)]

/-! Self-test (R117-R119). -/

theorem selfTest_passes (s : State) (ch : Fin 64) :
    s.selfTest ch {} = s.modCh ch (fun c => { c with ecc := { c.ecc with selftest := 0x40000000#32 } }) := rfl

theorem foldl_modCh_eq (f : Channel → Channel) (l : List (Fin 64)) (s : State) :
    l.foldl (fun s n => s.modCh n f) s = { s with chs := l.foldl (fun v n => vmod v n f) s.chs } := by
  induction l generalizing s with
  | nil => rfl
  | cons n l ih => exact ih _

/-- Every channel updated once. -/
theorem foldl_modCh_all (f : Channel → Channel) (s : State) :
    (fins 64).foldl (fun s n => s.modCh n f) s = s.mapChs (fun _ => f) := by
  have hchs : (fins 64).foldl (fun v n => vmod v n f) s.chs = Vector.ofFn (fun i => f s.chs[i]) := by
    refine Vector.ext fun i hi => ?_
    have hfold := foldl_vmod f (List.nodup_finRange 64) s.chs ⟨i, hi⟩
    simpa [fins] using hfold
  rw [foldl_modCh_eq, hchs, State.mapChs]

theorem exec_checkerSelftest_passes (hp : s.boot.phase = .sensed) : exec (.checkerSelftest []) s = .next
    { (s.mapChs (fun _ c => { c with ecc := { c.ecc with selftest := 0x40000000#32 } })) with
      boot := { s.boot with phase := .tested } } := by
  simp only [exec, execCheckerSelftest, hp, List.find?_nil, Option.map_none, Option.getD_none, selfTest_passes]
  rw [foldl_modCh_all]
  rfl

theorem exec_checkerSelftest_early (hp : s.boot.phase ≠ .sensed) (rs : List ChanTest) : exec (.checkerSelftest rs) s = .next s := by
  simp only [exec, execCheckerSelftest]
  exact if_neg hp

/-! The boot ROM (R391, R392, R404). -/

/-- The usable digest slots (R424). -/
def State.usableSlots (s : State) : BitVec 4 := (List.range 4).foldl (fun (v : BitVec 4) i => setBit v i (s.digestUsable i)) 0

theorem usableSlots_getLsbD {i : Nat} (hi : i < 4) : s.usableSlots.getLsbD i = s.digestUsable i := by
  have hbits : ∀ (f : Fin 4 → Bool) (i : Fin 4),
      ((List.finRange 4).foldl (fun (v : BitVec 4) i => setBit v i.val (f i)) 0).getLsbD i.val = f i := by decide
  exact hbits (fun i => s.digestUsable i.val) ⟨i, hi⟩

/-- The state in which the boot ROM configures the ports: its decision is made, the paths are open and every District starts. -/
def State.romDecided (s : State) : State :=
  { s with
    boot := { s.boot with
      usable := s.usableSlots, cxlPath := s.cxlOpen, scezoPath := s.scezoOpen, i3cPath := true, fullTest := s.regionDoubt 1,
      phase := if s.bootHalts s.usableSlots then .fuseAlarm else .boot },
    dist := s.dist.map (fun d => { d with fn := { st := .starting } }) }

theorem exec_bootRomReady (hp : s.boot.phase = .tested) (hs : s.flt.stopped = false) :
    exec .bootRomReady s = .next ((fins 64).foldl State.bootPortOn s.romDecided) := by
  simp only [exec, execBootRomReady, hp, hs]
  rfl

theorem exec_bootRomReady_early (hp : s.boot.phase ≠ .tested) : exec .bootRomReady s = .next s := by
  simp only [exec, execBootRomReady]
  exact if_pos (by simp [hp])

/-- What the configuration of the ports leaves alone. -/
def State.romKept (s : State) : Boot × Vector District 8 × Flt × Vector Channel 64 × Memory := (s.boot, s.dist, s.flt, s.chs, s.dram)

theorem bootPortOn_romKept (s : State) (p : Fin 64) : (s.bootPortOn p).romKept = s.romKept := by
  simp only [State.bootPortOn]
  repeat' split
  all_goals rfl

theorem startUpFollowsItsSteps : Part.StartUpFollowsItsSteps := by
  refine fun s => ⟨fun hp a b c => ⟨_, exec_strapSample hp a b c, rfl, majority_getLsbD a b c, rfl⟩, exec_strapSample_early,
    fun hp rs => ?_, exec_fuseSensing_early, exec_checkerSelftest_passes, exec_checkerSelftest_early, fun hp hs => ?_,
    exec_bootRomReady_early⟩
  · obtain ⟨f, c, hexec⟩ := exec_fuseSensing hp rs
    refine ⟨_, hexec, rfl, rfl, rfl, ?_⟩
    dsimp only
    exact ⟨loadShadows_marginal s rs, loadShadows_alarm s rs, rfl⟩
  · have hkept : ((fins 64).foldl State.bootPortOn s.romDecided).romKept = s.romDecided.romKept :=
      foldl_keeps State.romKept bootPortOn_romKept _ _
    simp only [State.romKept, Prod.mk.injEq] at hkept
    obtain ⟨hboot, hdist, hflt, hchs, hdram⟩ := hkept
    refine ⟨_, exec_bootRomReady hp hs, ?_⟩
    rw [hboot, hdist]
    refine ⟨fun i => usableSlots_getLsbD, rfl, rfl, rfl, rfl, rfl, fun k => ?_, hflt, hchs, hdram⟩
    simp [State.romDecided]

end Sys2Proof.Machine
end

section
/-! PROOFS. Firmware start-up, from the boot state to STACK_READY (R401, R403). -/

namespace Sys2Proof.Machine

/-! The proofs of this section are checked one after the other: many at once hold more memory than the check of the whole text has. -/

set_option Elab.async false

variable {s : State}

/-! The steps of firmware start-up (R401; each step is one FIRMWARE_STARTUP, log entry 65). -/

section Startup

variable (hp : s.boot.phase = .starting) (hs : s.flt.stopped = false)
include hp hs

theorem exec_firmwareStartup_begins (h : s.boot.fwStep = 0) : exec .firmwareStartup s = .next s.fwFirst := by
  simp only [exec, execFirmwareStartup, hp, hs, h]
  rfl

theorem exec_firmwareStartup_districts (h : s.boot.fwStep = 1) : exec .firmwareStartup s =
    if !s.allOn then .next s else if s.boot.fillNeeded && !s.glb.mapLock then .next s.fwFill else .next s.fwLast := by
  simp only [exec, execFirmwareStartup, hp, hs, h]
  rfl

theorem exec_firmwareStartup_fill (h : s.boot.fwStep = 2) : exec .firmwareStartup s =
    if s.filled then .next s.fwLast else .next s := by
  simp only [exec, execFirmwareStartup, hp, hs, h]
  rfl

theorem exec_firmwareStartup_ends (h : s.boot.fwStep = 1 ∧ s.allOn = true ∧ (s.boot.fillNeeded = false ∨ s.glb.mapLock = true) ∨
    s.boot.fwStep = 2 ∧ s.filled = true) : exec .firmwareStartup s = .next s.fwLast := by
  obtain ⟨h, ho, hf⟩ | ⟨h, hf⟩ := h
  · rw [exec_firmwareStartup_districts hp hs h, if_neg (by simp [ho]), if_neg]
    obtain hf | hl := hf
    · simp [hf]
    · simp [hl]
  · rw [exec_firmwareStartup_fill hp hs h, if_pos hf]

end Startup

/-- LOCK, then the segment map's entry 0 where it is not valid (R401). -/
def State.fwMapped (s : State) : State :=
  let s := { s with glb := { s.glb with mapLock := true } }
  if s.boot.cold && !segValid (smGetD s.cmd.segs 0 0) then
    ({ s with cmd := { s.cmd with segs := smPut s.cmd.segs 0 segDefault } }).copyOut 0 (toBytes segDefault 8)
  else s

theorem fwMapped_keeps (s : State) : s.fwMapped.glb.mapLock = true ∧ s.fwMapped.scrub = s.scrub := by
  unfold State.fwMapped
  dsimp only
  split <;> simp

/-- The rings and the scrubber follow (R401). -/
def State.fwServed (s : State) : State :=
  let s := { s with cmd := { s.cmd with rings := Vector.ofFn fwRing, ringsReady := true } }
  let s := if s.scrub.fn.st = .off then s.startScrub else s
  { s with boot := { s.boot with fwStep := 3 } }

theorem fwRing_en (r : Fin 32) : (fwRing r).en = decide (r.val < 8) := by
  unfold fwRing
  split <;> simp_all

theorem fwServed_setUp (s : State) : s.fwServed.glb.mapLock = s.glb.mapLock ∧ s.fwServed.cmd.ringsReady = true ∧
    s.fwServed.boot.fwStep = 3 ∧ (∀ r : Fin 32, (s.fwServed.cmd.rings[r]).en = decide (r.val < 8)) ∧
    (s.scrub.fn.st = .off → s.fwServed.scrub.fn.st = .starting) := by
  unfold State.fwServed
  dsimp only
  split <;> simp_all [State.startScrub, fwRing_en]

/-- The master takes its ID and begins the enumeration (R401). -/
def State.fwMastered (s : State) : State :=
  if s.fabMaster then
    let s := { s with fab := { s.fab with nodeId := 0 } }
    if s.anyRun && s.fab.enum.isNone then s.startEnum else s
  else s

theorem fwLast_eq (s : State) : s.fwLast = s.fwMapped.fwServed.fwMastered := rfl

theorem fwMastered_keepsSetUp (s : State) : s.fwMastered.KeepsSetUp s := by
  unfold State.fwMastered
  dsimp only
  repeat' split
  all_goals simp

theorem fwLast_setUp (s : State) : s.fwLast.glb.mapLock = true ∧ s.fwLast.cmd.ringsReady = true ∧ s.fwLast.boot.fwStep = 3 ∧
    (∀ r : Fin 32, (s.fwLast.cmd.rings[r]).en = decide (r.val < 8)) ∧ (s.scrub.fn.st = .off → s.fwLast.scrub.fn.st = .starting) := by
  obtain ⟨hmap, hscrub⟩ := fwMapped_keeps s
  obtain ⟨hlock, hready, hstep, hen, hstart⟩ := fwServed_setUp s.fwMapped
  obtain ⟨klock, kscrub, kboot, kready, ken⟩ := fwMastered_keepsSetUp s.fwMapped.fwServed
  rw [fwLast_eq]
  refine ⟨klock.trans (hlock.trans hmap), kready.trans hready, kboot ▸ hstep, fun r => ?_, fun h => ?_⟩
  · rw [← hen r]
    simpa using congrArg (fun v => v[r]) ken
  · rw [kscrub]
    exact hstart (by rw [hscrub, h])

/-- The conditions of R403. -/
def State.startedUp (s : State) : Prop :=
  (∀ k : Fin 8, s.distOn k = true) ∧ s.glb.mapLock = true ∧
    (s.boot.fillNeeded = true → ∀ n : Fin 64, (s.chs[n]).tsv.offline = true ∨ (s.chs[n]).ecc.initDone = true) ∧
    segValid (smGetD s.cmd.segs 0 0) = true ∧ s.cmd.ringsReady = true ∧ s.scrub.fn.st = .on

theorem allOn_iff : s.allOn = true ↔ ∀ k : Fin 8, s.distOn k = true := by
  simp [State.allOn, fins]

theorem exec_stackReady (hp : s.boot.phase = .starting) (hs : s.flt.stopped = false) :
    (s.startedUp → exec .stackReady s = .next { s with boot := { s.boot with
      phase := .ready, readyTime := BitVec.ofNat 32 ((s.now - s.boot.leftReset) / 1000) } }) ∧
    (¬s.startedUp → exec .stackReady s = .next s) := by
  have hc : s.startedUp ↔ (decide (s.boot.phase = .starting) && !s.flt.stopped && s.allOn && s.glb.mapLock &&
      (!s.boot.fillNeeded || s.chs.toList.all (fun c => c.tsv.offline || c.ecc.initDone)) &&
      segValid (smGetD s.cmd.segs 0 0) && s.cmd.ringsReady && decide (s.scrub.fn.st = .on)) = true := by
    simp only [State.startedUp, hp, hs, Bool.and_eq_true, Bool.or_eq_true, allOn_iff, toList_all, Bool.not_eq_true', decide_eq_true_eq,
      true_and, and_assoc, ← Bool.not_eq_true, imp_iff_not_or]
  simp only [exec, execStackReady, hc]
  exact ⟨fun h => if_pos h, fun h => if_neg h⟩

theorem firmwareStartsTheStack : Part.FirmwareStartsTheStack := by
  refine fun s hp hs => ⟨fun h => ⟨_, exec_firmwareStartup_begins hp hs h, rfl, rfl⟩, fun h ho => ?_, fun h ho hf hl => ⟨?_, rfl⟩,
    fun h => ⟨_, exec_firmwareStartup_ends hp hs h, fwLast_setUp s⟩, fun h hf => ?_, exec_stackReady hp hs⟩
  · rw [exec_firmwareStartup_districts hp hs h, if_pos (by simp [ho])]
  · rw [exec_firmwareStartup_districts hp hs h, if_neg (by simp [ho]), if_pos (by simp [hf, hl])]
  · rw [exec_firmwareStartup_fill hp hs h, if_neg (by simp [hf])]

/-- Settles O54: each step up to the boot state by what it does in its phase and outside it; what the last step of firmware start-up has
set up stands through the stores into the command area and the enumeration (`fwLast_setUp`). -/
theorem startUpReachesReady : Obligations.StartUpReachesReady := ⟨startUpFollowsItsSteps, firmwareStartsTheStack⟩

end Sys2Proof.Machine
end

section
/-! PROOFS. Stored lines read back (R92, R127, R131-R133, R140). -/

namespace Sys2Proof.Machine

/-! The fields of a stored line (R92, R93). -/

theorem ofBytes_getLsbD {w : Nat} : ∀ (bs : List Byte) (j : Nat),
    (ofBytes w bs).getLsbD j = (decide (j < w) && (bs.getD (j / 8) 0).getLsbD (j % 8))
  | [], j => by simp [ofBytes]
  | b :: bs, j => by
    rw [ofBytes, BitVec.getLsbD_or, BitVec.getLsbD_shiftLeft, BitVec.getLsbD_setWidth, ofBytes_getLsbD bs]
    rcases Nat.lt_or_ge j 8 with h | h
    · simp [h, Nat.div_eq_of_lt h, Nat.mod_eq_of_lt h]
    · obtain ⟨i, rfl⟩ : ∃ i, j = i + 8 := ⟨j - 8, by omega⟩
      have hb : b.getLsbD (i + 8) = false := BitVec.getLsbD_of_ge _ _ (by omega)
      rw [hb, Nat.add_div_right i (by decide), Nat.add_mod_right]
      by_cases hw : i + 8 < w <;> simp [hw]
      omega

/-- The information bits of a line that is built are the state byte, the tag and the data; the code stands above them. -/
theorem mkLine_getLsbD (d : BitVec 512) (t : BitVec 56) (st : Byte) {j : Nat} (hj : j < 576) :
    (mkLine d t st).getLsbD j = (st ++ t ++ d).getLsbD j := by
  have h8 : j / 8 < 72 := by omega
  have hl : j / 8 < (toBytes (st ++ t ++ d) 72).length := by simpa [toBytes] using h8
  rw [mkLine, ofBytes_getLsbD, List.getD_append _ _ _ _ hl, List.getD_eq_getElem _ _ hl]
  simp [toBytes, byteOf, show j < 640 by omega, Nat.mod_lt j (show 0 < 8 by decide), Nat.div_add_mod]

@[simp] theorem lineData_mkLine (d : BitVec 512) (t : BitVec 56) (st : Byte) : lineData (mkLine d t st) = d := by
  refine BitVec.eq_of_getLsbD_eq fun j hj => ?_
  rw [lineData, BitVec.getLsbD_setWidth, mkLine_getLsbD d t st (by omega), BitVec.getLsbD_append, if_pos hj]
  simp [hj]

@[simp] theorem lineTag_mkLine (d : BitVec 512) (t : BitVec 56) (st : Byte) : lineTag (mkLine d t st) = t := by
  refine BitVec.eq_of_getLsbD_eq fun j hj => ?_
  rw [lineTag, BitVec.getLsbD_extractLsb', mkLine_getLsbD d t st (by omega), BitVec.getLsbD_append, if_neg (by omega),
    Nat.add_sub_cancel_left, BitVec.getLsbD_append, if_pos hj]
  simp [hj]

@[simp] theorem lineState_mkLine (d : BitVec 512) (t : BitVec 56) (st : Byte) : lineState (mkLine d t st) = st := by
  refine BitVec.eq_of_getLsbD_eq fun j hj => ?_
  rw [lineState, byteOf, BitVec.getLsbD_extractLsb', mkLine_getLsbD d t st (by omega), BitVec.getLsbD_append, if_neg (by omega),
    BitVec.getLsbD_append, if_neg (by omega), show 8 * 71 + j - 512 - 56 = j by omega]
  simp [hj]

/-! The counter under which a write is stored (R140). -/

section Counter

variable {s : State} {ch : Fin 64} {e : W32} {a key : Nat}

/-- A counter line that is set is the one found. -/
theorem ctrCached_setCtr_self (k i : Nat) (c : CtrLine) : (s.setCtr k i c).ctrCached k i = some c := smGet?_put_self _ c _

theorem CtrLine.at_set (c : CtrLine) (x : Nat) (v : W64) (b : Bool) :
    ({ c with ctrs := c.ctrs.setIfInBounds (x % 8) v, dirty := b } : CtrLine).at x = v := by
  have h : x % 8 < 8 := Nat.mod_lt x (by decide)
  simp [CtrLine.at, h]

/-- The counter line that a write has counted in shows the new value. -/
theorem bumpCtr_at {i x : Nat} (hi : (s.ctrCached 1 i).isSome = true) :
    ((s.bumpCtr i x).1.ctrCached 1 i).map (fun c => c.at x) = some (s.bumpCtr i x).2 := by
  obtain ⟨c, hc⟩ := Option.isSome_iff_exists.mp hi
  have hget : ∀ t : State, t.sec.cache = (s.setCtr 1 i { c with
      ctrs := c.ctrs.setIfInBounds (x % 8) (c.at x + 1), dirty := true }).sec.cache → t.glb = s.glb → t.sec.capCode = s.sec.capCode →
      (t.ctrCached 1 i).map (fun c => c.at x) = some (c.at x + 1) := by
    intro t ht hg hcap
    have : t.ctrAt 1 i = s.ctrAt 1 i := by rw [State.ctrAt, State.ctrAt, hg, hcap]
    rw [State.ctrCached, ht, this, State.setCtr, smGet?_put_self, Option.map_some, CtrLine.at_set]
  simp only [State.bumpCtr, hc]
  split <;> exact hget _ rfl rfl rfl

/-- What a write's counter leaves alone. -/
theorem writeCtr_frame : (s.writeCtr ch e a key).1.chs = s.chs ∧ (s.writeCtr ch e a key).1.glb = s.glb ∧
    (s.writeCtr ch e a key).1.sec.capCode = s.sec.capCode ∧ (s.writeCtr ch e a key).1.sec.configured = s.sec.configured := by
  simp only [State.writeCtr, State.bumpCtr, State.setCtr]
  repeat' split
  all_goals exact ⟨rfl, rfl, rfl, rfl⟩

theorem ctrNeeded_writeCtr : (s.writeCtr ch e a key).1.ctrNeeded e a = s.ctrNeeded e a := by
  obtain ⟨-, hg, hc, ho⟩ := writeCtr_frame (s := s) (ch := ch) (e := e) (a := a) (key := key)
  rw [State.ctrNeeded, State.inProtected, State.treeOn, hg, hc, ho]
  rfl

/-- After the count, the line's counter is the one under which the write is stored. -/
theorem lineCtr_writeCtr (hc : ∀ i, s.ctrNeeded e a = some i → (s.ctrCached 1 i).isSome = true) :
    (s.writeCtr ch e a key).1.lineCtr e a = (s.writeCtr ch e a key).2 := by
  have hneed := ctrNeeded_writeCtr (s := s) (ch := ch) (e := e) (a := a) (key := key)
  cases hn : s.ctrNeeded e a with
  | none => simp only [State.lineCtr, State.writeCtr, hn]
  | some i =>
    by_cases hq : (((s.chs[ch]).ctl.waitingLine? key).isSome || ((s.chs[ch]).ctl.queued? key).isSome) = true
    · simp only [State.writeCtr, hn, if_pos hq]
    · obtain ⟨c, hk, hv⟩ := Option.map_eq_some_iff.mp (bumpCtr_at (x := a / 64) (hc i hn))
      simp only [State.writeCtr, hn, if_neg hq] at hneed ⊢
      simp only [State.lineCtr, hneed, hk, hv]

end Counter

/-! What is stored opens to the same data. -/

/-- The stored form of data under the keys of entry `e` and the counter that the line at `a` has; `x`: the write carries SEALED. -/
def State.sealLine (s : State) (e : W32) (a : Nat) (d : BitVec 512) (x : Bool) : SLine :=
  let k := s.keySlot (peSlot e)
  let stored := if peEnc e then d ^^^ keystream k.dataKey (s.lineCtr e a) (a / 64) else d
  let st : Byte := (if peInt e then 4#8 else 0#8) ||| (if x then 2#8 else 0#8)
  mkLine stored (if peInt e then tagOf k.tagKey k.hashKey stored (a / 64) (s.lineCtr e a) st else 0) st

/-- A write that is not poisoned stores that form, and changes nothing else that opening a line looks at. -/
theorem storedForm_sealLine {s u : State} {ch : Fin 64} {m : MasterId} {access a key : Nat} {e : W32} {d : BitVec 512} {cls : BitVec 4}
    {w : WqLine} (hc : ∀ i, s.ctrNeeded e a = some i → (s.ctrCached 1 i).isSome = true)
    (h : s.storedForm ch m access e a key d false cls = (u, w)) :
    u.chs = s.chs ∧ u.fab = s.fab ∧ ∃ x, w.line = u.sealLine e a d x := by
  have hl := lineCtr_writeCtr (ch := ch) (key := key) hc
  have hf := s.storedForm_fab ch m access e a key d false cls
  have hchs := (writeCtr_frame (s := s) (ch := ch) (e := e) (a := a) (key := key)).1
  rw [h] at hf
  simp only [State.storedForm, Bool.false_eq_true, if_false, Prod.mk.injEq] at h
  obtain ⟨hu, rfl⟩ := h
  refine ⟨?_, hf, (((s.writeCtr ch e a key).1.ctrNeeded e a).isSome && (s.writeCtr ch e a key).2 == ctrEnd), ?_⟩
  · rw [← hu, ← hchs]; split <;> rfl
  · have hlu : u.lineCtr e a = (s.writeCtr ch e a key).2 := by rw [← hl, ← hu]; split <;> rfl
    rw [State.sealLine, hlu, hu]

/-- The sealed form carries no POISON, and TAGGED where INT is set. -/
theorem sealLine_opens {s : State} {ch : Fin 64} {m : MasterId} {access a : Nat} {e : W32} {d : BitVec 512} {x pw : Bool} {o : DecodeOut}
    (hm : s.isWalkerScrubber m = false) (hi : (s.chs[ch]).cry.injData = false) (ho : o ≠ .uncorrectable) :
    s.openLine ch m access e a (s.sealLine e a d x, o) pw = (s, .ok, d) := by
  have hp : linePoison (s.sealLine e a d x) = false := by
    rw [linePoison, State.sealLine, lineState_mkLine]
    cases peInt e <;> cases x <;> rfl
  rw [openLine_checked hm hi ho hp, if_neg]
  · cases he : peEnc e <;> simp [State.sealLine, he]
  · rintro ⟨hint, hbad⟩
    refine hbad ⟨?_, ?_⟩
    · rw [lineTagged, State.sealLine, lineState_mkLine, hint]
      cases x <;> rfl
    · simp [State.sealLine, hint]

/-- Settles O31: a write stores the sealed form (`storedForm_sealLine`), whose tag is the one that opening computes and whose keystream
cancels (`sealLine_opens`). -/
theorem storedLinesReadBack : Obligations.StoredLinesReadBack := by
  intro s u ch m m' access access' e a key d cls w pw o _ hc hm hi ho h
  obtain ⟨hchs, hfab, x, hw⟩ := storedForm_sealLine hc h
  have hm' : u.isWalkerScrubber m' = false := by rw [← hm, State.isWalkerScrubber, State.self, State.self, hfab]; rfl
  rw [hw]
  exact ⟨u, sealLine_opens hm' (by rw [hchs]; exact hi) ho⟩

end Sys2Proof.Machine
end

section
/-! PROOFS. Doorbells and the dispatcher (R170, R338, R355, R356, R363). -/

namespace Sys2Proof.Machine

/-! The proofs of this section are checked one after the other: many at once hold more memory than the check of the whole text has. -/

set_option Elab.async false

variable {s : State} {p : Path} {m : MasterId} {v : W64}

/-! Doorbells: the record of a write that is ignored, and the outcome by the checks in their order (log entry 55). -/

/-- A proposed TAIL is within the ring (R338). -/
theorem dbInRange_iff {tail head new : W32} {k : Nat} :
    dbInRange tail head new k = true ↔ (new - tail).toNat ≤ 2 ^ k ∧ (new - head).toNat ≤ 2 ^ k := by
  simp only [dbInRange, Bool.and_eq_true, decide_eq_true_eq]

theorem not_dbInRange_iff {tail head new : W32} {k : Nat} :
    (!dbInRange tail head new k) = true ↔ 2 ^ k < (new - tail).toNat ∨ 2 ^ k < (new - head).toNat := by
  rw [Bool.not_eq_true', ← Bool.not_eq_true, dbInRange_iff]
  omega

theorem dbReject_ring (s : State) (reason index : Nat) : s.dbReject true reason index = { s with cmd := { s.cmd with
    dbReject := satAdd s.cmd.dbReject 1, dbLast := at32 31 1 ||| at32 28 reason ||| at32 0 index } } := rfl

theorem dbReject_queue (s : State) (reason index : Nat) : s.dbReject false reason index = { s with cmd := { s.cmd with
    dbReject := satAdd s.cmd.dbReject 1, dbLast := at32 28 reason ||| at32 0 index } } := by
  have h0 : at32 31 0 ||| at32 28 reason = at32 28 reason := BitVec.zero_or
  rw [State.dbReject, b2n, if_neg Bool.false_ne_true, h0]

/-- A ring's doorbell by a master that is no control core (R338): the first failing check names the reason. -/
theorem ringDb_eq (s : State) (r : Fin 32) (new : W32) (hc : isCore p m = false) : s.ringDb p m r new =
    if (s.cmd.rings[r]).en = false then s.dbReject true 1 r.val
    else if s.ownerId (s.cmd.rings[r]).owner ≠ m then s.dbReject true 2 r.val
    else if 2 ^ (s.cmd.rings[r]).log2 < (new - (s.cmd.rings[r]).tail).toNat ∨ 2 ^ (s.cmd.rings[r]).log2 < (new - (s.cmd.rings[r]).head).toNat then
      s.dbReject true 3 r.val
    else s.modRing r (fun x => { x with tail := new }) := by
  simp only [State.ringDb, hc, Bool.not_false, Bool.true_and, Bool.not_eq_true', decide_eq_true_eq, ← not_dbInRange_iff]

/-- The doorbell of a work queue by a master that is no control core (R355): the first failing check names the reason. -/
theorem wqDb_eq {d q : Nat} {x : Queue} (new : W32) (hc : isCore p m = false) (hd : s.doorbellQueue d = some (q, x)) (hq : s.wq q = some x) :
    s.wqDb p m d new =
      if x.st ≠ .active then s.dbReject false 4 d
      else if s.ownerId x.owner ≠ m then s.dbReject false 2 d
      else if 2 ^ x.log2 < (new - x.tail).toNat ∨ 2 ^ x.log2 < (new - x.head).toNat then s.dbReject false 3 d
      else { s with cmd := { s.cmd with queues := smPut s.cmd.queues q { x with tail := new } } } := by
  simp only [State.wqDb, hd, hc, Bool.not_false, Bool.true_and, decide_eq_true_eq, not_dbInRange_iff, State.modWq, hq]

/-- A doorbell of a ring that the rights allow. -/
theorem exec_ringDoorbell {r : Fin 32} (hv : dbIndex v = r.val) (hw : Writable s p m (0x050108 + 0x20 * r.val)) :
    exec (.ringDoorbell p m v) s = .next (s.ringDb p m r (v.setWidth 32)) := by
  have hr : dbIndex v % 32 = r.val := by rw [hv, Nat.mod_eq_of_lt r.isLt]
  simp only [show exec (.ringDoorbell p m v) s = execRingDoorbell p m v s from rfl, execRingDoorbell, hr, guardWrite_ok hw]
  rfl

/-- A doorbell of a work queue that the rights allow. -/
theorem exec_wqDoorbell {d : Fin 32768} (hv : dbIndex v = d.val) (hw : Writable s p m (0x070000 + 4 * d.val)) :
    exec (.wqDoorbell p m v) s = .next (s.wqDb p m d.val (v.setWidth 32)) := by
  simp only [show exec (.wqDoorbell p m v) s = execWqDoorbell p m v s from rfl, execWqDoorbell, hv, guardWrite_ok hw]
  rfl

theorem doorbellsProposeTail : Part.DoorbellsProposeTail := by
  refine ⟨fun s p m r v hv hw hc => ⟨fun he => ?_, fun he ho => ?_, fun he ho hr => ?_, fun he ho ht hh => ?_⟩,
    fun s p m d v hv hw hc => ⟨fun hd => ?_, fun q x hd hq => ⟨fun ha => ?_, fun ha ho => ?_, fun ha ho hr => ?_, fun ha ho ht hh => ?_⟩⟩⟩
  · rw [exec_ringDoorbell hv hw, ringDb_eq s r _ hc, if_pos he, dbReject_ring]
  · rw [exec_ringDoorbell hv hw, ringDb_eq s r _ hc, if_neg (ne_false_of_eq_true he), if_pos ho, dbReject_ring]
  · rw [exec_ringDoorbell hv hw, ringDb_eq s r _ hc, if_neg (ne_false_of_eq_true he), if_neg (not_not.mpr ho), if_pos hr, dbReject_ring]
  · rw [exec_ringDoorbell hv hw, ringDb_eq s r _ hc, if_neg (ne_false_of_eq_true he), if_neg (not_not.mpr ho),
      if_neg (not_or.mpr ⟨Nat.not_lt.mpr ht, Nat.not_lt.mpr hh⟩)]
  · rw [exec_wqDoorbell hv hw, State.wqDb, hd, dbReject_queue]
  · rw [exec_wqDoorbell hv hw, wqDb_eq _ hc hd hq, if_pos ha, dbReject_queue]
  · rw [exec_wqDoorbell hv hw, wqDb_eq _ hc hd hq, if_neg (not_not.mpr ha), if_pos ho, dbReject_queue]
  · rw [exec_wqDoorbell hv hw, wqDb_eq _ hc hd hq, if_neg (not_not.mpr ha), if_neg (not_not.mpr ho), if_pos hr, dbReject_queue]
  · rw [exec_wqDoorbell hv hw, wqDb_eq _ hc hd hq, if_neg (not_not.mpr ha), if_neg (not_not.mpr ho),
      if_neg (not_or.mpr ⟨Nat.not_lt.mpr ht, Nat.not_lt.mpr hh⟩)]

/-! The dispatcher (R356). -/

/-- The descriptor of queue `q` is counted in HEAD, and the turn has passed to the queue. -/
def State.countHead (s : State) (q : Nat) (x : Queue) : State :=
  let h := s.modWq q (fun x => { x with head := x.head + 1 })
  { h with cmd := { h.cmd with lastClass := x.cls.toNat, lastQueue := h.cmd.lastQueue.setIfInBounds x.cls.toNat q } }

theorem exec_descriptorConsume (s : State) : exec .descriptorConsume s = execDescriptorConsume s := rfl

section Consume

variable {u : State} (hup : s.dieUp = true) (hst : s.cmd.stopped = false)
include hup hst

/-- The dispatcher of a die that is up runs unless it has been stopped. -/
theorem dispatcher_runs : ¬ (!s.dieUp || s.cmd.stopped) = true := by simp [hup, hst]

/-- The checks of a descriptor consumed earlier that need not wait go on first (R170). -/
theorem earlierChecksGoOn (h : s.engs.checking.findSome? s.checkGo = some u) : exec .descriptorConsume s = .next u := by
  rw [exec_descriptorConsume, execDescriptorConsume, if_neg (dispatcher_runs hup hst), h]

/-- The dispatcher takes the descriptor at HEAD of the queue whose turn it is. -/
theorem dispatcherTakes {q : Nat} {x : Queue} {st : CStatus} {d : BitVec 1024}
    (hno : s.engs.checking.findSome? s.checkGo = none) (hq : s.nextQueue = some (q, x)) (hr : s.readDesc x x.head.toNat = (u, st, d)) :
    exec .descriptorConsume s =
      if st ≠ .ok then .next ((u.countHead q x).writeCmpl q
        { desc := .notPermitted, data := st.code, page := x.head.toNat, gen := (u.countHead q x).engs.eng[lowEngine x.engines].gen } false)
      else if x.forward then .next ((u.countHead q x).modWq q (fun x => { x with toSend := x.toSend ++ [d] }))
      else .next ((u.countHead q x).checkDesc q x d x.head.toNat) := by
  rw [exec_descriptorConsume, execDescriptorConsume, if_neg (dispatcher_runs hup hst), hno, hq]
  dsimp -zeta only
  rw [hr]
  rfl

end Consume

theorem dispatcherTakesOneDescriptor : Part.DispatcherTakesOneDescriptor := by
  refine ⟨fun s u hup hst h => earlierChecksGoOn hup hst h, fun s q x u st d hup hst hno hq hr => ?_⟩
  have htakes := dispatcherTakes hup hst hno hq hr
  refine ⟨fun hbad => ?_, fun hok hf => ?_, fun hok hf => ?_⟩
  · rw [htakes, if_pos hbad]
    rfl
  · rw [htakes, if_neg (not_not.mpr hok), if_pos hf]
    rfl
  · rw [htakes, if_neg (not_not.mpr hok), if_neg (Bool.eq_false_iff.mp hf)]
    rfl

/-- Settles O17: a doorbell's outcome is that of its checks in their order (`ringDb_eq`, `wqDb_eq`), which is the model's reading (log
entry 55), and the dispatcher takes the descriptor at HEAD of `nextQueue` where no earlier check can go on (`dispatcherTakes`). -/
theorem descriptorsAreProposedAndTaken : Obligations.DescriptorsAreProposedAndTaken := ⟨doorbellsProposeTail, dispatcherTakesOneDescriptor⟩

end Sys2Proof.Machine
end

section
/-! PROOFS. An engine's part and its job: updates of one engine, the job that it starts, and the filter that it loads (R156, R182). -/

namespace Sys2Proof.Machine

/-! The proofs of this section are checked one after the other: many at once hold more memory than the check of the whole text has. -/

set_option Elab.async false

variable {s u : State} {e : Fin 64} {r : EngRun} {j : Job}

/-! Updates of one engine. -/

theorem modEng_eng (s : State) (e : Fin 64) (f : Engine → Engine) : (s.modEng e f).engs.eng[e] = f (s.engs.eng[e]) := vmod_self ..

theorem modEng_modEng (s : State) (e : Fin 64) (f g : Engine → Engine) : (s.modEng e f).modEng e g = s.modEng e (fun x => g (f x)) := by
  simp only [State.modEng, vmod_vmod]

theorem modEng_id {f : Engine → Engine} (h : f (s.engs.eng[e]) = s.engs.eng[e]) : s.modEng e f = s := by
  rw [State.modEng, vmod_id h]

/-- What an engine works on is its own part. -/
theorem running_run (h : s.running e = some (r, j)) : (s.engs.eng[e]).run = some r := by
  obtain ⟨r', hr, h⟩ := Option.bind_eq_some_iff.mp h
  obtain ⟨j', -, h⟩ := Option.map_eq_some_iff.mp h
  rw [hr, (Prod.mk.inj h).1]

/-! The oldest dispatched job (R156). -/

/-- The pages of a job's source range that lie in the engine's channel. -/
theorem mem_jobPages {d : BitVec 1024} {p : Nat} : p ∈ s.jobPages d e ↔
    dSrcPage d ≤ p ∧ p < dSrcPage d + dSrcCount d ∧ (decodePage s.glb.variant s.glb.mapOrder p).1 = e := by
  simp only [State.jobPages, List.mem_filter, List.mem_map, List.mem_range, decide_eq_true_eq, ← and_assoc]
  refine and_congr_left fun _ => ⟨?_, fun ⟨hlo, hhi⟩ => ⟨p - dSrcPage d, by omega, by omega⟩⟩
  rintro ⟨i, hi, rfl⟩
  omega

/-- They ascend. -/
theorem jobPages_ascending (s : State) (d : BitVec 1024) (e : Fin 64) : (s.jobPages d e).Pairwise (· < ·) :=
  .filter _ (.map (dSrcPage d + ·) (fun _ _ h => Nat.add_lt_add_left h _) List.pairwise_lt_range)

/-- The tiles of a part that starts: GATHER's are named by its list (R184). -/
def State.startPages (s : State) (d : BitVec 1024) (e : Fin 64) : List Nat := if dOp d = opGather then [] else s.jobPages d e

theorem exec_engineJobStart (s : State) (e : Fin 64) : exec (.engineJobStart e) s = execEngineJobStart e s := rfl

/-- An engine with no running job, whose function is ON or STOPPING, starts its oldest dispatched job. -/
theorem engineStartsOldestJob {id : Nat} {rest : List Nat} (hrun : (s.engs.eng[e]).run = none) (hp : (s.engs.eng[e]).pending = id :: rest)
    (hup : s.dieUp = true) (hfn : (s.engs.eng[e]).fn.st = .on ∨ (s.engs.eng[e]).fn.st = .stopping) (hj : s.jobOf id = some j) :
    exec (.engineJobStart e) s =
      .next (s.modEng e (fun x => { x with pending := rest, run := some { job := id, tiles := s.startPages j.desc e } })) := by
  rw [exec_engineJobStart, execEngineJobStart, hrun, hp]
  dsimp -zeta only
  rw [if_pos (by simpa [hup] using hfn), hj]
  rfl

/-- An engine that runs a job starts no other. -/
theorem engineRunsOneJob (h : (s.engs.eng[e]).run.isSome = true) : exec (.engineJobStart e) s = .next s := by
  obtain ⟨r, hr⟩ := Option.isSome_iff_exists.mp h
  rw [exec_engineJobStart, execEngineJobStart, hr]

/-! The filter of a PROBE (R182). -/

theorem needsFilter_iff : needsFilter j = true ↔ dOp j.desc = opProbe ∧ dKind j.desc = 0 := by
  simp only [needsFilter, Bool.and_eq_true, beq_iff_eq]

/-- A running PROBE that has no filter reads its lines: their outcome decides. -/
theorem filterIsLoaded (h : s.running e = some (r, j)) (hup : s.dieUp = true) (hn : needsFilter j = true) (hf : r.filter = none)
    (hs : r.stopped = false) {o : Option (CStatus × List (BitVec 512))}
    (ho : s.engLines e j (dTable j.desc) ((2 ^ dLog2 j.desc + 511) / 512) = (u, o)) :
    (o = none → exec (.bloomFilterLoad e) s = .next u) ∧
    (∀ ls, o = some (.ok, ls) → exec (.bloomFilterLoad e) s = .next (u.modRun e (fun r => { r with filter := some ls }))) ∧
    (∀ st ls, o = some (st, ls) → st ≠ .ok →
      exec (.bloomFilterLoad e) s = .next ((u.outRefused e j 0 st).modRun e (fun r => { r with tiles := [] }))) := by
  have hexec : exec (.bloomFilterLoad e) s = execBloomFilterLoad e s := rfl
  have hgo : ¬ (!s.dieUp || !needsFilter j || r.filter.isSome || r.stopped) = true := by simp [hup, hn, hf, hs]
  rw [execBloomFilterLoad, h] at hexec
  dsimp -zeta only at hexec
  rw [if_neg hgo, ho] at hexec
  refine ⟨?_, ?_, ?_⟩
  · rintro rfl
    exact hexec
  · rintro ls rfl
    exact hexec
  · rintro st ls rfl hst
    cases st with
    | ok => exact absurd rfl hst
    | _ => exact hexec

/-- Settles O25: the pages are those of `mem_jobPages`, in the order of `jobPages_ascending`, and the filter's lines decide
by `filterIsLoaded`. -/
theorem enginesStartJobs : Obligations.EnginesStartJobs := by
  refine ⟨fun s e h => engineRunsOneJob h, fun s e id rest j hrun hp hup hfn hj =>
    ⟨s.startPages j.desc e, engineStartsOldestJob hrun hp hup hfn hj, fun hg => if_pos hg, fun hg => ?_⟩,
    fun s e r j h hup hop hk hf hs u o ho => filterIsLoaded h hup (needsFilter_iff.mpr ⟨hop, hk⟩) hf hs ho⟩
  rw [State.startPages, if_neg hg]
  exact ⟨jobPages_ascending .., fun p => mem_jobPages⟩

end Sys2Proof.Machine
end

section
/-! PROOFS. Tiles are opened (R158, R171, R172, R189, R458). -/

namespace Sys2Proof.Machine

/-! The proofs of this section are checked one after the other: many at once hold more memory than the check of the whole text has. -/

set_option Elab.async false

variable {s u : State} {e : Fin 64} {r0 r : EngRun} {j : Job} {page : Nat} {rest : List Nat}

/-- Of a job over tiles, the part has not been stopped and has the filter that it needs. -/
def EngRun.mayStart (r : EngRun) (j : Job) (u : State) : Prop :=
  (dOp j.desc = opScan ∨ dOp j.desc = opAgg ∨ dOp j.desc = opProbe) ∧ r.stopped = false ∧ u.jobStop j.id = false ∧
    (dOp j.desc = opProbe → dKind j.desc = 0 → r.filter.isSome = true)

/-- Nothing but ENG_RATE keeps such a part from its next tile. -/
theorem EngRun.mayStart.waits_iff (hm : r.mayStart j u) (hup : u.dieUp = true) :
    (!u.dieUp || dOp j.desc = opGather || dOp j.desc = opCopy || r.stopped || u.jobStop j.id || (needsFilter j && r.filter.isNone) ||
      !u.rateOpen e) = true ↔ u.rateOpen e = false := by
  obtain ⟨hop, hs, hj, hf⟩ := hm
  have hg : dOp j.desc ≠ opGather ∧ dOp j.desc ≠ opCopy := by
    simp only [opScan, opAgg, opProbe, opGather, opCopy] at hop ⊢
    omega
  have hn : (needsFilter j && r.filter.isNone) = false := by
    rw [Bool.and_eq_false_iff, or_iff_not_imp_left, Bool.not_eq_false, needsFilter_iff, Option.isNone_eq_false_iff]
    exact fun h => hf h.1 h.2
  simp [hup, hs, hj, hg, hn]

/-! TILE_START. What the writes have brought is `u`, with the part `r`, whose next tile is `page`. -/

theorem exec_tileStart (s : State) (e : Fin 64) : exec (.tileStart e) s = execTileStart e s := rfl

section Start

variable (h : s.running e = some (r0, j)) (hu : u = s.collect e j) (hr : (u.engs.eng[e]).run = some r) (hup : u.dieUp = true)
  (hm : r.mayStart j u) (ht : r.tiles = page :: rest)
include h hu hr hup hm ht

/-- No tile is opened while ENG_RATE bars its read, nor one of a page that a command is changing (R25, R458). -/
theorem tileStart_waits (hw : u.rateOpen e = false ∨ u.changing page = true) : exec (.tileStart e) s = .next u := by
  simp only [exec_tileStart, execTileStart, h, ← hu, hr, ht, hm.waits_iff hup]
  by_cases hrate : u.rateOpen e = false
  · rw [if_pos hrate]
  · rw [if_neg hrate, if_pos (hw.resolve_left hrate)]

variable {w : State} {n : Tile} (hrate : u.rateOpen e = true) (hc : u.changing page = false)
  (ho : ((u.modRun e (fun r => { r with tiles := rest })).walkAhead e rest).openTile e j page = (w, n))
include hrate hc ho

/-- With no tile in progress the next one is opened. -/
theorem tileStart_opens (hnone : r.tile = none) : exec (.tileStart e) s = .next (w.modRun e (fun r => { r with tile := some n })) := by
  simp only [exec_tileStart, execTileStart, h, ← hu, hr, ht, hm.waits_iff hup]
  rw [if_neg (ne_false_of_eq_true hrate), if_neg (ne_true_of_eq_false hc), hnone]
  dsimp only
  rw [ho]

/-- While a tile whose rows have come is evaluated, the next one is opened ahead, where PREFETCH_EN and the rows that may be held let it. -/
theorem tileStart_ahead {t : Tile} (htile : r.tile = some t) (ha : t.arrived = true) (hf : t.fail = none) : exec (.tileStart e) s =
    if bit (u.engs.eng[e].cfg) 23 = false ∨ r.next.isSome = true ∨ u.holdRoom e = 0 then .next u
    else .next (w.modRun e (fun r => { r with next := some n })) := by
  have hbar : (!t.arrived || t.fail.isSome || r.next.isSome || !bit (u.engs.eng[e].cfg) 23 || decide (u.holdRoom e = 0)) = true ↔
      bit (u.engs.eng[e].cfg) 23 = false ∨ r.next.isSome = true ∨ u.holdRoom e = 0 := by
    simp only [ha, hf, Bool.or_eq_true, Bool.not_eq_true', decide_eq_true_eq, Option.isSome_none, Bool.not_true, Bool.false_eq_true, false_or]
    tauto
  simp only [exec_tileStart, execTileStart, h, ← hu, hr, ht, hm.waits_iff hup]
  rw [if_neg (ne_false_of_eq_true hrate), if_neg (ne_true_of_eq_false hc), htile]
  dsimp only
  rw [ho]
  simp only [hbar]

end Start

/-! The tile that is opened (R171, R189). -/

/-- The page's entry is looked up and the header row asked for, under the tag that is next. -/
theorem openTile_reads (j : Job) (page : Nat) (hi : (s.engs.eng[e]).injFormat = false) : s.openTile e j page =
    ((s.modEng e (fun x => { x with nextTag := x.nextTag + 1 })).srcRead e j page
        { tile := (s.engs.eng[e]).nextTag, row := 0, line := none, entry := s.pageEntry page },
      { page := page, entry := s.pageEntry page, tag := (s.engs.eng[e]).nextTag, asked := [0] }) := by
  rw [State.openTile, modEng_eng, if_neg (ne_true_of_eq_false hi)]

/-- A tile that TILE_FORMAT is armed for fails with FORMAT, and the injection is used up. -/
theorem openTile_injected (j : Job) (page : Nat) (hi : (s.engs.eng[e]).injFormat = true) : s.openTile e j page =
    ((s.modEng e (fun x => { x with nextTag := x.nextTag + 1 })).modEng e (fun x => { x with injFormat := false }),
      { page := page, entry := s.pageEntry page, tag := (s.engs.eng[e]).nextTag,
        fail := some { page := page, reason := 2, status := .ok } }) := by
  rw [State.openTile, modEng_eng, if_pos hi]

theorem tilesAreOpened : Part.TilesAreOpened := by
  refine ⟨fun s u e r0 r j page rest h hu hr hup hop hs hj hf ht => ?_,
    fun s e j page => ⟨openTile_injected j page, openTile_reads j page⟩, fun s p m e hw => ?_⟩
  · have hm : r.mayStart j u := ⟨hop, hs, hj, hf⟩
    refine ⟨tileStart_waits h hu hr hup hm ht, fun hrate hc w n ho => ⟨tileStart_opens h hu hr hup hm ht hrate hc ho,
      fun t htile ha hfail => ⟨fun hbar => ?_, fun hpre hnext hroom => ?_⟩⟩⟩
    · rw [tileStart_ahead h hu hr hup hm ht hrate hc ho htile ha hfail, if_pos hbar]
    · rw [tileStart_ahead h hu hr hup hm ht hrate hc ho htile ha hfail, if_neg (by simpa [hnext, hroom] using hpre)]
  · rw [show exec (.tileFormatInject p m e) s = execTileFormatInject p m e s from rfl, execTileFormatInject, guardWrite_ok hw]

end Sys2Proof.Machine
end

section
/-! PROOFS. Tiles take their answers, are checked, and fail (R158, R163, R171, R172, R181, R187). -/

namespace Sys2Proof.Machine

/-! The proofs of this section are checked one after the other: many at once hold more memory than the check of the whole text has. -/

set_option Elab.async false

variable {s v w : State} {e : Fin 64} {r : EngRun} {j : Job} {t t1 t2 : Tile} {n : Nat}

/-! TILE_ROWS_ARRIVE: the tile in progress first, then the tile read ahead. -/

section Arrive

variable (h : s.running e = some (r, j)) (ht : r.tile = some t) (hup : s.dieUp = true)
include h ht hup

/-- The tile in progress takes what has come for it, and fails or goes on. -/
theorem tileTakesItsRows (ha : t.arrived = false) :
    (∀ f, t.fail = some f → exec (.tileRowsArrive e) s = .next (s.tileFails e j f)) ∧
    (t.fail = none → ∀ w t', s.readOn e j t 128 = (w, t') →
      (∀ f, t'.fail = some f → exec (.tileRowsArrive e) s = .next (w.tileFails e j f)) ∧
      (t'.fail = none → exec (.tileRowsArrive e) s = .next (w.modRun e (fun r => { r with tile := some t' })))) := by
  have hexec : exec (.tileRowsArrive e) s = execTileRowsArrive e s := rfl
  simp only [execTileRowsArrive, h, ht, hup, ha, Bool.not_true, Bool.false_eq_true, if_false] at hexec
  refine ⟨fun f hf => ?_, fun hf w t' hread => ?_⟩
  · simpa only [hf, Option.isSome_some, if_true] using hexec
  · simp only [hf, Option.isSome_none, Bool.false_eq_true, if_false, hread] at hexec
    exact ⟨fun f hf' => by rw [hexec, hf'], fun hf' => by rw [hexec, hf']⟩

/-- Once its rows have come, the tile read ahead takes what has come for it; it fails only when its turn comes. -/
theorem tileAheadTakesItsRows (ha : t.arrived = true) :
    (r.next = none → exec (.tileRowsArrive e) s = .next s) ∧
    (∀ n, r.next = some n → n.arrived = false → n.fail = none → ∀ w n', s.readOn e j n (s.holdRoom e) = (w, n') →
      exec (.tileRowsArrive e) s = .next (w.modRun e (fun r => { r with next := some n' }))) := by
  have hexec : exec (.tileRowsArrive e) s = execTileRowsArrive e s := rfl
  simp only [execTileRowsArrive, h, ht, hup, ha, Bool.not_true, Bool.false_eq_true, if_false, if_true] at hexec
  refine ⟨fun hn => by rw [hexec, hn], fun n hn hna hnf w n' hread => ?_⟩
  simpa only [hn, hna, hnf, hread, Option.isSome_none, Bool.or_self, Bool.false_eq_true, if_false] using hexec

end Arrive

/-! Reading on in a tile: what has come for it makes it `t1`. -/

/-- The rows that the tile needs and has not asked for. -/
def Tile.todo (t : Tile) (need : List Nat) : List Nat := (needRows t need).filter (fun row => !t.asked.contains row)

/-- A tile that has not failed and has its header reads on. -/
theorem readOn_going (hf : t.fail = none) (hl : t.parsed = true ∨ (smGet? t.lines 0).isSome = true) :
    (t.fail.isSome || (!t.parsed && (smGet? t.lines 0).isNone)) = false := by
  simpa [hf, or_iff_not_imp_left] using hl

section ReadOn

variable (hfeed : s.feed e t = (v, t1))
include hfeed

/-- A tile that fails asks for no further row, and one without its header waits for it. -/
theorem readOn_takes (h : t1.fail.isSome = true ∨ t1.parsed = false ∧ smGet? t1.lines 0 = none) : s.readOn e j t n = (v, t1) := by
  have hbar : (t1.fail.isSome || (!t1.parsed && (smGet? t1.lines 0).isNone)) = true := by simpa using h
  simp only [State.readOn, hfeed, hbar, if_true]

variable (hf : t1.fail = none) (hl : t1.parsed = true ∨ (smGet? t1.lines 0).isSome = true)
include hf hl

/-- A header that breaks R163 fails the tile with FORMAT. -/
theorem readOn_badHeader (hp : t1.parsed = false) (hh : parseHeader (t1.row 0) (dNeed j.desc) = none) :
    s.readOn e j t n = (v, { t1 with fail := some { page := t1.page, reason := 2, status := .ok } }) := by
  simp only [State.readOn, hfeed, readOn_going hf hl, Bool.false_eq_true, if_false]
  rw [if_neg (ne_true_of_eq_false hp), hh]
  rfl

/-- With its header the tile is `t2`: it asks for every row that it needs, and has arrived once nothing is outstanding. -/
theorem readOn_asks (h2 : (if t1.parsed then some t1 else (parseHeader (t1.row 0) (dNeed j.desc)).map (fun h =>
      { t1 with parsed := true, values := h.1, nullRow := h.2.1, cols := h.2.2 })) = some t2)
    (hw : v.srcReads e j t2.page ((t2.todo (dNeed j.desc)).map (fun row => { tile := t2.tag, row := row, line := none, entry := t2.entry })) =
      (w, [])) (hn : (t2.todo (dNeed j.desc)).length ≤ n) :
    s.readOn e j t n = (w, { t2 with asked := t2.asked ++ t2.todo (dNeed j.desc), arrived := !w.srcWait e t2.tag }) := by
  have htodo : (needRows t2 (dNeed j.desc)).filter (fun row => !t2.asked.contains row) = t2.todo (dNeed j.desc) := rfl
  simp only [State.readOn, hfeed, readOn_going hf hl, Bool.false_eq_true, if_false, h2, htodo, List.take_of_length_le hn, hw, List.length_nil,
    Nat.sub_zero, List.take_length, decide_true, Bool.true_and]

end ReadOn

/-- A tile that has asked for every row that it needs has none to ask for. -/
theorem todo_eq_nil {need : List Nat} (h : (needRows t need).all (fun x => t.asked.contains x) = true) : t.todo need = [] := by
  rw [Tile.todo, List.filter_eq_nil_iff]
  exact fun row hrow => by simpa using List.all_eq_true.mp h row hrow

/-! The lines of an answer (R172). -/

section Take

variable {x : SrcRead} {g : IoGot} (hf : t.fail = none)
include hf

/-- A row that was refused as a whole. -/
theorem take_refused (hg : g.lines = []) : (t.take x g).fail = some { page := t.page, reason := 1, status := g.status, loc := 0 } := by
  simp only [Tile.take, hg, List.isEmpty_nil, if_true, hf, Option.getD_none]

/-- The first line that failed its checks names the fault. -/
theorem take_firstBad {i : Nat} {st : CStatus} {b : Bool} (hx : x.line = none) (hi : i < g.lines.length) (hl : g.lines[i]? = some (st, b))
    (hst : st ≠ .ok) (hbefore : ∀ k, k < i → ∃ b, g.lines[k]? = some (.ok, b)) :
    (t.take x g).fail = some { page := t.page, reason := 1, status := st, loc := 16 * x.row + i } := by
  have hne : g.lines.isEmpty = false := List.isEmpty_eq_false_iff.mpr (List.ne_nil_of_length_pos (by omega))
  have hnth : nth g.lines i (.ok, false) = (st, b) := by rw [nth, hl, Option.getD_some]
  have hfind : (List.range g.lines.length).find? (fun i => decide ((nth g.lines i (.ok, false)).1 ≠ .ok)) = some i := by
    refine List.find?_range_eq_some.mpr ⟨by simpa only [hnth, decide_eq_true_eq] using hst, List.mem_range.mpr hi, fun k hk => ?_⟩
    obtain ⟨b', hb⟩ := hbefore k hk
    rw [nth, hb]
    rfl
  simp only [Tile.take, hne, hfind, Bool.false_eq_true, if_false, hf, hx, Option.getD_none, hnth, Nat.add_zero]

/-- Lines that have all passed. -/
theorem take_good (hne : g.lines ≠ []) (hok : ∀ l ∈ g.lines, l.1 = .ok) : (t.take x g).fail = none := by
  have hfind : (List.range g.lines.length).find? (fun i => decide ((nth g.lines i (.ok, false)).1 ≠ .ok)) = none := by
    refine List.find?_range_eq_none.mpr fun i hi => ?_
    rw [nth, List.getElem?_eq_getElem hi, Option.getD_some, hok _ (List.getElem_mem hi)]
    rfl
  simp only [Tile.take, List.isEmpty_eq_false_iff.mpr hne, hfind, Bool.false_eq_true, if_false, hf]

end Take

/-- Rows that are let go are the channel's, not the engine's. -/
theorem releaseRows_eng (s : State) (e : Fin 64) : (s.releaseRows e).engs.eng[e] = s.engs.eng[e] := rfl

/-! A tile that fails (R172, R181, R187, R189). -/

section Fails

variable {f : EngFault} (hr : (s.engs.eng[e]).run = some r)
include hr

/-- With FAULT_EN clear a fault writes no record. -/
theorem engFault_noRecord (counted : Bool) (hfe : dFaultEn j.desc = false) : s.engFault e j f counted =
    (s.modEng e (fun x => { x with lastFault := at32 28 f.reason ||| at32 24 f.status.code ||| at32 0 (f.page % 2097152) })).modRun e
      (fun r => { r with first := some (r.first.getD f), recorded := r.recorded + 1 }) := by
  have hr' : ((s.modEng e (fun x => { x with
      lastFault := at32 28 f.reason ||| at32 24 f.status.code ||| at32 0 (f.page % 2097152) })).engs.eng[e]).run = some r := by
    rw [modEng_eng]
    exact hr
  rw [State.engFault]
  dsimp only
  rw [hr']
  dsimp only
  rw [if_pos (by simp [hfe])]

/-- The engine after a tile of a part that neither records faults nor stops on them has failed. -/
theorem tileFails_eng (hfe : dFaultEn j.desc = false) (hstop : dStop j.desc = false) : (s.tileFails e j f).engs.eng[e] =
    { s.engs.eng[e] with
      lastFault := at32 28 f.reason ||| at32 24 f.status.code ||| at32 0 (f.page % 2097152)
      tileFaults := satAdd (s.engs.eng[e]).tileFaults 1
      run := some { r with
        tile := if r.stopped || s.jobStop j.id then none else r.next, cur := r.page, failed := true, next := none, probe := none,
        tilesFailed := r.tilesFailed + 1, first := some (r.first.getD f), recorded := r.recorded + 1 } } := by
  have hs (u : State) : u.stopJob j = u := if_neg (ne_true_of_eq_false hstop)
  rw [State.tileFails, engFault_noRecord hr true hfe, hs]
  simp only [State.modRun, modEng_modEng, State.nextTile]
  rw [releaseRows_eng, modEng_eng, hr]
  rfl

end Fails

theorem tilesAreReadAndChecked : Part.TilesAreReadAndChecked := by
  refine ⟨fun s e r j t h ht hup => ⟨tileTakesItsRows h ht hup, tileAheadTakesItsRows h ht hup⟩,
    fun s v e j t t1 n hfeed => ⟨fun hf => readOn_takes hfeed (.inl hf), fun hf hp => ⟨fun hl => readOn_takes hfeed (.inr ⟨hp, hl⟩),
      fun l hl => ?_⟩, fun hf hp w hw hn => readOn_asks hfeed hf (.inl hp) (if_pos hp) hw hn⟩,
    fun t x g hx hf => ⟨take_refused hf, fun i st b hi hl hst hb => take_firstBad hf hx hi hl hst hb, take_good hf⟩,
    fun s e r j f hr hfe hstop => ⟨_, tileFails_eng hr hfe hstop, rfl, rfl, rfl⟩⟩
  have hl' : (smGet? t1.lines 0).isSome = true := by rw [hl]; rfl
  refine ⟨readOn_badHeader hfeed hf (.inr hl') hp, fun vals nrow cs hh hall => ?_⟩
  have htodo := todo_eq_nil hall
  rw [readOn_asks (w := v) hfeed hf (.inr hl') (t2 := { t1 with parsed := true, values := vals, nullRow := nrow, cols := cs })
    (by rw [if_neg (ne_true_of_eq_false hp), hh]; rfl) (by rw [htodo]; rfl) (by rw [htodo]; exact Nat.zero_le n), htodo, List.append_nil]

end Sys2Proof.Machine
end

section
/-! PROOFS. Tiles are evaluated lane by lane, and bucket chains followed (R159, R163, R172, R178, R180, R182, R183). -/

namespace Sys2Proof.Machine

/-! The proofs of this section are checked one after the other: many at once hold more memory than the check of the whole text has. -/

set_option Elab.async false

variable {s : State} {e : Fin 64} {r : EngRun} {j : Job} {t : Tile}

/-! TILE_EVALUATE. -/

theorem exec_tileEvaluate (s : State) (e : Fin 64) : exec (.tileEvaluate e) s = execTileEvaluate e s := rfl

/-- A tile whose rows have arrived, and which follows no bucket chain, is evaluated. -/
theorem evaluation_runs (ha : t.arrived = true) (hp : r.probe = none) (hup : s.dieUp = true) :
    (!t.arrived || r.probe.isSome || !s.dieUp) = false := by
  simp [ha, hp, hup]

section Evaluate

variable (h : s.running e = some (r, j)) (ht : r.tile = some t) (ha : t.arrived = true) (hp : r.probe = none) (hup : s.dieUp = true)
include h ht ha hp hup

/-- A tile with no value contributes nothing (R163). -/
theorem emptyTileEnds (hv : t.values = 0) : exec (.tileEvaluate e) s = .next (s.nextTile e j) := by
  simp only [exec_tileEvaluate, execTileEvaluate, h, ht, evaluation_runs ha hp hup, hv, Bool.false_eq_true, if_false, if_true]

variable (hv : t.values ≠ 0) {lanes : List (Nat × PLane)} (hl : lanes = (List.range t.values).filterMap (fun i =>
  if (evalLane j.desc j.prog t t.row i).2 then some (i, (evalLane j.desc j.prog t t.row i).1) else none))
include hv hl

/-- The qualifying lanes of any other tile contribute as the operation has it: SCAN and AGG. -/
theorem lanesContribute :
    (dOp j.desc = opScan → dForm j.desc ≠ 4 → exec (.tileEvaluate e) s =
      .next (s.tileDone e j t lanes.length t.values (hitEntries j.desc t (lanes.map (fun l => (l.1, [])))))) ∧
    (dOp j.desc = opScan → dForm j.desc = 4 → exec (.tileEvaluate e) s =
      .next (s.tileDone e j t lanes.length t.values (fun r' => { r' with
        groups := [lanes.foldl (fun g l => g.add j.desc l.2) (r.groups.headD (Group.new 0 false))] }))) ∧
    (dOp j.desc = opAgg → ∀ o, o = lanes.foldl (fun (gs : Option (List Group)) l =>
        gs.bind (fun gs => groupAdd j.desc gs (l.2.reg (dSrc j.desc)).val (l.2.reg (dSrc j.desc)).null l.2)) (some r.groups) →
      (o = none → exec (.tileEvaluate e) s = .next (s.tileFails e j { page := t.page, reason := 3, status := .ok })) ∧
      (∀ gs, o = some gs → exec (.tileEvaluate e) s =
        .next (s.tileDone e j t (gs.length - r.groups.length) t.values (fun r => { r with groups := gs })))) := by
  have hexec := exec_tileEvaluate s e
  simp only [execTileEvaluate, h, ht, evaluation_runs ha hp hup, hv, ← hl, Bool.false_eq_true, if_false] at hexec
  refine ⟨fun hop hform => ?_, fun hop hform => ?_, fun hop o ho => ?_⟩
  · rw [hexec, if_pos hop, if_neg hform]
  · rw [hexec, if_pos hop, if_pos hform]
  · rw [if_neg (by rw [hop]; decide), if_pos hop, ← ho] at hexec
    exact ⟨fun hn => by rw [hexec, hn], fun gs hs => by rw [hexec, hs]⟩

/-- PROBE: a Bloom filter decides at once, a hash table is followed. -/
theorem lanesProbe {keyed : List (Nat × PLane)} (hk : keyed = lanes.filter (fun l => !(l.2.reg (dSrc j.desc)).null)) (hop : dOp j.desc = opProbe) :
    (dKind j.desc = 0 → exec (.tileEvaluate e) s =
      .next (s.probeDone e j t { lanes := [], probed := lanes.length, done := (keyed.filter (fun l =>
        bloomHit (r.filter.getD []) (dLog2 j.desc) (dK j.desc) (l.2.reg (dSrc j.desc)).val)).map (fun l => (l.1, [])) })) ∧
    (dKind j.desc ≠ 0 → keyed ≠ [] → ∃ p : ProbeSt,
      exec (.tileEvaluate e) s = .next ((s.modRun e (fun r => { r with probe := some p })).askBuckets e j) ∧
      p.probed = lanes.length ∧ p.done = [] ∧
      p.cut = 0 ∧ p.lanes.map (fun l => (l.index, l.key, l.next)) = keyed.map (fun l => (l.1, (l.2.reg (dSrc j.desc)).val,
        dTable j.desc + 64 * hashBucket (dLog2 j.desc) (l.2.reg (dSrc j.desc)).val))) := by
  have hexec := exec_tileEvaluate s e
  simp only [execTileEvaluate, h, ht, evaluation_runs ha hp hup, hv, ← hl, ← hk, Bool.false_eq_true, if_false] at hexec
  rw [if_neg (by rw [hop]; decide), if_neg (by rw [hop]; decide)] at hexec
  refine ⟨fun hkind => by rw [hexec, if_pos hkind], fun hkind hne => ?_⟩
  rw [if_neg hkind, if_neg (by simpa using hne)] at hexec
  exact ⟨_, hexec, rfl, rfl, rfl, by rw [List.map_map]; rfl⟩

end Evaluate

/-! BUCKET_READ_RETURN (R183). -/

section Bucket

variable {p : ProbeSt} (h : s.running e = some (r, j)) (ht : r.tile = some t) (hp : r.probe = some p) (hup : s.dieUp = true)
include h ht hp hup

/-- The first bucket that has come back is compared with its lane; where none has, further bucket reads are issued. -/
theorem bucketReturns :
    (s.bucketBack e t.tag = none → exec (.bucketReadReturn e) s = .next (s.askBuckets e j)) ∧
    (∀ i ix g, s.bucketBack e t.tag = some (i, ix, g) →
      let u := s.modEng e (fun x => { x with io := x.io.erase i })
      (g.status ≠ .ok → exec (.bucketReadReturn e) s = .next (u.tileFails e j { page := t.page, reason := 4, status := g.status })) ∧
      (∀ l, g.status = .ok → p.lanes.find? (fun l => l.index == ix) = some l →
        let p' := p.step l (nth g.data 0 0)
        (p'.lanes = [] → exec (.bucketReadReturn e) s = .next (u.probeDone e j t p')) ∧
        (p'.lanes ≠ [] → exec (.bucketReadReturn e) s =
          .next ((u.modRun e (fun r => { r with probe := some p' })).askBuckets e j)))) := by
  have hexec : exec (.bucketReadReturn e) s = execBucketReadReturn e s := rfl
  simp only [execBucketReadReturn, h, ht, hp, hup, Bool.not_true, Bool.false_eq_true, if_false] at hexec
  refine ⟨fun hb => by rw [hexec, hb], fun i ix g hb => ?_⟩
  simp only [hb] at hexec
  refine ⟨fun hst => by rw [hexec, if_pos hst], fun l hst hfind => ?_⟩
  simp only [if_neg (not_not.mpr hst), hfind] at hexec
  exact ⟨fun hn => by rw [hexec, if_pos (List.isEmpty_iff.mpr hn)], fun hn => by rw [hexec, if_neg (mt List.isEmpty_iff.mp hn)]⟩

end Bucket

/-- A lane after its bucket: the chain is followed, or cut after 16 buckets, or at its end with or without matches (R183). -/
theorem bucketStep (p : ProbeSt) (l : ProbeLane) (b : BitVec 512) :
    let x := bucketOf b l.key
    let others := p.lanes.filter (fun y => y.index != l.index)
    (x.2 ≠ 0 → l.depth < 15 → p.step l b = { p with lanes := p.lanes.map (fun y =>
      if y.index = l.index then { l with next := x.2, depth := l.depth + 1, found := l.found ++ x.1 } else y) }) ∧
    (x.2 ≠ 0 → 15 ≤ l.depth → p.step l b = { p with lanes := others, cut := p.cut + 1 }) ∧
    (x.2 = 0 → l.found ++ x.1 = [] → p.step l b = { p with lanes := others }) ∧
    (x.2 = 0 → l.found ++ x.1 ≠ [] → p.step l b = { p with lanes := others, done := smPut p.done l.index (l.found ++ x.1) }) := by
  intro x others
  have hend (hx : x.2 = 0) : p.step l b =
      { p with lanes := others, done := if (l.found ++ x.1).isEmpty then p.done else smPut p.done l.index (l.found ++ x.1) } :=
    (if_neg fun h => (decide_eq_true_eq.mp (Bool.and_eq_true_iff.mp h).1) hx).trans (if_neg (not_not.mpr hx))
  refine ⟨fun hx hd => if_pos (by simpa using ⟨hx, by omega⟩), fun hx hd => (if_neg (by simp; omega)).trans (if_pos hx),
    fun hx hn => ?_, fun hx hn => ?_⟩
  · rw [hend hx, if_pos (List.isEmpty_iff.mpr hn)]
  · rw [hend hx, if_neg (mt List.isEmpty_iff.mp hn)]

theorem tilesAreEvaluated : Part.TilesAreEvaluated := by
  refine ⟨fun s e r j t h ht ha hp hup hv => emptyTileEnds h ht ha hp hup hv, fun s e r j t h ht ha hp hup hv lanes hl => ?_,
    fun s e r j t p h ht hp hup => bucketReturns h ht hp hup, fun p l b => bucketStep p l b⟩
  obtain ⟨hscan, hscanAgg, hagg⟩ := lanesContribute h ht ha hp hup hv hl
  exact ⟨hscan, hscanAgg, hagg, fun hop hk => (lanesProbe h ht ha hp hup hv hl rfl hop).1 hk,
    fun hop hk hne => (lanesProbe h ht ha hp hup hv hl rfl hop).2 hk hne⟩

end Sys2Proof.Machine
end

section
/-! PROOFS. GATHER: the list, a position that is skipped, and a position whose lines have come (R184, R187). -/

namespace Sys2Proof.Machine

/-! The proofs of this section are checked one after the other: many at once hold more memory than the check of the whole text has. -/

set_option Elab.async false

variable {s u v : State} {e : Fin 64} {r r' : EngRun} {j : Job} {t t1 : Tile} {idx pos : Nat}

/-! GATHER_LIST_READ. What the writes have brought is `u`, with the part `r`. -/

theorem exec_gatherListRead (s : State) (e : Fin 64) : exec (.gatherListRead e) s = execGatherListRead e s := rfl

theorem gather_runs (hop : dOp j.desc = opGather) (hup : u.dieUp = true) : (decide (dOp j.desc ≠ opGather) || !u.dieUp) = false := by
  simp [hop, hup]

section List

variable (h : s.running e = some (r', j)) (hu : u = s.collect e j) (hr : (u.engs.eng[e]).run = some r) (hop : dOp j.desc = opGather)
  (hup : u.dieUp = true)
include h hu hr hop hup

/-- A position in progress goes on. -/
theorem positionGoesOn (hg : r.gather = some (t, idx, pos)) : exec (.gatherListRead e) s = .next (u.gatherOn e j t idx pos) := by
  simp only [exec_gatherListRead, execGatherListRead, h, ← hu, hr, gather_runs hop hup, hg, Bool.false_eq_true, if_false]

variable (hg : r.gather = none) (hs : r.stopped = false) (hj : u.jobStop j.id = false)
include hg hs hj

/-- The count of the list is read before any position. -/
theorem countIsRead (hc : r.gcount = none) {o : Option (CStatus × W64)} (ho : u.listWord e j 0 = (v, o)) :
    (o = none → exec (.gatherListRead e) s = .next v) ∧
    (∀ n, o = some (.ok, n) → exec (.gatherListRead e) s = .next (v.modRun e (fun r => { r with gcount := some n.toNat }))) ∧
    (∀ st n, o = some (st, n) → st ≠ .ok → exec (.gatherListRead e) s = .next (v.listFails e j st 0)) := by
  have hexec := exec_gatherListRead s e
  simp only [execGatherListRead, h, ← hu, hr, gather_runs hop hup, hg, hs, hj, hc, ho, Bool.or_self, Bool.false_eq_true, if_false] at hexec
  refine ⟨?_, ?_, ?_⟩
  · rintro rfl
    exact hexec
  · rintro n rfl
    exact hexec
  · rintro st n rfl hst
    cases st with
    | ok => exact absurd rfl hst
    | _ => exact hexec

variable {n : Nat} (hc : r.gcount = some n)
include hc

/-- At the end of the list nothing is read. -/
theorem listEnds (hn : n ≤ r.gnext) : exec (.gatherListRead e) s = .next u := by
  simp only [exec_gatherListRead, execGatherListRead, h, ← hu, hr, gather_runs hop hup, hg, hs, hj, hc, hn, Bool.or_self, Bool.false_eq_true,
    if_false, if_true]

/-- Before it the next position is read, and begins unless a command is changing its page (R25). -/
theorem positionIsRead (hn : r.gnext < n) {o : Option (CStatus × W64)} (ho : u.listWord e j (8 + 8 * r.gnext) = (v, o)) :
    (o = none → exec (.gatherListRead e) s = .next v) ∧
    (∀ w, o = some (.ok, w) → v.changing (fieldN w 17 21) = false → exec (.gatherListRead e) s = .next
      ((v.modRun e (fun r => { r with gnext := r.gnext + 1, values := r.values + 1 })).gatherBegin e j w r.gnext)) ∧
    (∀ st n, o = some (st, n) → st ≠ .ok → exec (.gatherListRead e) s = .next (v.listFails e j st r.gnext)) := by
  have hexec := exec_gatherListRead s e
  simp only [execGatherListRead, h, ← hu, hr, gather_runs hop hup, hg, hs, hj, hc, Nat.not_le.mpr hn, ho, Bool.or_self, Bool.false_eq_true,
    if_false] at hexec
  refine ⟨?_, ?_, ?_⟩
  · rintro rfl
    exact hexec
  · rintro w rfl hch
    exact hexec.trans (if_neg (ne_true_of_eq_false hch))
  · rintro st n rfl hst
    cases st with
    | ok => exact absurd rfl hst
    | _ => exact hexec

end List

/-! A position. -/

/-- A position outside the source range or in another channel is skipped. -/
theorem gatherBegin_skips {w : W64} (hout : fieldN w 17 21 < dSrcPage j.desc ∨ dSrcPage j.desc + dSrcCount j.desc ≤ fieldN w 17 21 ∨
    (decodePage s.glb.variant s.glb.mapOrder (fieldN w 17 21)).1 ≠ e) : s.gatherBegin e j w pos = s.skipPos e (fieldN w 17 21) :=
  if_pos (by simpa only [Bool.or_eq_true, decide_eq_true_eq, or_assoc] using hout)

/-- Lines that have all been asked for are not asked for again. -/
theorem askLines_asked {ks : List Nat} (h : ∀ k ∈ ks, k ∈ t.asked) : s.askLines e j t ks = (s, t) := by
  have htodo : ks.filter (fun k => !t.asked.contains k) = [] := List.filter_eq_nil_iff.mpr fun k hk => by simpa using h k hk
  simp only [State.askLines, htodo, List.map_nil, State.srcReads, List.take_nil, List.append_nil]

section Position

variable (hfeed : s.feed e t = (v, t1))
include hfeed

/-- A position whose header or line failed has its entry all the same. -/
theorem gatherOn_fails {f : EngFault} (hf : t1.fail = some f) : s.gatherOn e j t idx pos = v.gatherBad e j idx pos f := by
  simp only [State.gatherOn, hfeed, hf]

/-- With its header read and every line of its values come, the position's entry joins the body. -/
theorem gatherOn_enters (hf : t1.fail = none) (hp : t1.parsed = true) (hw : v.srcWait e t1.tag = false)
    (hcome : ∀ k ∈ t1.asked, (smGet? t1.lines k).isSome = true) (hasked : ∀ x ∈ gatherLines t1 j.desc idx, 16 * x.1 + x.2 ∈ t1.asked) :
    s.gatherOn e j t idx pos =
      v.gatherEntry e j t1.page (projectEntry t1.page idx ((dProjs j.desc).map (fun c => tileValue t1 t1.row c idx))) := by
  have hks : ∀ k ∈ (gatherLines t1 j.desc idx).map (fun x => 16 * x.1 + x.2), k ∈ t1.asked :=
    List.forall_mem_map.mpr hasked
  have hnone : t1.asked.any (fun k => (smGet? t1.lines k).isNone) = false := by simpa [← Option.isSome_iff_ne_none] using hcome
  have hall : ((gatherLines t1 j.desc idx).map (fun x => 16 * x.1 + x.2)).any (fun k => !t1.asked.contains k) = false := by
    simpa using hasked
  simp only [State.gatherOn, hfeed, hf, hp, askLines_asked hks, hw, hnone, hall, Bool.or_self, Bool.not_true, Bool.false_eq_true, if_false, if_true]

end Position

theorem positionsAreGathered : Part.PositionsAreGathered := by
  refine ⟨fun s u e r r' j h hu hr hop hup => ⟨fun t idx pos hg => positionGoesOn h hu hr hop hup hg, fun hg hs hj =>
      ⟨fun hc v o ho => countIsRead h hu hr hop hup hg hs hj hc ho, fun n hc hn => listEnds h hu hr hop hup hg hs hj hc hn,
        fun n hc hn v o ho => positionIsRead h hu hr hop hup hg hs hj hc hn ho⟩⟩,
    fun s e j w pos hout => gatherBegin_skips hout,
    fun s v e j t t1 idx pos hfeed => ⟨fun f hf => gatherOn_fails hfeed hf, fun hf hp hw hcome hasked =>
      gatherOn_enters hfeed hf hp hw hcome hasked⟩⟩

/-- Settles O26: a tile is opened (`tilesAreOpened`), read on until `readOn_asks` finds nothing outstanding (`tilesAreReadAndChecked`), and
evaluated (`tilesAreEvaluated`); GATHER takes one position at a time (`positionsAreGathered`). Which rows and lines are read, and that an
armed TILE_FORMAT strikes before the header, are the model's readings (log entry 54); when a tile is opened ahead is its choice (log
entry 56). -/
theorem tilesAreReadAndEvaluated : Obligations.TilesAreReadAndEvaluated :=
  ⟨tilesAreOpened, tilesAreReadAndChecked, tilesAreEvaluated, positionsAreGathered⟩

end Sys2Proof.Machine
end

section
/-! PROOFS. Copies of pages, and the end of an engine's part (R171, R176, R177, R185-R188, R458). -/

namespace Sys2Proof.Machine

/-! The proofs of this section are checked one after the other: many at once hold more memory than the check of the whole text has. -/

set_option Elab.async false

variable {s u : State} {e : Fin 64} {r0 r : EngRun} {j : Job} {c : CopySt}

/-- The page that a part takes: its entry is looked up and held under the tag that is next (R171). -/
def State.copyStart (u : State) (e : Fin 64) (page : Nat) : CopySt :=
  { page := page, entry := u.pageEntry page, tag := (u.engs.eng[e]).nextTag }

/-- The state in which the part works on its next page. -/
def State.takePage (u : State) (e : Fin 64) (page : Nat) (rest : List Nat) : State :=
  ((u.modRun e (fun r => { r with tiles := rest, copy := some (u.copyStart e page) })).walkAhead e rest).modEng e
    (fun x => { x with nextTag := x.nextTag + 1 })

/-! COPY_PAGE. What the writes have brought is `u`, with the part `r`. -/

theorem exec_copyPage (s : State) (e : Fin 64) : exec (.copyPage e) s = execCopyPage e s := rfl

theorem copy_runs (hop : dOp j.desc = opCopy) (hup : u.dieUp = true) : (decide (dOp j.desc ≠ opCopy) || !u.dieUp) = false := by
  simp [hop, hup]

section Copy

variable (h : s.running e = some (r0, j)) (hu : u = s.collect e j) (hr : (u.engs.eng[e]).run = some r) (hop : dOp j.desc = opCopy)
  (hup : u.dieUp = true)
include h hu hr hop hup

/-- The page in progress goes on. -/
theorem copyGoesOn (hc : r.copy = some c) : exec (.copyPage e) s = .next (u.copyOn e j c) := by
  simp only [exec_copyPage, execCopyPage, h, ← hu, hr, copy_runs hop hup, hc, Bool.false_eq_true, if_false]

variable (hc : r.copy = none)
include hc

/-- A part that has been stopped, or has no page left, begins none. -/
theorem copyRests (hstop : r.stopped = true ∨ u.jobStop j.id = true ∨ r.tiles = []) : exec (.copyPage e) s = .next u := by
  simp only [exec_copyPage, execCopyPage, h, ← hu, hr, copy_runs hop hup, hc, Bool.false_eq_true, if_false]
  by_cases hs : (r.stopped || u.jobStop j.id) = true
  · rw [if_pos hs]
  · rw [← or_assoc, ← Bool.or_eq_true] at hstop
    rw [if_neg hs, hstop.resolve_left hs]

/-- The next page is begun unless a command is changing it (R25). -/
theorem copyBegins (hs : r.stopped = false) (hj : u.jobStop j.id = false) {page : Nat} {rest : List Nat} (ht : r.tiles = page :: rest)
    (hch : u.changing page = false) : exec (.copyPage e) s = .next ((u.takePage e page rest).copyOn e j (u.copyStart e page)) := by
  simp only [exec_copyPage, execCopyPage, h, ← hu, hr, copy_runs hop hup, hc, hs, hj, ht, hch, Bool.or_self, Bool.false_eq_true, if_false]
  rfl

end Copy

/-! A page in progress with no write outstanding: its row is asked for, or taken. -/

section Row

variable (hw : (s.engs.eng[e].io).find? (fun i => i.write && i.record.isNone) = none)
include hw

/-- The row is asked for under the page's held entry, where ENG_RATE lets it. -/
theorem copyOn_asks (ha : c.asked = false) (hrate : s.rateOpen e = true) : s.copyOn e j c =
    (s.srcRead e j c.page { tile := c.tag, row := c.row, line := none, entry := c.entry }).modRun e
      (fun r => { r with copy := some { c with asked := true } }) := by
  simp only [State.copyOn, hw, ha, hrate, Bool.not_false, if_true]

theorem copyOn_barred (ha : c.asked = false) (hrate : s.rateOpen e = false) : s.copyOn e j c = s := by
  simp only [State.copyOn, hw, ha, hrate, Bool.not_false, if_true, Bool.false_eq_true, if_false]

/-- The answer to the row: none yet, a refusal, or the lines that are written on. -/
theorem copyOn_takes (ha : c.asked = true) {v : State} {gs : List (SrcRead × IoGot)} (ht : s.srcTake e c.tag = (v, gs)) :
    (gs = [] → s.copyOn e j c = v) ∧
    (∀ x g rest, gs = (x, g) :: rest → g.lines = [] → s.copyOn e j c = v.copyFails e j c.page 1 g.status) ∧
    (∀ x g rest, gs = (x, g) :: rest → g.lines ≠ [] → ∀ w ls, v.copyLines e j c.page c.row g = (w, ls) →
      let c' : CopySt := { c with data := ls }
      s.copyOn e j c = ((w.modRun e (fun r => { r with copy := some c' })).releaseRows e).copySend e j c') := by
  have hon := State.copyOn.eq_def s e j c
  simp only [hw, ha, ht, Bool.not_true, Bool.false_eq_true, if_false] at hon
  refine ⟨?_, ?_, ?_⟩
  · rintro rfl
    exact hon
  · rintro x g rest rfl hg
    exact hon.trans (if_pos (List.isEmpty_iff.mpr hg))
  · rintro x g rest rfl hg w ls hls
    refine hon.trans ((if_neg (mt List.isEmpty_iff.mp hg)).trans ?_)
    simp only [hls, ha]

end Row

/-! A page in progress with a write outstanding. -/

/-- The lines of a row that one write carries: one to this node, the row to another (log entry 57). -/
def State.copyWidth (s : State) (a : Nat) : Nat := if s.isLocal a then 1 else 16

/-- A write that has completed: its poisoned lines are counted. -/
def State.copyWritten (s : State) (e : Fin 64) (i : EngIo) (ls : List (BitVec 512 × Bool)) : State :=
  (s.modEng e (fun x => { x with io := x.io.erase i })).modRun e (fun r => { r with result1 := r.result1 + countIf ls (fun l => l.2) })

section Write

variable {i : EngIo} (hw : (s.engs.eng[e].io).find? (fun i => i.write && i.record.isNone) = some i)
include hw

/-- The page waits for the answer. -/
theorem copyOn_waits (hi : i.got = none) : s.copyOn e j c = s := by
  simp only [State.copyOn, hw, hi]

variable {g : IoGot} (hi : i.got = some g)
include hi

/-- A refused write fails the page with REMOTE (log entry 103). -/
theorem copyOn_refused (hst : g.status ≠ .ok) :
    s.copyOn e j c = (s.modEng e (fun x => { x with io := x.io.erase i })).copyFails e j c.page 4 g.status := by
  simp only [State.copyOn, hw, hi]
  rw [if_pos hst]

/-- The rest of the row is written, or the next row asked for, or the page is done. -/
theorem copyOn_written (hst : g.status = .ok) :
    let n := s.copyWidth (copyDst j.desc c.page)
    let v := s.copyWritten e i (c.data.take n)
    s.copyOn e j c =
      if c.data.drop n = [] then
        if c.row = 127 then v.copyDone e c.page
        else v.modRun e (fun r => { r with copy := some { c with data := [], row := c.row + 1, asked := false } })
      else (v.modRun e (fun r => { r with copy := some { c with data := c.data.drop n } })).copySend e j { c with data := c.data.drop n } := by
  intro n v
  have hon := State.copyOn.eq_def s e j c
  simp only [hw, hi, hst, ne_eq, not_true_eq_false, if_false] at hon
  by_cases hd : c.data.drop n = []
  · rw [if_pos hd]
    refine hon.trans ((if_neg (show ¬ (!(c.data.drop n).isEmpty) = true by simp [hd])).trans ?_)
    rw [← hd]
    rfl
  · rw [if_neg hd]
    exact hon.trans (if_pos (show (!(c.data.drop n).isEmpty) = true by simp [hd]))

end Write

theorem pagesAreCopied : Part.PagesAreCopied := by
  refine ⟨fun s u e r0 r j h hu hr hop hup => ⟨fun c hc => copyGoesOn h hu hr hop hup hc, fun hc hstop => copyRests h hu hr hop hup hc hstop,
      fun hc hs hj page rest ht hch => copyBegins h hu hr hop hup hc hs hj ht hch⟩,
    fun s e j c hw => ⟨copyOn_asks hw, copyOn_barred hw, fun ha v gs ht => copyOn_takes hw ha ht⟩,
    fun s e j c i hw => ⟨copyOn_waits hw, fun g hi => ⟨copyOn_refused hw hi, fun hst => ?_⟩⟩⟩
  have hon := copyOn_written (j := j) (c := c) hw hi hst
  refine ⟨fun hd hrow => ?_, fun hd hrow => ?_, fun hd => hon.trans (if_neg hd)⟩
  · exact hon.trans ((if_pos hd).trans (if_pos hrow))
  · exact hon.trans ((if_pos hd).trans (if_neg hrow))

/-- A change of an engine's part leaves the engine's requests alone. -/
theorem modRun_run (s : State) (e : Fin 64) (f : EngRun → EngRun) :
    ((s.modRun e f).engs.eng[e]).run = (s.engs.eng[e]).run.map f := by rw [State.modRun, modEng_eng]

theorem modRun_io (s : State) (e : Fin 64) (f : EngRun → EngRun) :
    ((s.modRun e f).engs.eng[e]).io = (s.engs.eng[e]).io := by rw [State.modRun, modEng_eng]

/-! COPY_PAGE with nothing outstanding (R185, R458). -/

/-- Where no request is outstanding there is nothing to collect. -/
theorem collect_idle (j : Job) (hio : (s.engs.eng[e]).io = []) : s.collect e j = s := by
  simp only [State.collect, hio, List.filter_nil, List.foldl_nil]
  exact modEng_id (by rw [hio, List.filter_nil, ← hio])

/-- A request that is issued or held at a port changes no engine. -/
theorem portIssue_engs (s : State) (k : Fin 140) (q : Req) : (s.portIssue k q).engs = s.engs := by
  have hst : s.started.engs = s.engs := by
    rw [State.started]
    split <;> rfl
  simp only [State.portIssue]
  split
  · split <;> rfl
  · exact hst

/-- An engine that issues a request awaits its answer under the tag that was next. -/
theorem engIssue_eng (s : State) (e : Fin 64) (j : Job) (a : Nat) (k : ReqKind) (x : EngIo) : (s.engIssue e j a k x).engs.eng[e] =
    { s.engs.eng[e] with
      nextTag := (s.engs.eng[e]).nextTag + 1
      io := (s.engs.eng[e]).io ++ [{ x with tag := (s.engs.eng[e]).nextTag, gaddr := a, write := isWrite k }] } := by
  rw [State.engIssue]
  dsimp only
  rw [portIssue_engs, modEng_eng]

/-- An engine that asks for a row of a source page, or a line of it, awaits the answer, and its part is as it was. -/
theorem srcRead_io (s : State) (e : Fin 64) (j : Job) (page : Nat) (x : SrcRead) : ((s.srcRead e j page x).engs.eng[e]).io =
    (s.engs.eng[e]).io ++ [{ plainIo with
      src := some x
      tag := (s.engs.eng[e]).nextTag
      gaddr := s.fab.nodeId.toNat * 1099511627776 + page * 131072 + x.row * 1024 + 64 * x.line.getD 0
      write := isWrite (if x.line.isNone then .rowRead true else .lineRead) }] := by
  rw [State.srcRead]
  dsimp only
  rw [engIssue_eng, modEng_eng]

theorem srcRead_run (s : State) (e : Fin 64) (j : Job) (page : Nat) (x : SrcRead) :
    ((s.srcRead e j page x).engs.eng[e]).run = (s.engs.eng[e]).run := by
  rw [State.srcRead]
  dsimp only
  rw [engIssue_eng, modEng_eng]

/-- Walks ahead are the walker's alone. -/
theorem walkAhead_frame (s : State) (e : Fin 64) (rest : List Nat) :
    (s.walkAhead e rest).engs = s.engs ∧ (s.walkAhead e rest).thm = s.thm ∧ (s.walkAhead e rest).strobe = s.strobe ∧
      (s.walkAhead e rest).fab = s.fab := by
  unfold State.walkAhead
  split
  · exact ⟨rfl, rfl, rfl, rfl⟩
  · split <;> exact ⟨rfl, rfl, rfl, rfl⟩

/-- The engine that takes a page, and what the taking leaves alone. -/
theorem takePage_frame (hr : (s.engs.eng[e]).run = some r) (page : Nat) (rest : List Nat) :
    (s.takePage e page rest).engs.eng[e] = { s.engs.eng[e] with
      run := some { r with tiles := rest, copy := some (s.copyStart e page) }, nextTag := (s.engs.eng[e]).nextTag + 1 } ∧
    (s.takePage e page rest).thm = s.thm ∧ (s.takePage e page rest).strobe = s.strobe ∧ (s.takePage e page rest).fab = s.fab := by
  obtain ⟨hengs, hthm, hstrobe, hfab⟩ :=
    walkAhead_frame (s.modRun e (fun r => { r with tiles := rest, copy := some (s.copyStart e page) })) e rest
  refine ⟨?_, hthm, hstrobe, hfab⟩
  rw [State.takePage, modEng_eng, hengs, State.modRun, modEng_eng, hr]
  rfl

theorem copyPageCompletes : Part.CopyPageCompletes := by
  intro s e r j page rest h hio hup hop hc hs hj ht hch hrate
  have hbegin := copyBegins h (collect_idle j hio).symm (running_run h) hop hup hc hs hj ht hch
  obtain ⟨heng, hthm, hstrobe, hfab⟩ := takePage_frame (running_run h) page rest
  generalize s.takePage e page rest = v at hbegin heng hthm hstrobe hfab
  have hio' : (v.engs.eng[e]).io = [] := by
    rw [heng]
    exact hio
  have hw : (v.engs.eng[e].io).find? (fun i => i.write && i.record.isNone) = none := by
    rw [hio', List.find?_nil]
  have hrate' : v.rateOpen e = true := by
    rw [← hrate, State.rateOpen, State.rateOpen, heng, hthm, hstrobe]
  refine ⟨_, hbegin.trans (congrArg _ (copyOn_asks hw rfl hrate')), ?_, ?_⟩
  · rw [modRun_run, srcRead_run, heng]
    rfl
  · rw [modRun_io, srcRead_io, hio', hfab]
    have haddr (a : Nat) : a + 0 * 1024 + 64 * 0 = a := by omega
    exact congrArg (fun a => [(a, false, true)]) (haddr _)

/-! ENGINE_PART_END (R176, R177, R187, R188). -/

/-- A part with nothing left to process ends by its body, its header and its results, each once every write is answered. -/
theorem partEndsInOrder (h : s.running e = some (r0, j)) (hr : ((s.collect e j).engs.eng[e]).run = some r)
    (hup : (s.collect e j).dieUp = true) (hfin : r.finished j = true) {v : State}
    (hu : u = if r.ending = 0 then (s.collect e j).endBody e j else s.collect e j) :
    (u.engQuiet e = false → exec (.enginePartEnd e) s = .next u) ∧
    (u.engQuiet e = true → v = (if r.ending ≤ 1 then u.endHeader e j else u) →
      (v.engQuiet e = false → exec (.enginePartEnd e) s = .next v) ∧
      (v.engQuiet e = true → exec (.enginePartEnd e) s = .next (v.partDone e j))) := by
  have hexec : exec (.enginePartEnd e) s = execEnginePartEnd e s := rfl
  simp only [execEnginePartEnd, h, hr, hup, hfin, ← hu, Bool.not_true, Bool.or_self, Bool.false_eq_true, if_false] at hexec
  refine ⟨fun hq => by simpa only [hq, Bool.not_false, if_true] using hexec, fun hq hv => ?_⟩
  simp only [hq, ← hv, Bool.not_true, Bool.false_eq_true, if_false] at hexec
  exact ⟨fun hq' => by simpa only [hq', Bool.not_false, if_true] using hexec,
    fun hq' => by simpa only [hq', Bool.not_true, Bool.false_eq_true, if_false] using hexec⟩

/-- An engine with no request outstanding waits for no answer. -/
theorem engQuiet_idle (hio : (s.engs.eng[e]).io = []) : s.engQuiet e = true := by
  rw [State.engQuiet, hio]
  rfl

/-- The part's results join its job, and the engine is free. -/
theorem partDone_eq (j : Job) (hr : (s.engs.eng[e]).run = some r) : s.partDone e j =
    ((s.modJob j.id (fun x => { x with parts := x.parts ++ [r.part e] })).modEng e (fun x => { x with
      run := none, io := [], jobs := satAdd x.jobs 1 })).releaseRows e := by
  rw [State.partDone, hr]

theorem partsEnd : Part.PartsEnd := by
  refine ⟨fun s e r0 r j h hr hup hfin u v hu => partEndsInOrder h hr hup hfin hu,
    fun s e j r hr => ⟨r.part e, rfl, rfl, rfl, rfl, rfl, rfl, rfl, partDone_eq j hr⟩, fun s e r j h hio hup hfin hend => ?_⟩
  have hr := running_run h
  have hidle := collect_idle j hio
  have hquiet := engQuiet_idle hio
  have hdone := ((partEndsInOrder (u := s) (v := s) h (by rw [hidle]; exact hr) (by rw [hidle]; exact hup) hfin
    (by rw [hend, hidle]; rfl)).2 hquiet (by rw [hend]; rfl)).2 hquiet
  refine ⟨_, hdone, ?_, ?_, ?_⟩
  · rw [partDone_eq j hr, releaseRows_eng, modEng_eng]
  · rw [partDone_eq j hr, releaseRows_eng, modEng_eng]
    rfl
  · rw [partDone_eq j hr]
    rfl

/-- Settles O27: a page goes on by `copyOn`, whose outcomes are those of its row and its writes; a part ends in the order of
`partEndsInOrder`, and its results join its job (`partDone_eq`). How a row is written (log entry 57), and that a refused write ends the page
alone (log entry 103), are the model's readings. -/
theorem copiesAndPartsEnd : Obligations.CopiesAndPartsEnd := ⟨pagesAreCopied, copyPageCompletes, partsEnd⟩

end Sys2Proof.Machine
end
